-- ==== Sys2Proof/Word.lean ====
section
/-! DEFINITION. Sys2Proof/Word.lean: the word types of the machine. -/

namespace Sys2Proof

/-- The 64-bit word of address fields, system registers and doublewords (R206). -/
abbrev Word := BitVec 64

abbrev Byte := BitVec 8

/-- The name of a g register, 0-31 (R206). -/
abbrev GReg := BitVec 5

/-- A core or endpoint coordinate: [15:12] die, [11:6] row, [5:0] col (R25, R97). -/
abbrev Coord := BitVec 16

namespace Coord

/-- The virtual die number of a coordinate. -/
def die (c : Coord) : Nat := c.toNat / 4096

/-- The logical row of a coordinate. -/
def row (c : Coord) : Nat := c.toNat / 64 % 64

/-- The logical column of a coordinate. -/
def col (c : Coord) : Nat := c.toNat % 64

/-- The coordinate of die, row and column. -/
def mk (d r k : Nat) : Coord := BitVec.ofNat 16 (d % 16 * 4096 + r % 64 * 64 + k % 64)

end Coord

end Sys2Proof
end

