-- ==== Sys2Proof/Machine/Bits.lean ====
section
/-! DEFINITION. Sys2Proof/Machine/Bits.lean: bit fields, signed readings, byte order and sparse maps. -/

namespace Sys2Proof.Machine

/-- Bits [hi:lo] of `x`. -/
def bits (x hi lo : Nat) : Nat := x / 2 ^ lo % 2 ^ (hi + 1 - lo)

/-- Bit `n` of `x`. -/
def bit (x n : Nat) : Bool := x / 2 ^ n % 2 == 1

/-- `x` as a field that starts at bit `lo`. -/
def at_ (lo x : Nat) : Nat := x * 2 ^ lo

/-- A truth value as a bit. -/
def b2n (b : Bool) : Nat := if b then 1 else 0

/-- The two's complement reading of the low `n` bits (n at least 1). -/
def signed (x n : Nat) : Int :=
  let m := x % 2 ^ n
  if m < 2 ^ (n - 1) then m else (m : Int) - 2 ^ n

/-- An exact integer modulo 2^n. -/
def wrap (i : Int) (n : Nat) : Nat := (i % (2 ^ n : Int)).toNat

/-- `x` as a 64-bit word. -/
def word (x : Nat) : Word := BitVec.ofNat 64 x

/-- An exact integer as a 64-bit word. -/
def wordI (i : Int) : Word := BitVec.ofInt 64 i

/-- The number of a little-endian byte list (R7). -/
def leNat : List Byte → Nat
  | [] => 0
  | b :: r => b.toNat + 256 * leNat r

/-- The `n` little-endian bytes of a number (R7). -/
def leBytes : Nat → Nat → List Byte
  | 0, _ => []
  | n + 1, x => BitVec.ofNat 8 x :: leBytes n (x / 256)

/-- The elements of a concatenation, lowest first, put together at `w` bits each. -/
def joinBits (w : Nat) : List Nat → Nat
  | [] => 0
  | x :: r => x % 2 ^ w + 2 ^ w * joinBits w r

/-- `n` parts of `w` bits of a number, lowest first. -/
def splitBits (w : Nat) : Nat → Nat → List Nat
  | 0, _ => []
  | n + 1, x => x % 2 ^ w :: splitBits w n (x / 2 ^ w)

/-- The exclusive or of a list of numbers. -/
def xorAll (l : List Nat) : Nat := l.foldl (fun a b => a ^^^ b) 0

/-- The position of the highest set bit plus one; 0 for 0. -/
def bitLength (x : Nat) : Nat := if x = 0 then 0 else Nat.log2 x + 1

/-- The number of set bits among the low `n`. -/
def popCount : Nat → Nat → Nat
  | 0, _ => 0
  | n + 1, x => x % 2 + popCount n (x / 2)

/-- The least `i` below `n` with `p i`, counted from `k`. -/
def findFrom (p : Nat → Bool) : Nat → Nat → Option Nat
  | 0, _ => none
  | n + 1, k => if p k then some k else findFrom p n (k + 1)

/-- The least `i` below `n` with `p i`. -/
def findBelow (n : Nat) (p : Nat → Bool) : Option Nat := findFrom p n 0

/-- ⌈a / b⌉. -/
def ceilDiv (a b : Nat) : Nat := (a + b - 1) / b

/-- `a` rounded down, or up, to a multiple of 2^e. -/
def roundDown (a e : Nat) : Nat := a / 2 ^ e * 2 ^ e
def roundUp (a e : Nat) : Nat := (a + 2 ^ e - 1) / 2 ^ e * 2 ^ e

/-! ### Maps with a default -/

/-- The value of a key: the first entry that names it, or the default. -/
def look {α : Type} (d : α) : List (Nat × α) → Nat → α
  | [], _ => d
  | (a, x) :: r, k => if a = k then x else look d r k

/-- The map with one key set. -/
def put {α : Type} : List (Nat × α) → Nat → α → List (Nat × α)
  | [], k, v => [(k, v)]
  | (a, x) :: r, k, v => if a = k then (k, v) :: r else (a, x) :: put r k v

/-- Element `i` of a list, or the default. -/
def nth {α : Type} (d : α) : List α → Nat → α
  | [], _ => d
  | x :: _, 0 => x
  | _ :: r, i + 1 => nth d r i

/-- The list with element `i` replaced. -/
def setNth {α : Type} : List α → Nat → α → List α
  | [], _, _ => []
  | _ :: r, 0, v => v :: r
  | x :: r, i + 1, v => x :: setNth r i v

/-- The list without the first element that satisfies `p`. -/
def dropFirst {α : Type} (p : α → Bool) : List α → List α
  | [] => []
  | x :: r => if p x then r else x :: dropFirst p r

end Sys2Proof.Machine
end

