-- ==== Sys2Proof/Syntax.lean ====
section
/-! DEFINITION. Sys2Proof/Syntax.lean: the whole instruction set, one constructor of `Instr` per row of the opcode table (R213, R225-R228), and the rows of the table that are steps of the machine's other agents. -/

namespace Sys2Proof

/-- The fields of the scheduled 80-bit form other than the operation number (R216). -/
structure SForm where
  /-- type code, OPC [67:64] (R218) -/
  t : BitVec 4
  vd : BitVec 5
  va : BitVec 5
  vb : BitVec 5
  vc : BitVec 5
  /-- predicate register k0-k7 -/
  pred : BitVec 3
  /-- producer distance (R219) -/
  la : BitVec 4
  /-- park (R219) -/
  pk : BitVec 1
  /-- fresh reads: bit 3 vd, bit 2 va, bit 1 vb, bit 0 vc (R220) -/
  fr : BitVec 4
  /-- keep hints: bit 2 va, bit 1 vb, bit 0 vc (R222) -/
  keep : BitVec 3
  /-- modifier MOD -/
  md : BitVec 4
  /-- port select: bit 2 va, bit 1 vb, bit 0 vc -/
  ps : BitVec 3
  /-- form-specific field FS -/
  fs : BitVec 17
deriving DecidableEq, Repr

/-- The fields of the engine 80-bit form other than the operation number (R217). -/
structure EForm where
  /-- type code, OPC [67:64] (R218) -/
  t : BitVec 4
  gj : BitVec 5
  ga : BitVec 5
  gb : BitVec 5
  gc : BitVec 5
  /-- split granule -/
  sg : BitVec 3
  /-- producer distance of the job id -/
  la : BitVec 4
  gd : BitVec 5
  /-- engine-specific field ES -/
  es : BitVec 32
deriving DecidableEq, Repr

/-- What a targeted self-test finds (R448): how many of its 16 passes failed, and whether what stands behind the unit can still be
read (R90). -/
structure TestResult where
  fails : Nat
  readable : Bool
deriving DecidableEq, Repr

/-- What of a tower that leaves service can still be read (R93). -/
structure Readable where
  cap : Bool
  stack : Bool
deriving DecidableEq, Repr

/-- The places that a memory request names: windows of cores, and stacks (R80). -/
structure Places where
  cores : List Coord := []
  towers : List Nat := []
deriving DecidableEq, Repr

/-- The pages that a memory request asks for: how many, and the bits of their size (R40, R80). -/
structure PageCount where
  n : Nat
  shift : Nat
deriving DecidableEq, Repr

/-- One constructor per row of the opcode table. The first 275 are decoded from parcels; the rest are the
indivisible steps of the other agents of the module (message service, schedulers, engines, firmware,
host), which the decoder never gives and `step` takes from the agenda of the state. -/
inductive Instr where
  /-- ADD (R261) -/
  | add (d a b : GReg) (w : BitVec 3)
  /-- SUB (R261) -/
  | sub (d a b : GReg) (w : BitVec 3)
  /-- MUL (R261) -/
  | mul (d a b : GReg) (w : BitVec 3)
  /-- MULH (R261) -/
  | mulh (d a b : GReg) (w : BitVec 3)
  /-- MULHU (R261) -/
  | mulhu (d a b : GReg) (w : BitVec 3)
  /-- DIV (R261) -/
  | div (d a b : GReg) (w : BitVec 3)
  /-- DIVU (R261) -/
  | divu (d a b : GReg) (w : BitVec 3)
  /-- REM (R261) -/
  | rem (d a b : GReg) (w : BitVec 3)
  /-- REMU (R261) -/
  | remu (d a b : GReg) (w : BitVec 3)
  /-- AND (R261) -/
  | and (d a b : GReg) (w : BitVec 3)
  /-- OR (R261) -/
  | or (d a b : GReg) (w : BitVec 3)
  /-- XOR (R261) -/
  | xor (d a b : GReg) (w : BitVec 3)
  /-- SHL (R261) -/
  | shl (d a b : GReg) (w : BitVec 3)
  /-- SHR (R261) -/
  | shr (d a b : GReg) (w : BitVec 3)
  /-- SAR (R261) -/
  | sar (d a b : GReg) (w : BitVec 3)
  /-- ROL (R261) -/
  | rol (d a b : GReg) (w : BitVec 3)
  /-- CLZ (R261) -/
  | clz (d a : GReg) (w : BitVec 3)
  /-- CTZ (R261) -/
  | ctz (d a : GReg) (w : BitVec 3)
  /-- POPC (R261) -/
  | popc (d a : GReg) (w : BitVec 3)
  /-- MIN (R261) -/
  | min (d a b : GReg) (w : BitVec 3)
  /-- MAX (R261) -/
  | max (d a b : GReg) (w : BitVec 3)
  /-- MINU (R261) -/
  | minu (d a b : GReg) (w : BitVec 3)
  /-- MAXU (R261) -/
  | maxu (d a b : GReg) (w : BitVec 3)
  /-- SEL (R263) -/
  | sel (d a b c : GReg)
  /-- SEQ (R261) -/
  | seq (d a b : GReg) (w : BitVec 3)
  /-- SNE (R261) -/
  | sne (d a b : GReg) (w : BitVec 3)
  /-- SLT (R261) -/
  | slt (d a b : GReg) (w : BitVec 3)
  /-- SLTU (R261) -/
  | sltu (d a b : GReg) (w : BitVec 3)
  /-- MOV (R263) -/
  | mov (d a : GReg)
  /-- EXT_N64 (R262) -/
  | extN64 (d a b : GReg) (l : BitVec 6)
  /-- EXT_I64 (R262) -/
  | extI64 (d a b : GReg) (l : BitVec 6)
  /-- INS (R262) -/
  | ins (d a b : GReg) (l : BitVec 6)
  /-- RET (R274) -/
  | ret (a : GReg)
  /-- ADDI (R264) -/
  | addi (d a : GReg) (i : BitVec 12)
  /-- ANDI (R264) -/
  | andi (d a : GReg) (i : BitVec 12)
  /-- ORI (R264) -/
  | ori (d a : GReg) (i : BitVec 12)
  /-- XORI (R264) -/
  | xori (d a : GReg) (i : BitVec 12)
  /-- SHLI (R264) -/
  | shli (d a : GReg) (u : BitVec 6)
  /-- SHRI (R264) -/
  | shri (d a : GReg) (u : BitVec 6)
  /-- SARI (R264) -/
  | sari (d a : GReg) (u : BitVec 6)
  /-- LI (R264) -/
  | li (d : GReg) (i : BitVec 12)
  /-- LIH (R264) -/
  | lih (d a : GReg) (i : BitVec 12)
  /-- CADDI (R266) -/
  | caddi (d a : GReg) (i : BitVec 12)
  /-- CADD (R266) -/
  | cadd (d a b : GReg)
  /-- CSUB (R266) -/
  | csub (d a b : GReg)
  /-- CSETB (R267) -/
  | csetb (d a b : GReg)
  /-- CSETP (R268) -/
  | csetp (d a b : GReg)
  /-- CSETF (R269) -/
  | csetf (d a b : GReg)
  /-- CSETC (R270) -/
  | csetc (d a b : GReg)
  /-- CGETA (R271) -/
  | cgeta (d a : GReg)
  /-- CGETB (R271) -/
  | cgetb (d a : GReg)
  /-- CGETT (R271) -/
  | cgett (d a : GReg)
  /-- CGETP (R271) -/
  | cgetp (d a : GReg)
  /-- CGETF (R271) -/
  | cgetf (d a : GReg)
  /-- CTAG (R271) -/
  | ctag (d a : GReg)
  /-- CCLR (R271) -/
  | cclr (d a : GReg)
  /-- BR (R273) -/
  | br (o : BitVec 17)
  /-- JAL (R273) -/
  | jal (d : GReg) (o : BitVec 17)
  /-- JALR (R274) -/
  | jalr (d a : GReg) (i : BitVec 12)
  /-- BCC_EQ (R273) -/
  | bccEq (d a : GReg) (i : BitVec 12)
  /-- BCC_NE (R273) -/
  | bccNe (d a : GReg) (i : BitVec 12)
  /-- BCC_LT (R273) -/
  | bccLt (d a : GReg) (i : BitVec 12)
  /-- BCC_GE (R273) -/
  | bccGe (d a : GReg) (i : BitVec 12)
  /-- BCC_LTU (R273) -/
  | bccLtu (d a : GReg) (i : BitVec 12)
  /-- BCC_GEU (R273) -/
  | bccGeu (d a : GReg) (i : BitVec 12)
  /-- LD_I8 (R286) -/
  | ldI8 (d a : GReg) (i : BitVec 12)
  /-- LD_I16 (R286) -/
  | ldI16 (d a : GReg) (i : BitVec 12)
  /-- LD_I32 (R286) -/
  | ldI32 (d a : GReg) (i : BitVec 12)
  /-- LD_I64 (R286) -/
  | ldI64 (d a : GReg) (i : BitVec 12)
  /-- LD_N8 (R286) -/
  | ldN8 (d a : GReg) (i : BitVec 12)
  /-- LD_N16 (R286) -/
  | ldN16 (d a : GReg) (i : BitVec 12)
  /-- LD_N32 (R286) -/
  | ldN32 (d a : GReg) (i : BitVec 12)
  /-- LD_N64 (R286) -/
  | ldN64 (d a : GReg) (i : BitVec 12)
  /-- ST_8 (R286) -/
  | st8 (d a : GReg) (i : BitVec 12)
  /-- ST_16 (R286) -/
  | st16 (d a : GReg) (i : BitVec 12)
  /-- ST_32 (R286) -/
  | st32 (d a : GReg) (i : BitVec 12)
  /-- ST_64 (R286) -/
  | st64 (d a : GReg) (i : BitVec 12)
  /-- LDC (R287) -/
  | ldc (d a : GReg) (i : BitVec 12)
  /-- STC (R287) -/
  | stc (d a : GReg) (i : BitVec 12)
  /-- LD_ACQ (R288) -/
  | ldAcq (d a b : GReg) (w : BitVec 3)
  /-- ST_REL (R288) -/
  | stRel (d a b : GReg) (z : BitVec 2)
  /-- FENCE (R289) -/
  | fence (a : GReg) (o : BitVec 2)
  /-- IFENCE (R290) -/
  | ifence
  /-- PREF (R291) -/
  | pref (h : BitVec 5) (a : GReg) (i : BitVec 12)
  /-- CAS_N32 (R295) -/
  | casN32 (d a b c : GReg) (o : BitVec 2)
  /-- CAS_N64 (R295) -/
  | casN64 (d a b c : GReg) (o : BitVec 2)
  /-- SEND (R298) -/
  | send (d a b : GReg)
  /-- SENDX (R298) -/
  | sendx (d a b : GReg)
  /-- HRET (R300) -/
  | hret (a : GReg) (v : BitVec 1) (m : BitVec 4)
  /-- AMO_ADD_N32 (R295) -/
  | amoAddN32 (d a b c : GReg) (o : BitVec 2)
  /-- AMO_ADD_N64 (R295) -/
  | amoAddN64 (d a b c : GReg) (o : BitVec 2)
  /-- AMO_AND_N32 (R295) -/
  | amoAndN32 (d a b c : GReg) (o : BitVec 2)
  /-- AMO_AND_N64 (R295) -/
  | amoAndN64 (d a b c : GReg) (o : BitVec 2)
  /-- AMO_OR_N32 (R295) -/
  | amoOrN32 (d a b c : GReg) (o : BitVec 2)
  /-- AMO_OR_N64 (R295) -/
  | amoOrN64 (d a b c : GReg) (o : BitVec 2)
  /-- AMO_XOR_N32 (R295) -/
  | amoXorN32 (d a b c : GReg) (o : BitVec 2)
  /-- AMO_XOR_N64 (R295) -/
  | amoXorN64 (d a b c : GReg) (o : BitVec 2)
  /-- AMO_MIN_I32 (R295) -/
  | amoMinI32 (d a b c : GReg) (o : BitVec 2)
  /-- AMO_MIN_I64 (R295) -/
  | amoMinI64 (d a b c : GReg) (o : BitVec 2)
  /-- AMO_MAX_I32 (R295) -/
  | amoMaxI32 (d a b c : GReg) (o : BitVec 2)
  /-- AMO_MAX_I64 (R295) -/
  | amoMaxI64 (d a b c : GReg) (o : BitVec 2)
  /-- AMO_MINU_N32 (R295) -/
  | amoMinuN32 (d a b c : GReg) (o : BitVec 2)
  /-- AMO_MINU_N64 (R295) -/
  | amoMinuN64 (d a b c : GReg) (o : BitVec 2)
  /-- AMO_MAXU_N32 (R295) -/
  | amoMaxuN32 (d a b c : GReg) (o : BitVec 2)
  /-- AMO_MAXU_N64 (R295) -/
  | amoMaxuN64 (d a b c : GReg) (o : BitVec 2)
  /-- AMO_SWAP_N32 (R295) -/
  | amoSwapN32 (d a b c : GReg) (o : BitVec 2)
  /-- AMO_SWAP_N64 (R295) -/
  | amoSwapN64 (d a b c : GReg) (o : BitVec 2)
  /-- AMO_FADD_F32 (R295) -/
  | amoFaddF32 (d a b c : GReg) (o : BitVec 2)
  /-- AMO_FADD_BF16 (R295) -/
  | amoFaddBf16 (d a b c : GReg) (o : BitVec 2)
  /-- PUTREG (R302) -/
  | putreg (a b : GReg) (p : BitVec 5)
  /-- PUTREG_V (R302) -/
  | putregV (a b : GReg) (p : BitVec 5)
  /-- BIND_MBX (R301) -/
  | bindMbx (d : GReg)
  /-- BIND_STR (R301) -/
  | bindStr (d a : GReg)
  /-- UNBIND (R301) -/
  | unbind (d : GReg)
  /-- PGET (R303) -/
  | pget (d : GReg)
  /-- PGET_V (R303) -/
  | pgetV (d : GReg)
  /-- PPEEK (R303) -/
  | ppeek (d : GReg)
  /-- PPEEK_V (R303) -/
  | ppeekV (d : GReg)
  /-- MIGRATE (R304) -/
  | migrate (d a : GReg)
  /-- LWAKE (R305) -/
  | lwake (a : GReg) (z : BitVec 1)
  /-- BARINIT (R311) -/
  | barinit (a b : GReg)
  /-- BARARR (R311) -/
  | bararr (d a b : GReg)
  /-- BARDROP (R311) -/
  | bardrop (d a b : GReg)
  /-- BARWAIT (R312) -/
  | barwait (d a b : GReg)
  /-- BAREXP (R311) -/
  | barexp (a b : GReg)
  /-- EVSIG (R315) -/
  | evsig (a : GReg)
  /-- EVWAIT (R315) -/
  | evwait (d a : GReg)
  /-- EVCLR (R315) -/
  | evclr (a : GReg)
  /-- EVQRY (R315) -/
  | evqry (d a : GReg)
  /-- BRDINIT (R319) -/
  | brdinit (a b : GReg)
  /-- POSTV (R319) -/
  | postv (d a b : GReg) (v : BitVec 2)
  /-- BRDREAD (R319) -/
  | brdread (d a b : GReg) (v : BitVec 2)
  /-- BRDCLR (R319) -/
  | brdclr (a : GReg)
  /-- GANG (R275) -/
  | gang (i : BitVec 12)
  /-- UNGANG (R275) -/
  | ungang
  /-- YIELD (R276) -/
  | yield
  /-- WAIT (R277) -/
  | wait (d a : GReg) (w : BitVec 2)
  /-- TSYNC (R278) -/
  | tsync
  /-- RETIRE (R279) -/
  | retire
  /-- NOP (R278) -/
  | nop
  /-- BRK (R393) -/
  | brk (i : BitVec 12)
  /-- QPUSH (R322) -/
  | qpush (d a : GReg)
  /-- QPOP (R322) -/
  | qpop (d a : GReg)
  /-- SPAWN (R322) -/
  | spawn (d a : GReg) (t : BitVec 1)
  /-- LAUNCH (R324) -/
  | launch (d a : GReg)
  /-- CPLSIG (R325) -/
  | cplsig
  /-- CPLSIG_TASK (R325) -/
  | cplsigTask (a : GReg)
  /-- MWAIT (R362) -/
  | mwait (d a : GReg)
  /-- MSTAT (R362) -/
  | mstat (d a : GReg)
  /-- CSTAT (R372) -/
  | cstat (d a : GReg)
  /-- LVLMAP (R391) -/
  | lvlmap (a : GReg) (l : BitVec 3)
  /-- LVLRUN (R392) -/
  | lvlrun (a b : GReg) (p : BitVec 2) (l : BitVec 3)
  /-- TRAP (R393) -/
  | trap (i : BitVec 12)
  /-- ERET (R394) -/
  | eret
  /-- SRR (R393) -/
  | srr (d : GReg) (i : BitVec 12)
  /-- SRW (R393) -/
  | srw (a : GReg) (i : BitVec 12)
  /-- SRS (R393) -/
  | srs (d a : GReg) (i : BitVec 12)
  /-- SRC (R393) -/
  | src (d a : GReg) (i : BitVec 12)
  /-- PARTSET (R395) -/
  | partset (a : GReg)
  /-- TLBINV (R396) -/
  | tlbinv (a b : GReg) (k : BitVec 2)
  /-- CTXSAVE (R397) -/
  | ctxsave (d a : GReg)
  /-- CTXLOAD (R397) -/
  | ctxload (a : GReg)
  /-- CURVE (R398) -/
  | curve (a : GReg) (c : BitVec 2)
  /-- TSREAD (R399) -/
  | tsread (d : GReg)
  /-- HALT (R400) -/
  | halt
  /-- C_ADD (R213) -/
  | cAdd (d a : GReg)
  /-- C_SUB (R213) -/
  | cSub (d a : GReg)
  /-- C_AND (R213) -/
  | cAnd (d a : GReg)
  /-- C_OR (R213) -/
  | cOr (d a : GReg)
  /-- C_XOR (R213) -/
  | cXor (d a : GReg)
  /-- C_SHL (R213) -/
  | cShl (d a : GReg)
  /-- C_SHR (R213) -/
  | cShr (d a : GReg)
  /-- C_SAR (R213) -/
  | cSar (d a : GReg)
  /-- C_MUL (R213) -/
  | cMul (d a : GReg)
  /-- C_MIN (R213) -/
  | cMin (d a : GReg)
  /-- C_MAX (R213) -/
  | cMax (d a : GReg)
  /-- C_MINU (R213) -/
  | cMinu (d a : GReg)
  /-- C_MAXU (R213) -/
  | cMaxu (d a : GReg)
  /-- C_SLT (R213) -/
  | cSlt (d a : GReg)
  /-- C_MOV (R213) -/
  | cMov (d a : GReg)
  /-- C_ADDI (R213) -/
  | cAddi (d : GReg) (i : BitVec 6)
  /-- C_LI (R213) -/
  | cLi (d : GReg) (i : BitVec 6)
  /-- C_SHLI (R213) -/
  | cShli (d : GReg) (u : BitVec 6)
  /-- C_SHRI (R213) -/
  | cShri (d : GReg) (u : BitVec 6)
  /-- C_SARI (R213) -/
  | cSari (d : GReg) (u : BitVec 6)
  /-- C_ANDI (R213) -/
  | cAndi (d : GReg) (i : BitVec 6)
  /-- C_CADDI (R213) -/
  | cCaddi (d : GReg) (i : BitVec 6)
  /-- C_NOP (R213) -/
  | cNop
  /-- C_RET (R213) -/
  | cRet
  /-- C_YIELD (R213) -/
  | cYield
  /-- C_TSYNC (R213) -/
  | cTsync
  /-- C_RETIRE (R213) -/
  | cRetire
  /-- C_UNGANG (R213) -/
  | cUngang
  /-- C_BRK (R213) -/
  | cBrk (i : BitVec 10)
  /-- LI_W (R265) -/
  | liW (d : GReg) (imm : BitVec 64)
  /-- SAFEPT (R280) -/
  | safept (gm vm : BitVec 32)
  /-- VADD (R332) -/
  | vadd (f : SForm)
  /-- VSUB (R332) -/
  | vsub (f : SForm)
  /-- VMUL (R332) -/
  | vmul (f : SForm)
  /-- VFMA (R332) -/
  | vfma (f : SForm)
  /-- VFMS (R332) -/
  | vfms (f : SForm)
  /-- VFNMA (R332) -/
  | vfnma (f : SForm)
  /-- VDIV (R332) -/
  | vdiv (f : SForm)
  /-- VSQRT (R332) -/
  | vsqrt (f : SForm)
  /-- VMIN (R333) -/
  | vmin (f : SForm)
  /-- VMAX (R333) -/
  | vmax (f : SForm)
  /-- VABS (R333) -/
  | vabs (f : SForm)
  /-- VNEG (R333) -/
  | vneg (f : SForm)
  /-- VCMP (R335) -/
  | vcmp (f : SForm)
  /-- VSEL (R336) -/
  | vsel (f : SForm)
  /-- VAND (R336) -/
  | vand (f : SForm)
  /-- VOR (R336) -/
  | vor (f : SForm)
  /-- VXOR (R336) -/
  | vxor (f : SForm)
  /-- VNOT (R336) -/
  | vnot (f : SForm)
  /-- VSHL (R336) -/
  | vshl (f : SForm)
  /-- VSHR (R336) -/
  | vshr (f : SForm)
  /-- VSAR (R336) -/
  | vsar (f : SForm)
  /-- VIADD (R334) -/
  | viadd (f : SForm)
  /-- VISUB (R334) -/
  | visub (f : SForm)
  /-- VIMUL (R334) -/
  | vimul (f : SForm)
  /-- VCVT (R337) -/
  | vcvt (f : SForm)
  /-- VSCL (R338) -/
  | vscl (f : SForm)
  /-- VPACK (R339) -/
  | vpack (f : SForm)
  /-- VUNPK (R340) -/
  | vunpk (f : SForm)
  /-- VRED (R341) -/
  | vred (f : SForm)
  /-- VSCAN (R341) -/
  | vscan (f : SForm)
  /-- VPERM (R342) -/
  | vperm (f : SForm)
  /-- VBCAST (R342) -/
  | vbcast (f : SForm)
  /-- VBCAST_E (R342) -/
  | vbcastE (f : SForm)
  /-- VMOVG_G (R342) -/
  | vmovgG (f : SForm)
  /-- VMOVG_V (R342) -/
  | vmovgV (f : SForm)
  /-- VIDX (R342) -/
  | vidx (f : SForm)
  /-- VCOMP (R343) -/
  | vcomp (f : SForm)
  /-- VEXPD (R343) -/
  | vexpd (f : SForm)
  /-- VRCP (R344) -/
  | vrcp (f : SForm)
  /-- VRSQ (R344) -/
  | vrsq (f : SForm)
  /-- VEXP2 (R344) -/
  | vexp2 (f : SForm)
  /-- VLOG2 (R344) -/
  | vlog2 (f : SForm)
  /-- VSIN (R344) -/
  | vsin (f : SForm)
  /-- VCOS (R344) -/
  | vcos (f : SForm)
  /-- VTANH (R344) -/
  | vtanh (f : SForm)
  /-- VKEY (R345) -/
  | vkey (f : SForm)
  /-- VHASH (R346) -/
  | vhash (f : SForm)
  /-- VBIN (R347) -/
  | vbin (f : SForm)
  /-- VPAIR (R348) -/
  | vpair (f : SForm)
  /-- LDV (R293) -/
  | ldv (f : SForm)
  /-- STV (R293) -/
  | stv (f : SForm)
  /-- LDVS (R293) -/
  | ldvs (f : SForm)
  /-- STVS (R293) -/
  | stvs (f : SForm)
  /-- LDVX (R293) -/
  | ldvx (f : SForm)
  /-- STVX (R293) -/
  | stvx (f : SForm)
  /-- MMA (R358) -/
  | mma (f : EForm)
  /-- MLD (R360) -/
  | mld (f : EForm)
  /-- MST (R360) -/
  | mst (f : EForm)
  /-- MZERO (R360) -/
  | mzero (f : EForm)
  /-- MSWAP (R361) -/
  | mswap (f : EForm)
  /-- MCVT (R360) -/
  | mcvt (f : EForm)
  /-- SIGRST (R364) -/
  | sigrst (f : EForm)
  /-- SIGADV (R365) -/
  | sigadv (f : EForm)
  /-- SIGJOIN (R366) -/
  | sigjoin (f : EForm)
  /-- SIGLOG (R367) -/
  | siglog (f : EForm)
  /-- SIGLD (R364) -/
  | sigld (f : EForm)
  /-- SIGST (R364) -/
  | sigst (f : EForm)
  /-- CPY (R376) -/
  | cpy (f : EForm)
  /-- CPY_M (R377) -/
  | cpyM (f : EForm)
  /-- CPY_S (R379) -/
  | cpyS (f : EForm)
  /-- CGAT (R380) -/
  | cgat (f : EForm)
  /-- CSCT (R380) -/
  | csct (f : EForm)
  /-- CFILL (R381) -/
  | cfill (f : EForm)
  /-- COLL (R383) -/
  | coll (f : EForm)
  /-- WLOAD (R386) -/
  | wload (f : EForm)
  /-- RESTRICT_FINE (R389) -/
  | restrictFine (f : EForm)
  /-- RESTRICT_COARSE (R389) -/
  | restrictCoarse (f : EForm)
  /-- PROLONG_COARSE (R389) -/
  | prolongCoarse (f : EForm)
  /-- PROLONG_FINE (R389) -/
  | prolongFine (f : EForm)
  /-- LOAD (R104) -/
  | load (src dst : Coord)
  /-- STORE (R104) -/
  | store (src dst : Coord)
  /-- LOADCAP (R104) -/
  | loadcap (src dst : Coord)
  /-- STORECAP (R104) -/
  | storecap (src dst : Coord)
  /-- AMO (R143) -/
  | amo (src dst : Coord)
  /-- CAS (R143) -/
  | cas (src dst : Coord)
  /-- ACTIVE (R299) -/
  | active (src dst : Coord)
  /-- PORTW (R302) -/
  | portw (src dst : Coord)
  /-- DATA (R104) -/
  | dataRpl (src dst : Coord)
  /-- ACK (R104) -/
  | ackRpl (src dst : Coord)
  /-- FAULT (R104) -/
  | faultRpl (src dst : Coord)
  /-- NAK (R284) -/
  | nakRpl (src dst : Coord)
  /-- HREPLY (R298) -/
  | hreply (src dst : Coord)
  /-- MIGACK (R107) -/
  | migack (src dst : Coord)
  /-- WAYFARER (R107) -/
  | wayfarer (src dst : Coord)
  /-- EWRITE (R105) -/
  | ewrite (src dst : Coord)
  /-- EREAD (R101) -/
  | eread (src dst : Coord)
  /-- EDATA (R101) -/
  | edata (src dst : Coord)
  /-- DONE (R122) -/
  | done (src dst : Coord)
  /-- CHUNK (R384) -/
  | chunk (src dst : Coord)
  /-- PROBE (R114) -/
  | probe (src dst : Coord)
  /-- EVENT (R315) -/
  | event (src dst : Coord)
  /-- WAKE (R413) -/
  | wake (src dst : Coord)
  /-- WALK (R437) -/
  | walk (src dst : Coord)
  /-- WALKRPL (R438) -/
  | walkrpl (src dst : Coord)
  /-- SHOOT (R396) -/
  | shoot (src dst : Coord)
  /-- RECORD (R448) -/
  | record (src dst : Coord)
  /-- HANDLER_START (R299) -/
  | handlerStart (c : Coord)
  /-- BUILTIN_ATOMIC_DISPATCH (R117) -/
  | builtinAtomicDispatch (c : Coord)
  /-- MAILBOX_PORTW_DELIVERY (R302) -/
  | mailboxPortwDelivery (c : Coord)
  /-- HELD_DONE_WRITTEN (R123) -/
  | heldDoneWritten (c : Coord)
  /-- QUEUE_BLOCKED_TIMEOUT (R113) -/
  | queueBlockedTimeout (c : Coord) (q : Nat)
  /-- THREAD_SEND_QUEUE_ROOM (R116) -/
  | threadSendQueueRoom (c : Coord) (t : Nat)
  /-- WAIT_DEADLINE (R277) -/
  | waitDeadline (c : Coord) (t : Nat)
  /-- BARWAIT_RETRY (R312) -/
  | barwaitRetry (c : Coord) (t : Nat)
  /-- OVERFLOW_REPLAY (R316) -/
  | overflowReplay (ev : Nat)
  /-- POOL_ARBITRATION (R64) -/
  | poolArbitration (c : Coord)
  /-- POOL_REBUILD_WRITEBACK (R67) -/
  | poolRebuildWriteback (c : Coord) (w : Nat)
  /-- PARTW_CHANGE (R56) -/
  | partwChange (c : Coord)
  /-- TESTER_QUIESCE (R84) -/
  | testerQuiesce (cl : Coord) (bus : Nat) (bad : Bool)
  /-- TESTER_ABORT (R85) -/
  | testerAbort (cl : Coord) (bus : Nat)
  /-- SELF_TEST_COMPLETE (R448) -/
  | selfTestComplete (kind : Nat) (place : Coord) (idx : Nat) (result : TestResult)
  /-- PAGE_MOVE (R88) -/
  | pageMove (job va frame : Nat)
  /-- PAGE_LOCK_RELEASE (R88) -/
  | pageLockRelease (job va : Nat)
  /-- PLANNED_OFFLINE (R91) -/
  | plannedOffline (d : Nat)
  /-- FORCED_OFFLINE (R93) -/
  | forcedOffline (d : Nat) (left : Readable)
  /-- DIE_DRAIN (R414) -/
  | dieDrain (d : Nat)
  /-- DIE_REMAP (R439) -/
  | dieRemap (d phys : Nat)
  /-- ROUTE_RECOMPUTATION (R109) -/
  | routeRecomputation
  /-- ROUTE_TABLE_INSTALL (R109) -/
  | routeTableInstall
  /-- LINK_NARROW (R119) -/
  | linkNarrow (d l : Nat)
  /-- LINK_SLEEP (R119) -/
  | linkSleep (d l : Nat)
  /-- LINK_WAKE_COMPLETE (R119) -/
  | linkWakeComplete (d l : Nat)
  /-- STEAL_REQUEST (R409) -/
  | stealRequest (thief victim : Coord)
  /-- STEAL_RESPONSE (R409) -/
  | stealResponse (thief : Coord)
  /-- STEAL_PORT_TIMEOUT (R118) -/
  | stealPortTimeout (thief victim : Coord)
  /-- HOST_COMMAND (R403) -/
  | hostCommand (q : Nat) (desc : BitVec 1024)
  /-- JOB_ACCEPT (R404) -/
  | jobAccept (q stack : Nat)
  /-- JOB_COMPLETION (R406) -/
  | jobCompletion (job : Nat)
  /-- IDLE_CORE_SEARCH (R408) -/
  | idleCoreSearch (c : Coord)
  /-- IDLE_SEARCH_TIMER (R410) -/
  | idleSearchTimer (c : Coord)
  /-- RECORD_PASS_LIMIT (R408) -/
  | recordPassLimit (cl : Coord)
  /-- TEAM_PLACEMENT (R411) -/
  | teamPlacement (cl : Coord)
  /-- BAND_PLACEMENT (R412) -/
  | bandPlacement (d : Nat)
  /-- BAND_RESERVATION (R412) -/
  | bandReservation (d : Nat)
  /-- PREEMPTION_MARK (R427) -/
  | preemptionMark (c : Coord) (t : Nat)
  /-- FORCED_SAVE (R427) -/
  | forcedSave (c : Coord) (t : Nat)
  /-- UNIT_RESUME (R430) -/
  | unitResume (c : Coord) (n : Nat)
  /-- MATRIX_JOB_START (R354) -/
  | matrixJobStart (cl : Coord)
  /-- MATRIX_JOB_COMPLETE (R354) -/
  | matrixJobComplete (cl : Coord)
  /-- ENGINE_SPLIT_STOP (R356) -/
  | engineSplitStop (cl : Coord) (kind n : Nat)
  /-- PORTER_JOB_START (R373) -/
  | porterJobStart (cl : Coord)
  /-- PORTER_JOB_COMPLETE (R370) -/
  | porterJobComplete (cl : Coord) (n : Nat)
  /-- PARKED_PIECE_REPLAY (R382) -/
  | parkedPieceReplay (cl : Coord)
  /-- STREAM_FIFO_ENTRY (R379) -/
  | streamFifoEntry (cl : Coord) (n : Nat)
  /-- RING_JOB_COMPLETE (R385) -/
  | ringJobComplete (port : Nat)
  /-- STAIR_JOB_START (R390) -/
  | stairJobStart (c : Coord)
  /-- STAIR_JOB_COMPLETE (R390) -/
  | stairJobComplete (c : Coord)
  /-- STAIR_LINK_FAILURE (R424) -/
  | stairLinkFailure (c : Coord)
  /-- PAGE_RESIDENT (R438) -/
  | pageResident (job va frame : Nat) (ok : Bool)
  /-- FABRIC_INBOUND_ACCESS (R443) -/
  | fabricInboundAccess (peer win off : Nat) (op : BitVec 8) (data : BitVec 64)
  /-- WINDOW_WITHDRAW (R444) -/
  | windowWithdraw (imp : Bool) (w : Nat)
  /-- WINDOW_INVALIDATE (R444) -/
  | windowInvalidate (imp : Bool) (w : Nat)
  /-- SECURITY_ALARM (R447) -/
  | securityAlarm (lvl : Nat)
  /-- BRING_UP (R451) -/
  | bringUp
  /-- THERMAL_THROTTLE (R452) -/
  | thermalThrottle (island : Nat)
  /-- THERMAL_SHUTDOWN (R452) -/
  | thermalShutdown
  /-- MCTP_REQUEST (R453) -/
  | mctpRequest (attest : Bool)
  /-- LPQ_REMOVE_HEAD (R127) -/
  | lpqRemoveHead (c : Coord)
  /-- LPQ_CLEAR_CNT (R127) -/
  | lpqClearCnt (c : Coord)
  /-- RUN_CONTROL_RESUME (R232) -/
  | runControlResume (c : Coord)
  /-- MEMORY_REQUEST (R80) -/
  | memoryRequest (job cls : Nat) (places : Places) (pages : PageCount) (frame : Nat)
  /-- PAGE_RELEASE (R90) -/
  | pageRelease (job va : Nat)
  /-- PAGE_NON_RESIDENT (R42) -/
  | pageNonResident (job va : Nat)
  /-- WINDOW_IMPORT (R443) -/
  | windowImport (imp : Bool) (w : Nat) (e : BitVec 128)
  /-- RING_INSTALL (R383) -/
  | ringInstall (port idx job rank size : Nat)
  /-- RING_MEMBER_LOSS (R385) -/
  | ringMemberLoss (port idx : Nat)
  /-- OVERFLOW_QUEUE_EXTEND (R316) -/
  | overflowQueueExtend (ev : Nat)
deriving DecidableEq, Repr

end Sys2Proof
end

