-- ==== Sys2Proof/Machine/Operands.lean ====
section
/-! DEFINITION. Sys2Proof/Machine/Operands.lean: the operand kinds and the encoding conditions of the 80-bit forms (R216-R218, R293, R327-R348, R353-R388), from which decoding, well-formedness and the hazard rules are read. -/

namespace Sys2Proof.Machine

/-- The register kinds a field of an 80-bit form may name (R216). -/
inductive RegKind where
  | v | g | k
deriving DecidableEq, Repr

/-- What a register field of the scheduled form is to the instruction: unused (res0), a source or a
destination of `n` consecutive registers (R208, R216). -/
inductive Field where
  | none
  | src (kind : RegKind) (n : Nat)
  | dst (kind : RegKind) (n : Nat)
deriving DecidableEq, Repr

namespace Field

/-- The field is read as a source. -/
def isSrc : Field → Bool
  | .src _ _ => true
  | _ => false

/-- The field names a single v register as a source, the only place PS may be set (R331). -/
def isVecSrc : Field → Bool
  | .src .v 1 => true
  | _ => false

/-- The field is used at all. -/
def used : Field → Bool
  | .none => false
  | _ => true

end Field

/-- The operand kinds of one scheduled instruction and its own encoding condition. -/
structure SchedSpec where
  vd : Field
  va : Field := .none
  vb : Field := .none
  vc : Field := .none
  /-- the accepted type codes, bit t for code t (R218) -/
  types : Nat
  /-- the PRED field is used -/
  pred : Bool := true
  /-- the MOD value is defined by the instruction -/
  mdOk : Bool
  /-- the FS value is defined by the instruction -/
  fsOk : Bool
deriving DecidableEq, Repr

/-- The instruction writes a register: it is a producer, with a window (R219). -/
def SchedSpec.produces (s : SchedSpec) : Bool := [s.vd, s.va, s.vb, s.vc].any fun x => x.used && !x.isSrc

/-- Element size of a type code in half bytes (F4: 1; CB8 counts as one byte) (R31, R218). -/
def typeHalves (t : Nat) : Nat :=
  match t with
  | 0 => 16 | 1 => 8 | 2 => 4 | 3 => 4 | 4 => 2 | 5 => 2 | 6 => 1 | 7 => 2
  | 8 => 2 | 9 => 2 | 10 => 4 | 11 => 4 | 12 => 8 | 13 => 8 | 14 => 16 | _ => 16

/-- The type code is a floating-point type F64, F32, F16, BF16 (R332). -/
def isFloat4 (t : Nat) : Bool := t < 4

/-- F8A, F8B or F4. -/
def isNarrowFloat (t : Nat) : Bool := 4 ≤ t && t ≤ 6

/-- I8 to N64. -/
def isIntType (t : Nat) : Bool := 8 ≤ t && t < 16

/-- A signed integer type I8, I16, I32, I64. -/
def isSignedType (t : Nat) : Bool := 8 ≤ t && t % 2 == 0

namespace TypeSet

/-- F64, F32, F16, BF16. -/
def float4 : Nat := 0x000F
/-- I8 to N64. -/
def ints : Nat := 0xFF00
/-- every type but CB8. -/
def allButCb8 : Nat := 0xFF7F

end TypeSet

/-- R337: the type pair of VCVT, its curve fields and its part number. -/
def convertOk (dst src fs : Nat) (pairOk : Bool) : Bool :=
  let ce := fs / 65536 % 2 == 1
  let ie := fs / 32768 % 2 == 1
  let c := fs / 8192 % 4
  let part := fs % 16
  let wide := max (typeHalves dst) (typeHalves src)
  let narrow := min (typeHalves dst) (typeHalves src)
  pairOk && !(ce && ie) &&
  (!ce || (isNarrowFloat dst && src ≤ 6)) &&
  (!ie || (isNarrowFloat src && dst ≤ 6)) &&
  (ce || ie || c == 0) && part < wide / narrow

/-- The pairs VCVT converts: two distinct types, neither CB8 (R337). -/
def vcvtPair (dst src : Nat) : Bool := dst != src && dst != 7 && src != 7

/-- The pairs VSCL converts: F64, F32, F16, BF16 with F8A, F8B, F4, either way (R338). -/
def vsclPair (dst src : Nat) : Bool :=
  (isFloat4 dst && isNarrowFloat src) || (isNarrowFloat dst && isFloat4 src)

/-- R345: the neighbour index names no offset on an axis at or beyond dim. -/
def vkeyIndexOk (dim o : Nat) : Bool :=
  o ≤ 26 && (dim > 1 || o / 3 % 3 == 1) && (dim > 2 || o / 9 == 1)

/-- Three-operand vector sources and a vector destination. -/
def spec3 (types : Nat) (mdOk fsOk : Bool) : SchedSpec :=
  { vd := .dst .v 1, va := .src .v 1, vb := .src .v 1, types, mdOk, fsOk }

/-- One vector source and a vector destination. -/
def spec2 (types : Nat) (mdOk fsOk : Bool) : SchedSpec :=
  { vd := .dst .v 1, va := .src .v 1, types, mdOk, fsOk }

/-- Three vector sources (fused multiply-add) and a vector destination. -/
def spec4 (types : Nat) (mdOk fsOk : Bool) : SchedSpec :=
  { vd := .dst .v 1, va := .src .v 1, vb := .src .v 1, vc := .src .v 1, types, mdOk, fsOk }

/-- The shifts of R336, with a register count or an immediate one. -/
def specShift (f : SForm) : SchedSpec :=
  if f.md = 1 then
    { vd := .dst .v 1, va := .src .v 1, types := TypeSet.ints, mdOk := true
      fsOk := f.fs.toNat < 4 * typeHalves f.t.toNat && f.fs.toNat < 64 }
  else spec3 TypeSet.ints (f.md == 0) (f.fs == 0)

/-- The reductions of R341. -/
def specReduce (f : SForm) : SchedSpec :=
  spec2 (TypeSet.float4 + TypeSet.ints)
    (f.md.toNat < 3 || (f.md.toNat < 6 && isIntType f.t.toNat)) (f.fs == 0)

/-- The special functions of R344. -/
def specSpecial (f : SForm) : SchedSpec := spec2 0x000E (f.md == 0) (f.fs == 0)

/-- Operand kinds of a vector access (R293). -/
def specAccess (vd vb vc : Field) (types : Nat) (f : SForm) : SchedSpec :=
  { vd, va := .src .g 1, vb, vc, types, mdOk := f.md == 0, fsOk := true }

/-- The types of the strided accesses: sizes 1, 2, 4 and 8 bytes (R293). -/
def stridedTypes : Nat := 0xFF3F

/-- The types of gather and scatter: F64, F32, I32, N32, I64, N64 (R293). -/
def gatherTypes : Nat := 0xF003

/-- The six vector accesses (R293). -/
def specLdv (f : SForm) : SchedSpec := specAccess (.dst .v 1) (.src .g 1) .none TypeSet.allButCb8 f
def specStv (f : SForm) : SchedSpec := specAccess (.src .v 1) (.src .g 1) .none TypeSet.allButCb8 f
def specLdvs (f : SForm) : SchedSpec := specAccess (.dst .v 1) (.src .g 1) (.src .g 1) stridedTypes f
def specStvs (f : SForm) : SchedSpec := specAccess (.src .v 1) (.src .g 1) (.src .g 1) stridedTypes f
def specLdvx (f : SForm) : SchedSpec := specAccess (.dst .v 1) (.src .v 1) (.src .g 1) gatherTypes f
def specStvx (f : SForm) : SchedSpec := specAccess (.src .v 1) (.src .v 1) (.src .g 1) gatherTypes f

/-- VPAIR (R348). -/
def specPair (f : SForm) : SchedSpec :=
  { vd := .dst .k 1, va := .src .v 4, vb := .src .v 4, vc := .src .g 1, types := 0x0002
    mdOk := f.md.toNat < 8 && f.md.toNat % 4 != 0, fsOk := f.fs == 0 }

/-- The operand kinds and encoding conditions of a scheduled instruction; `none` for every other
constructor. -/
def schedSpec : Instr → Option (SForm × SchedSpec)
  | .vadd f => some (f, spec3 TypeSet.float4 (f.md == 0) (f.fs == 0))
  | .vsub f => some (f, spec3 TypeSet.float4 (f.md == 0) (f.fs == 0))
  | .vmul f => some (f, spec3 TypeSet.float4 (f.md == 0) (f.fs == 0))
  | .vfma f => some (f, spec4 TypeSet.float4 (f.md == 0) (f.fs == 0))
  | .vfms f => some (f, spec4 TypeSet.float4 (f.md == 0) (f.fs == 0))
  | .vfnma f => some (f, spec4 TypeSet.float4 (f.md == 0) (f.fs == 0))
  | .vdiv f => some (f, spec3 TypeSet.float4 (f.md == 0) (f.fs == 0))
  | .vsqrt f => some (f, spec2 TypeSet.float4 (f.md == 0) (f.fs == 0))
  | .vmin f => some (f, spec3 (TypeSet.float4 + TypeSet.ints) (f.md == 0) (f.fs == 0))
  | .vmax f => some (f, spec3 (TypeSet.float4 + TypeSet.ints) (f.md == 0) (f.fs == 0))
  | .vabs f => some (f, spec2 0x550F (f.md == 0) (f.fs == 0))
  | .vneg f => some (f, spec2 0x550F (f.md == 0) (f.fs == 0))
  | .vcmp f => some (f, { vd := .dst .k 1, va := .src .v 1, vb := .src .v 1, types := 0xF003, mdOk := f.md.toNat < (if isFloat4 f.t.toNat then 8 else 6), fsOk := f.fs == 0 })
  | .vsel f => some (f, { vd := .dst .v 1, va := .src .v 1, vb := .src .v 1, vc := .src .k 1, types := TypeSet.allButCb8, mdOk := f.md == 0, fsOk := f.fs == 0 })
  | .vand f => some (f, spec3 TypeSet.allButCb8 (f.md == 0) (f.fs == 0))
  | .vor f => some (f, spec3 TypeSet.allButCb8 (f.md == 0) (f.fs == 0))
  | .vxor f => some (f, spec3 TypeSet.allButCb8 (f.md == 0) (f.fs == 0))
  | .vnot f => some (f, spec2 TypeSet.allButCb8 (f.md == 0) (f.fs == 0))
  | .vshl f => some (f, specShift f)
  | .vshr f => some (f, specShift f)
  | .vsar f => some (f, specShift f)
  | .viadd f => some (f, spec3 TypeSet.ints (f.md.toNat < 2) (f.fs == 0))
  | .visub f => some (f, spec3 TypeSet.ints (f.md.toNat < 2) (f.fs == 0))
  | .vimul f => some (f, spec3 TypeSet.ints (f.md.toNat < 3) (f.fs == 0))
  | .vcvt f => some (f, spec2 TypeSet.allButCb8 (convertOk f.t.toNat f.md.toNat f.fs.toNat (vcvtPair f.t.toNat f.md.toNat)) (f.fs.toNat / 16 % 512 == 0))
  | .vscl f => some (f, { vd := .dst .v 1, va := .src .v 1, vb := if f.fs.toNat / 128 % 2 == 1 then .src .v 1 else .dst .v 1, types := 0x007F, mdOk := convertOk f.t.toNat f.md.toNat f.fs.toNat (vsclPair f.t.toNat f.md.toNat), fsOk := f.fs.toNat / 256 % 32 == 0 })
  | .vpack f => some (f, { vd := .dst .v 2, va := .src .v 2, vc := .dst .g 1, types := 0x0080, pred := false, mdOk := f.md == 4, fsOk := f.fs == 0 })
  | .vunpk f => some (f, { vd := .dst .v 2, va := .src .g 1, vb := .src .g 1, vc := .src .g 1, types := 0x0010, pred := false, mdOk := f.md == 7, fsOk := f.fs == 0 })
  | .vred f => some (f, specReduce f)
  | .vscan f => some (f, specReduce f)
  | .vperm f => some (f, spec3 TypeSet.allButCb8 (f.md.toNat < 2) (f.fs == 0))
  | .vbcast f => some (f, { vd := .dst .v 1, va := .src .g 1, types := TypeSet.allButCb8, mdOk := f.md == 0, fsOk := f.fs == 0 })
  | .vbcastE f => some (f, { vd := .dst .v 1, va := .src .v 1, types := TypeSet.allButCb8, mdOk := f.md == 1, fsOk := f.fs.toNat < 512 })
  | .vmovgG f => some (f, { vd := .dst .g 1, va := .src .v 1, types := 0xFF3F, pred := false, mdOk := f.md == 0, fsOk := f.fs.toNat < 512 })
  | .vmovgV f => some (f, { vd := .dst .v 1, va := .src .g 1, types := 0xFF3F, mdOk := f.md == 1, fsOk := f.fs.toNat < 512 })
  | .vidx f => some (f, { vd := .dst .v 1, types := TypeSet.ints, mdOk := f.md == 0, fsOk := true })
  | .vcomp f => some (f, { vd := .dst .v 1, va := .src .v 1, vb := .src .k 1, vc := .dst .g 1, types := TypeSet.allButCb8, mdOk := f.md == 0, fsOk := f.fs == 0 })
  | .vexpd f => some (f, { vd := .dst .v 1, va := .src .v 1, vb := .src .k 1, types := TypeSet.allButCb8, mdOk := f.md == 0, fsOk := f.fs == 0 })
  | .vrcp f => some (f, specSpecial f)
  | .vrsq f => some (f, specSpecial f)
  | .vexp2 f => some (f, specSpecial f)
  | .vlog2 f => some (f, specSpecial f)
  | .vsin f => some (f, specSpecial f)
  | .vcos f => some (f, specSpecial f)
  | .vtanh f => some (f, specSpecial f)
  | .vkey f => some (f, { vd := .dst .v 1, va := .src .v 4, vb := .src .v 1, types := 0x2000, mdOk := f.md.toNat < 8 && f.md.toNat % 4 != 0, fsOk := f.fs.toNat < 32 && vkeyIndexOk (f.md.toNat % 4) f.fs.toNat })
  | .vhash f => some (f, { vd := .dst .v 1, va := .src .v 1, types := 0x2000, mdOk := f.md == 0, fsOk := 1 ≤ f.fs.toNat && f.fs.toNat < 32 })
  | .vbin f => some (f, { vd := .dst .v 1, va := .src .v 1, vc := .dst .k 1, types := 0x2000, mdOk := f.md == 0, fsOk := f.fs == 0 })
  | .vpair f => some (f, specPair f)
  | .ldv f => some (f, specLdv f)
  | .stv f => some (f, specStv f)
  | .ldvs f => some (f, specLdvs f)
  | .stvs f => some (f, specStvs f)
  | .ldvx f => some (f, specLdvx f)
  | .stvx f => some (f, specStvx f)
  | _ => none

/-- Which fields an engine command uses, the types and split granules it accepts, and its ES condition
(R353, R357, R360, R364, R371, R375-R388). -/
structure EngineSpec where
  ga : Bool := false
  gb : Bool := false
  gc : Bool := false
  gd : Bool := false
  /-- accepted type codes, bit t for code t -/
  types : Nat
  /-- a nonzero SG is permitted (R353, R371) -/
  sg : Bool := false
  esOk : Bool
deriving DecidableEq, Repr

/-- Bits [hi:lo] of the engine-specific field. -/
def esBits (f : EForm) (hi lo : Nat) : Nat := f.es.toNat / 2 ^ lo % 2 ^ (hi + 1 - lo)

/-- A level-side stair command (R388). -/
def specStair (f : EForm) : EngineSpec :=
  { ga := true, gb := true, types := 2, sg := true, esOk := esBits f 24 0 == 0 }

/-- MMA (R357): a register operand leaves its shape field reserved, and a curve is named only for F8A, F8B or F4. -/
def specMma (f : EForm) : EngineSpec :=
  { ga := true, gb := esBits f 7 7 == 0, gc := true, gd := esBits f 6 6 == 0, types := 0x00FE, sg := true
    esOk := (esBits f 5 5 == 0 || isNarrowFloat f.t.toNat) && (esBits f 4 4 == 0 || isNarrowFloat f.t.toNat) &&
      (esBits f 5 5 == 1 || esBits f 3 2 == 0) && (esBits f 4 4 == 1 || esBits f 1 0 == 0) }

/-- MLD and MST (R360). -/
def specTile (f : EForm) : EngineSpec := { ga := true, gb := true, types := 2, esOk := esBits f 13 0 == 0 }

/-- MZERO, MSWAP and MCVT (R360, R361). -/
def specMzero (f : EForm) : EngineSpec := { types := 2, esOk := esBits f 19 0 == 0 }
def specMswap (f : EForm) : EngineSpec := { types := 1, esOk := f.es == 0 }
def specMcvt (f : EForm) : EngineSpec :=
  { ga := true, gb := true, types := 0x007C, esOk := esBits f 2 0 == 0 && (esBits f 13 13 == 1 || esBits f 12 11 == 0) }

/-- The signature commands (R364). -/
def specSigrst (f : EForm) : EngineSpec := { types := 2, esOk := esBits f 25 0 == 0 }
def specSigadv (f : EForm) : EngineSpec :=
  { ga := true, gb := true, gc := true, types := 2, sg := true, esOk := esBits f 25 0 == 0 }
def specSigPair (f : EForm) : EngineSpec := { types := 2, esOk := esBits f 19 0 == 0 }
def specSigMove (f : EForm) : EngineSpec := { ga := true, gb := true, types := 2, esOk := esBits f 25 0 == 0 }

/-- The porter's commands (R375, R380, R381). -/
def specCpy (f : EForm) : EngineSpec :=
  { ga := true, gb := true, gc := true, gd := true, types := 1, sg := true, esOk := esBits f 8 0 == 0 }
def specCpyS (f : EForm) : EngineSpec := { specCpy f with gd := false }
def specGather (f : EForm) : EngineSpec :=
  { ga := true, gb := true, gc := true, gd := esBits f 3 3 == 1, types := 1, esOk := esBits f 2 0 == 0 }
def specFill (f : EForm) : EngineSpec :=
  { ga := true, gb := true, gc := true, types := 1, sg := true, esOk := esBits f 11 0 == 0 }

/-- COLL and WLOAD (R383, R386). -/
def specColl (f : EForm) : EngineSpec :=
  { ga := true, gb := true, gc := true, gd := true, types := 0x001A, sg := true, esOk := esBits f 21 0 == 0 }
def specWload (f : EForm) : EngineSpec := { ga := true, types := 2, esOk := esBits f 31 2 == 0 }

/-- The engine-form operand kinds; `none` for every other constructor. -/
def engineSpec : Instr → Option (EForm × EngineSpec)
  | .mma f => some (f, specMma f)
  | .mld f => some (f, specTile f)
  | .mst f => some (f, specTile f)
  | .mzero f => some (f, specMzero f)
  | .mswap f => some (f, specMswap f)
  | .mcvt f => some (f, specMcvt f)
  | .sigrst f => some (f, specSigrst f)
  | .sigadv f => some (f, specSigadv f)
  | .sigjoin f => some (f, specSigPair f)
  | .siglog f => some (f, specSigPair f)
  | .sigld f => some (f, specSigMove f)
  | .sigst f => some (f, specSigMove f)
  | .cpy f => some (f, specCpy f)
  | .cpyM f => some (f, specCpy f)
  | .cpyS f => some (f, specCpyS f)
  | .cgat f => some (f, specGather f)
  | .csct f => some (f, specGather f)
  | .cfill f => some (f, specFill f)
  | .coll f => some (f, specColl f)
  | .wload f => some (f, specWload f)
  | .restrictFine f => some (f, specStair f)
  | .restrictCoarse f => some (f, specStair f)
  | .prolongCoarse f => some (f, specStair f)
  | .prolongFine f => some (f, specStair f)
  | _ => none

/-- STR of CPY (R375). -/
def cpyStr (f : EForm) : Bool := esBits f 9 9 == 1

/-- MC of CPY (R375). -/
def cpyMc (f : EForm) : Bool := esBits f 11 11 == 1

/-- SIDE of RESTRICT and PROLONG (R388): set for the coarse side. -/
def stairSide (f : EForm) : Bool := esBits f 28 28 == 1

/-- Why a bit pattern is no instruction (R211, R213, R224). -/
inductive Reject where
  /-- too few bytes for the length that parcel 0 gives -/
  | truncated
  /-- the parcel 0x0000 -/
  | zeroParcel
  /-- an unassigned compact operation -/
  | compactUnassigned
  /-- an unassigned major -/
  | majorUnassigned
  /-- an unassigned 80-bit operation number or opcode -/
  | opcUnassigned
  /-- a type code that the instruction does not accept -/
  | badType
  /-- a function, MOD, FS or ES value that the instruction does not define -/
  | badFunction
  /-- a nonzero reserved field -/
  | reserved
  /-- PS set where it is not allowed -/
  | portSelect
deriving DecidableEq, Repr

/-- A field the instruction does not use is zero (R216). -/
def unusedZero (u : Field) (x : BitVec 5) : Bool := u.used || x == 0

/-- Bit `n` of `x` may be set only under `ok`. -/
def bitOnlyIf {w : Nat} (x : BitVec w) (n : Nat) (ok : Bool) : Bool := ok || !x.getLsbD n

/-- The first field of a scheduled form that check 1 of R224 refuses. LA and PK are no fields of an instruction that writes no
register, nor a KEEP bit of a field that is no source (R216, log 17). -/
def illSched (f : SForm) (s : SchedSpec) : Option Reject :=
  if !s.types.testBit f.t.toNat then some .badType
  else if !(s.mdOk && s.fsOk) then some .badFunction
  else if !(unusedZero s.vd f.vd && unusedZero s.va f.va && unusedZero s.vb f.vb && unusedZero s.vc f.vc
      && (s.pred || f.pred == 0)) then some .reserved
  else if !(s.produces || (f.la == 0 && f.pk == 0)) then some .reserved
  else if !(bitOnlyIf f.keep 2 s.va.isSrc && bitOnlyIf f.keep 1 s.vb.isSrc && bitOnlyIf f.keep 0 s.vc.isSrc) then some .reserved
  else if !(bitOnlyIf f.fr 3 s.vd.isSrc && bitOnlyIf f.fr 2 s.va.isSrc && bitOnlyIf f.fr 1 s.vb.isSrc
      && bitOnlyIf f.fr 0 s.vc.isSrc) then some .reserved
  else if !(bitOnlyIf f.ps 2 s.va.isVecSrc && bitOnlyIf f.ps 1 s.vb.isVecSrc && bitOnlyIf f.ps 0 s.vc.isVecSrc) then
    some .portSelect
  else none

/-- The first field of an engine form that check 1 of R224 refuses. -/
def illEngine (f : EForm) (s : EngineSpec) : Option Reject :=
  if !s.types.testBit f.t.toNat then some .badType
  else if !s.esOk then some .badFunction
  else if !((s.ga || f.ga == 0) && (s.gb || f.gb == 0) && (s.gc || f.gc == 0) && (s.gd || f.gd == 0)
      && (s.sg || f.sg == 0)) then some .reserved
  else none

/-- An ordering field of 0 leaves the scope field reserved (R295). -/
def illOrder (c : GReg) (o : BitVec 2) : Option Reject := if o == 0 && c != 0 then some .reserved else none

/-- The conditions of an instruction on its own operands that make it no instruction (R224, check 1); the reserved
fields of the shorter forms are checked where the word is taken apart. -/
def illForm (i : Instr) : Option Reject :=
  match schedSpec i, engineSpec i with
  | some (f, s), _ => illSched f s
  | none, some (f, s) => illEngine f s
  | none, none =>
    match i with
    | .pref h _ _ => if h.toNat ≤ 2 then none else some .badFunction
    | .hret _ _ m => if m.toNat ≤ 8 then none else some .badFunction
    | .fence _ o => if o == 0 then some .badFunction else none
    | .tlbinv _ _ k => if k == 3 then some .badFunction else none
    | .casN32 _ _ _ c o => illOrder c o
    | .casN64 _ _ _ c o => illOrder c o
    | .amoAddN32 _ _ _ c o => illOrder c o
    | .amoAddN64 _ _ _ c o => illOrder c o
    | .amoAndN32 _ _ _ c o => illOrder c o
    | .amoAndN64 _ _ _ c o => illOrder c o
    | .amoOrN32 _ _ _ c o => illOrder c o
    | .amoOrN64 _ _ _ c o => illOrder c o
    | .amoXorN32 _ _ _ c o => illOrder c o
    | .amoXorN64 _ _ _ c o => illOrder c o
    | .amoMinI32 _ _ _ c o => illOrder c o
    | .amoMinI64 _ _ _ c o => illOrder c o
    | .amoMaxI32 _ _ _ c o => illOrder c o
    | .amoMaxI64 _ _ _ c o => illOrder c o
    | .amoMinuN32 _ _ _ c o => illOrder c o
    | .amoMinuN64 _ _ _ c o => illOrder c o
    | .amoMaxuN32 _ _ _ c o => illOrder c o
    | .amoMaxuN64 _ _ _ c o => illOrder c o
    | .amoSwapN32 _ _ _ c o => illOrder c o
    | .amoSwapN64 _ _ _ c o => illOrder c o
    | .amoFaddF32 _ _ _ c o => illOrder c o
    | .amoFaddBf16 _ _ _ c o => illOrder c o
    | _ => none

end Sys2Proof.Machine
end

