-- ==== Sys2Proof/Machine/Fp.lean ====
section
/-! DEFINITION. Sys2Proof/Machine/Fp.lean: the number formats, exact values, and rounding (R234-R244, R246, R247, R332). A finite value is held exactly, as sign, magnitude and power of two; a quotient, a root or a transcendental value is held with a sticky last bit, which rounds as the exact value does. -/

namespace Sys2Proof.Machine

/-- FPSTAT flags (R231). -/
def fNX : Nat := 1
def fUF : Nat := 2
def fOF : Nat := 4
def fDZ : Nat := 8
def fNV : Nat := 16
def fSAT : Nat := 32

/-- An exact value: a NaN, signalling or quiet; an infinity; or ±man × 2^exp (R235, R236). -/
inductive Num where
  | nan (signalling : Bool)
  | inf (neg : Bool)
  | fin (neg : Bool) (man : Nat) (exp : Int)
deriving DecidableEq, Repr

/-- A floating-point format (R234): bits, mantissa bits, bias, and whether the top exponent is reserved. -/
structure Format where
  width : Nat
  mant : Nat
  bias : Nat
  ieee : Bool
deriving DecidableEq, Repr

/-- The format of a type code 0-6 (R218, R234). -/
def formatOf (t : Nat) : Format :=
  match t with
  | 0 => ⟨64, 52, 1023, true⟩
  | 1 => ⟨32, 23, 127, true⟩
  | 2 => ⟨16, 10, 15, true⟩
  | 3 => ⟨16, 7, 127, true⟩
  | 4 => ⟨8, 3, 7, false⟩
  | 5 => ⟨8, 2, 15, true⟩
  | _ => ⟨4, 1, 1, false⟩

/-- Bits of an element of a type code (R218). -/
def typeBits (t : Nat) : Nat := 4 * typeHalves t

/-- The exponent of the smallest subnormal. -/
def Format.emin (f : Format) : Int := 1 - f.bias - f.mant

/-- The code of infinity (without sign), one above the largest finite code of an IEEE-like format. -/
def Format.infCode (f : Format) : Nat := 2 ^ (f.width - 1) - 2 ^ f.mant

/-- The code of the largest finite value (R234). -/
def Format.maxCode (f : Format) : Nat := if f.ieee then f.infCode - 1 else 2 ^ (f.width - 1) - 1

/-- The canonical NaN (R236); F4 has none and gives +0 (R241). -/
def canonicalNaN (t : Nat) : Nat :=
  match t with
  | 0 => 0x7FF8000000000000 | 1 => 0x7FC00000 | 2 => 0x7E00 | 3 => 0x7FC0 | 4 => 0x80 | 5 => 0x7E | _ => 0

/-- The value of a code (R235). -/
def decodeNum (t x : Nat) : Num :=
  let f := formatOf t
  let neg := bit x (f.width - 1)
  let mag := x % 2 ^ (f.width - 1)
  let e := mag / 2 ^ f.mant
  let m := mag % 2 ^ f.mant
  if t = 4 ∧ x % 256 = 0x80 then .nan false
  else if f.ieee && f.infCode ≤ mag then (if m = 0 then .inf neg else .nan (!bit m (f.mant - 1)))
  else if e = 0 then .fin neg m f.emin
  else .fin neg (2 ^ f.mant + m) (f.emin + (e - 1 : Nat))

/-- A sign and a magnitude code; F8A has one zero (R235). -/
def signed_ (f : Format) (neg : Bool) (code : Nat) : Nat :=
  if neg && !(code == 0 && f.width == 8 && !f.ieee) then 2 ^ (f.width - 1) + code else code

/-- The grid point below or at man × 2^exp, the rest being lost: quotient, exponent, whether anything is lost, and
how the loss compares with half a unit. -/
def toGrid (f : Format) (man : Nat) (exp : Int) : Nat × Int × Bool × Ordering :=
  let e := max (exp + (bitLength man : Int) - (f.mant + 1 : Nat)) f.emin
  if e ≤ exp then (man * 2 ^ (exp - e).toNat, e, false, .lt)
  else
    let d := (e - exp).toNat
    let r := man % 2 ^ d
    (man / 2 ^ d, e, r != 0, compare (2 * r) (2 ^ d))

/-- Whether the magnitude is rounded away from zero: mode 0 RNE, 1 RZ, 2 RU, 3 RD (R231, R240). -/
def roundsUp (rm : Nat) (neg : Bool) (q : Nat) (lost : Bool) (half : Ordering) : Bool :=
  match rm with
  | 0 => lost && (half == .gt || (half == .eq && q % 2 == 1))
  | 1 => false
  | 2 => lost && !neg
  | _ => lost && neg

/-- |x| < MinNormal for a nonzero x (R241). -/
def tiny (f : Format) (man : Nat) (exp : Int) : Bool := man != 0 && exp + (bitLength man : Int) ≤ 1 - (f.bias : Int)

/-- The code of the grid point q × 2^e. -/
def gridCode (f : Format) (q : Nat) (e : Int) : Nat := if q = 0 then 0 else (e - f.emin).toNat * 2 ^ f.mant + q

/-- Rounding in a mode as IEEE 754 does, with infinities on overflow (R240, R254): the code and the flags. -/
def roundIeee (t rm : Nat) (x : Num) : Nat × Nat :=
  let f := formatOf t
  match x with
  | .nan _ => (canonicalNaN t, 0)
  | .inf neg => (signed_ f neg f.infCode, 0)
  | .fin neg man exp =>
    let (q, e, lost, half) := toGrid f man exp
    let up := roundsUp rm neg q lost half
    let code := gridCode f (if up then q + 1 else q) e
    if f.infCode ≤ code then
      let away := rm == 0 || (rm == 2 && !neg) || (rm == 3 && neg)
      (signed_ f neg (if away then f.infCode else f.infCode - 1), fOF + fNX)
    else
      (signed_ f neg code, if lost then fNX + (if tiny f man exp then fUF else 0) else 0)

/-- RoundNE (R241): narrowing with saturation, whatever FPCTL holds. -/
def roundNE (t : Nat) (x : Num) : Nat × Nat :=
  let f := formatOf t
  match x with
  | .nan s => if t = 6 then (0, fNV) else (canonicalNaN t, if s then fNV else 0)
  | .inf neg => (signed_ f neg f.maxCode, fSAT + fNX)
  | .fin neg man exp =>
    let (q, e, lost, half) := toGrid f man exp
    let code := gridCode f (if roundsUp 0 neg q lost half then q + 1 else q) e
    if f.maxCode < code then (signed_ f neg f.maxCode, fSAT + fNX)
    else (signed_ f neg code, if lost then fNX + (if tiny f man exp then fUF else 0) else 0)

/-- Flags of two steps put together. -/
def orFlags (a b : Nat) : Nat := a ||| b

/-- An exact signed integer times a power of two; a zero takes the given sign. -/
def Num.ofInt (i : Int) (exp : Int) (zeroNeg : Bool) : Num :=
  if i = 0 then .fin zeroNeg 0 exp else .fin (i < 0) i.natAbs exp

/-- The signed mantissa of a finite value at a smaller exponent. -/
def scaled (neg : Bool) (man : Nat) (exp e : Int) : Int :=
  let m : Int := (man * 2 ^ (exp - e).toNat : Nat)
  if neg then -m else m

/-- Exact addition of IEEE 754: value and flags; an exact zero of opposite signs is -0 only toward -∞. -/
def Num.add (rm : Nat) (a b : Num) : Num × Nat :=
  match a, b with
  | .nan s, .nan u => (.nan false, if s || u then fNV else 0)
  | .nan s, _ => (.nan false, if s then fNV else 0)
  | _, .nan s => (.nan false, if s then fNV else 0)
  | .inf n, .inf m => if n == m then (.inf n, 0) else (.nan false, fNV)
  | .inf n, _ => (.inf n, 0)
  | _, .inf n => (.inf n, 0)
  | .fin n m e, .fin n' m' e' =>
    let e0 := min e e'
    let sameZero := m == 0 && m' == 0 && n == n'
    (Num.ofInt (scaled n m e e0 + scaled n' m' e' e0) e0 (if sameZero then n else rm == 3), 0)

def Num.neg : Num → Num
  | .nan s => .nan s
  | .inf n => .inf (!n)
  | .fin n m e => .fin (!n) m e

/-- The magnitude. -/
def Num.abs : Num → Num
  | .nan s => .nan s
  | .inf _ => .inf false
  | .fin _ m e => .fin false m e

/-- The value times a power of two, exact. -/
def Num.scale (x : Num) (k : Int) : Num :=
  match x with
  | .fin n m e => .fin n m (e + k)
  | y => y

/-- Exact multiplication of IEEE 754. -/
def Num.mul (a b : Num) : Num × Nat :=
  match a, b with
  | .nan s, .nan u => (.nan false, if s || u then fNV else 0)
  | .nan s, _ => (.nan false, if s then fNV else 0)
  | _, .nan s => (.nan false, if s then fNV else 0)
  | .inf n, .inf m => (.inf (n != m), 0)
  | .inf n, .fin m x _ => if x = 0 then (.nan false, fNV) else (.inf (n != m), 0)
  | .fin m x _, .inf n => if x = 0 then (.nan false, fNV) else (.inf (n != m), 0)
  | .fin n m e, .fin n' m' e' => (.fin (n != n') (m * m') (e + e'), 0)

/-- Exact a × b + c of IEEE 754. -/
def Num.fma (rm : Nat) (a b c : Num) : Num × Nat :=
  let (p, f) := a.mul b
  let (r, f') := p.add rm c
  (r, orFlags f f')

/-- Bits of precision that quotients and roots are taken to before the sticky bit: more than any format holds. -/
def stickyBits : Nat := 80

/-- A quotient of IEEE 754, with a sticky last bit. -/
def Num.div (a b : Num) : Num × Nat :=
  match a, b with
  | .nan s, .nan u => (.nan false, if s || u then fNV else 0)
  | .nan s, _ => (.nan false, if s then fNV else 0)
  | _, .nan s => (.nan false, if s then fNV else 0)
  | .inf _, .inf _ => (.nan false, fNV)
  | .inf n, .fin m _ _ => (.inf (n != m), 0)
  | .fin n _ e, .inf m => (.fin (n != m) 0 e, 0)
  | .fin n m e, .fin n' m' e' =>
    if m' = 0 then (if m = 0 then (.nan false, fNV) else (.inf (n != n'), fDZ))
    else
      let k := stickyBits + bitLength m'
      let q := m * 2 ^ k / m'
      let r := m * 2 ^ k % m'
      (.fin (n != n') (2 * q + (if r = 0 then 0 else 1)) (e - e' - k - 1), 0)

/-- ⌊√x⌋, bit by bit from the top. -/
def isqrtFrom (x : Nat) : Nat → Nat → Nat
  | 0, r => r
  | n + 1, r =>
    let t := r + 2 ^ n
    isqrtFrom x n (if t * t ≤ x then t else r)

def isqrt (x : Nat) : Nat := isqrtFrom x (bitLength x / 2 + 1) 0

/-- A square root of IEEE 754, with a sticky last bit. -/
def Num.sqrt (a : Num) : Num × Nat :=
  match a with
  | .nan s => (.nan false, if s then fNV else 0)
  | .inf n => if n then (.nan false, fNV) else (.inf false, 0)
  | .fin n m e =>
    if m = 0 then (.fin n 0 e, 0)
    else if n then (.nan false, fNV)
    else
      let k := 2 * stickyBits + (if e % 2 = 0 then 0 else 1)
      let x := m * 2 ^ k
      let q := isqrt x
      (.fin false (2 * q + (if q * q = x then 0 else 1)) ((e - k) / 2 - 1), 0)

/-- A value with its flags rounded in a mode. -/
def finish (t rm : Nat) (x : Num × Nat) : Nat × Nat :=
  let (c, f) := roundIeee t rm x.1
  (c, orFlags x.2 f)

/-- Arithmetic on codes of one format. -/
def fpAdd (t rm a b : Nat) : Nat × Nat := finish t rm ((decodeNum t a).add rm (decodeNum t b))
def fpMul (t rm a b : Nat) : Nat × Nat := finish t rm ((decodeNum t a).mul (decodeNum t b))
def fpFma (t rm a b c : Nat) : Nat × Nat := finish t rm (Num.fma rm (decodeNum t a) (decodeNum t b) (decodeNum t c))

/-- The IEEE 754 binary32 steps of the engines: round to nearest even, whatever FPCTL holds (R363, R389). -/
def add32 (a b : Nat) : Nat × Nat := fpAdd 1 0 a b
def mul32 (a b : Nat) : Nat × Nat := fpMul 1 0 a b
def fma32 (a b c : Nat) : Nat × Nat := fpFma 1 0 a b c

/-- Whether |x| < |y|, for values that are no NaN. -/
def Num.magLt (x y : Num) : Bool :=
  match x, y with
  | .fin _ m e, .fin _ m' e' =>
    let e0 := min e e'
    m * 2 ^ (e - e0).toNat < m' * 2 ^ (e' - e0).toNat
  | .fin _ _ _, .inf _ => true
  | _, _ => false

/-- Whether x < y, -0 and +0 being equal, for values that are no NaN. -/
def Num.lt (x y : Num) : Bool :=
  match x, y with
  | .nan _, _ => false
  | _, .nan _ => false
  | .inf n, .inf m => n && !m
  | .inf n, .fin _ _ _ => n
  | .fin _ _ _, .inf m => !m
  | .fin n m e, .fin n' m' e' =>
    let e0 := min e e'
    scaled n m e e0 < scaled n' m' e' e0

/-- Whether x = y as numbers, for values that are no NaN. -/
def Num.eqv (x y : Num) : Bool :=
  match x, y with
  | .nan _, _ => false
  | _, .nan _ => false
  | x, y => !x.lt y && !y.lt x

def Num.isNaN : Num → Bool
  | .nan _ => true
  | _ => false

def Num.isSignalling : Num → Bool
  | .nan s => s
  | _ => false

def Num.isNeg : Num → Bool
  | .nan _ => false
  | .inf n => n
  | .fin n _ _ => n

/-- An element of an integer type as an exact integer (R218). -/
def intOf (t x : Nat) : Int := if isSignedType t then signed x (typeBits t) else (x % 2 ^ typeBits t : Nat)

/-- Saturation of an exact integer to an integer type: the code, and whether it saturated (R242). -/
def saturate (t : Nat) (i : Int) : Nat × Bool :=
  let n := typeBits t
  let (lo, hi) : Int × Int := if isSignedType t then (-(2 ^ (n - 1) : Int), 2 ^ (n - 1) - 1) else (0, 2 ^ n - 1)
  if i < lo then (wrap lo n, true) else if hi < i then (wrap hi n, true) else (wrap i n, false)

/-- Round to nearest even to an integer: the integer and whether anything was lost. -/
def nearestInt (neg : Bool) (man : Nat) (exp : Int) : Int × Bool :=
  if 0 ≤ exp then (scaled neg man exp 0, false)
  else
    let d := (-exp).toNat
    let q := man / 2 ^ d
    let r := man % 2 ^ d
    let q := if roundsUp 0 neg q (r != 0) (compare (2 * r) (2 ^ d)) then q + 1 else q
    (if neg then -(q : Int) else q, r != 0)

/-- Conversion of a floating value to an integer type (R242). -/
def toInt (t : Nat) (x : Num) : Nat × Nat :=
  match x with
  | .nan _ => (0, fNV)
  | .inf neg => ((saturate t (if neg then -(2 ^ 70 : Int) else 2 ^ 70)).1, fSAT + fNX)
  | .fin neg man exp =>
    let (i, lost) := nearestInt neg man exp
    let (c, sat) := saturate t i
    (c, if sat then fSAT + fNX else if lost then fNX else 0)

/-- The target holds every value of the source (R241): its mantissa, its range and its special codes. -/
def widens (src dst : Nat) : Bool :=
  match src, dst with
  | 1, 0 => true | 2, 0 => true | 2, 1 => true | 3, 0 => true | 3, 1 => true
  | 4, 0 => true | 4, 1 => true | 4, 2 => true | 4, 3 => true
  | 5, 0 => true | 5, 1 => true | 5, 2 => true | 5, 3 => true
  | 6, 0 => true | 6, 1 => true | 6, 2 => true | 6, 3 => true | 6, 4 => false | 6, 5 => true
  | _, _ => false

/-- Conversion of a floating value to a floating format: a widening is exact, and everything else narrows
(R241, R243). -/
def convertFp (src dst : Nat) (x : Num) : Nat × Nat :=
  if widens src dst then (match x with
    | .nan s => (canonicalNaN dst, if s then fNV else 0)
    | y => ((roundIeee dst 0 y).1, 0))
  else roundNE dst x

/-- The segment of a curve table that holds magnitude `m` (R246). -/
def curveSegment (table : BitVec 1536) (m : Num) : Nat :=
  let bp (i : Nat) : Num := decodeNum 1 (bits table.toNat (96 * i + 31) (96 * i))
  ((List.range 16).reverse.find? fun i => !m.lt (bp i)).getD 0

/-- SLOPE × m + INT in F32 by RoundNE, m at least zero (R246). -/
def curveValue (table : BitVec 1536) (m : Num) : Nat × Nat :=
  let i := curveSegment table m
  let slope := decodeNum 1 (bits table.toNat (96 * i + 63) (96 * i + 32))
  let icpt := decodeNum 1 (bits table.toNat (96 * i + 95) (96 * i + 64))
  let (x, f) := Num.fma 0 slope m icpt
  let (y, f') := roundNE 1 x
  (y, orFlags f f')

/-- Compand (R246): `s` is the block's scale byte, 127 for an unscaled target. -/
def compand (table : BitVec 1536) (s target : Nat) (x : Num) : Nat × Nat :=
  match x with
  | .fin neg man exp =>
    let (y, f) := curveValue table (.fin false man (exp + 127 - s))
    let v := decodeNum 1 y
    let (c, f') := roundNE target (if neg then v.neg else v)
    (c, orFlags f f')
  | y => roundNE target y

/-- The value of a decoded element read through the inverse curve, its scale applied (R247): a value of F32 times
the scale, with the flags of the curve's rounding. -/
def inverseCurve (table : BitVec 1536) (s : Nat) (q : Num) : Num × Nat :=
  match q with
  | .nan sg => (.nan sg, 0)
  | q =>
    let (y, f) := curveValue table q.abs
    let v := (decodeNum 1 y).scale ((s : Int) - 127)
    (if q.isNeg then v.neg else v, f)

/-- A valid curve table (R245). -/
def curveValid (table : BitVec 1536) : Bool :=
  let f (i k : Nat) : Nat := bits table.toNat (96 * i + 32 * k + 31) (96 * i + 32 * k)
  let finite (x : Nat) : Bool := bits x 30 23 != 255
  f 0 0 == 0 && (List.range 16).all (fun i => finite (f i 0) && finite (f i 1) && finite (f i 2)) &&
  (List.range 15).all fun i => !(decodeNum 1 (f (i + 1) 0)).lt (decodeNum 1 (f i 0))

/-- The identity table of core reset (R245): every segment has breakpoint +0, slope 1.0 and intercept +0. -/
def identityCurve : BitVec 1536 :=
  BitVec.ofNat 1536 (joinBits 96 (List.replicate 16 (at_ 32 0x3F800000)))

/-- RoundUp(|x|, F32) of AMX (R253). -/
def roundUpF32 (x : Num) : Nat := (roundIeee 1 2 x.abs).1

end Sys2Proof.Machine
end

