-- ==== Sys2Proof/Config.lean ====
section
/-! DEFINITION. Sys2Proof/Config.lean: the free values, which the spec leaves open and no proof can see, and the constants of the module (R2, R145). -/

namespace Sys2Proof.Config

/-- A byte of opaque engine replay state (R371, R433): a free value, numbered by the state's counter `free` (log 9). -/
opaque freeByte : Nat → Byte

/-- What DRAM reads as where its keys have been erased differs from what was written by this (R447): a free value for each erasure
and address (log 9). -/
opaque keystream : Nat → Nat → Byte

/-- The voltage-frequency island in which a core lies (R452): the spec gives their number alone (log 19). -/
opaque islandOf : BitVec 16 → Nat

/-- What a thread reads in a system register that it does not have (R164): a free value (log 9). -/
opaque absentRegister : Nat → Word

/-- ATOMSZ reads as this (R145). -/
def atomsz : Word := 0x0000000003356666

/-- The 64-byte lines of the pool key space stand above the 48-bit physical addresses (R43). -/
def poolBase : Nat := 2 ^ 48

/-- The memory of the peers of the fabric (R441, R443) stands above the pools: 2^64 bytes for each fabric identity. -/
def peerBase : Nat := 2 ^ 64

/-- What a byte of memory that nothing has written reads as (log 2, DESIGN CHOICE). -/
def unlistedByte : Byte := 0

end Sys2Proof.Config
end

