-- ==== Sys2Proof/Machine/State.lean ====
section
/-! DEFINITION. Sys2Proof/Machine/State.lean: everything the spec gives the machine to hold, as plain data, and the machine right after reset. -/

namespace Sys2Proof.Machine

/-- A vector register of one core (R207). -/
abbrev VReg := BitVec 512

/-- The 64-byte entries of the pigeonhole, the lost-property queue and the port registers (R122, R126, R209). -/
abbrev Entry := BitVec 512

/-- A task record (R320). -/
abbrev Record := BitVec 256

/-- A map with a default for every key that is not listed: the first entry of a key counts. -/
abbrev Sparse (α : Type) := List (Nat × α)

/-- A capability: 128 bits and a tag (R29). -/
structure Cap where
  tag : Bool := false
  hi : Word := 0
  addr : Word := 0
deriving DecidableEq, Repr, Inhabited

/-- The states of a slot (R161); `frozen` is the slot of an unhandled trap (R422). -/
inductive SlotState where
  | empty | ready | stalled | waiting | transit | frozen
deriving DecidableEq, Repr

/-- An 80-bit producer whose result has not landed (R219): the instructions left in its window, PK, and its
destinations with the values they will hold after landing, one per member core for v and k registers (R432). -/
structure Producer where
  rem : Nat
  pk : Bool
  vs : List (Nat × List VReg) := []
  gs : List (Nat × Cap) := []
  ks : List (Nat × List (BitVec 16)) := []
  /-- the words of its v destinations, by register and number across the gang, that it does not write whole, and those of them
  that it writes in part (R63, R67, R328) -/
  bare : List (Nat × Nat) := []
  part : List (Nat × Nat) := []
deriving DecidableEq, Repr

/-- A trap state (R420) with the hazard state it holds (R221). -/
structure TrapState where
  hi : Word := 0
  priv : Bool := false
  inUser : Bool := false
  ecause : Word := 0
  epc : Word := 0
  eaddr : Word := 0
  haz : List Producer := []
deriving DecidableEq, Repr

/-- The per-thread system registers of R229. -/
structure SysRegs where
  fpctl : Word := 0
  fpstat : Word := 0
  amx : Word := 0
  sigdepth : Word := 1
  sigdim : Word := 1
  epc : Word := 0
  ecause : Word := 0
  eaddr : Word := 0
  evec : Word := 0
deriving DecidableEq, Repr

/-- The translated address spaces (R14, R39). -/
inductive Space where
  | dram | fabric | column
deriving DecidableEq, Repr

/-- What a Waiting slot awaits (R161). -/
inductive Await where
  | none
  /-- WAIT: the register for its reason, its deadline and its wake mask (R277) -/
  | wait (d : GReg) (deadline : Nat) (mask : BitVec 2)
  /-- PGET on an empty pigeonhole (R303) -/
  | pigeonhole
  /-- a read of an empty port (R209) -/
  | port (p : Nat)
  /-- MWAIT for a matrix job (R362) -/
  | job (id : Nat)
  /-- EVWAIT (R315) -/
  | event (name : Nat)
  /-- BARWAIT deferred at the home (R312) -/
  | barrier
  /-- BARWAIT answered retry at this TSNOW (R312) -/
  | retry (since : Nat)
  /-- a translation miss: the page, and what a failed walk raises (R437, R438) -/
  | walk (job : Nat) (space : Space) (va : Nat) (cause : Nat) (eaddr : Word)
  /-- a marked thread at its SAFEPT, with the masks of its live registers (R280, R427) -/
  | safePoint (gm vm : BitVec 32)
  /-- a marked thread beyond its budget, stopped at an instruction boundary (R427) -/
  | forced
  /-- a word of room in a queue (R116, R354), a page lock or a condition of the core (R279, R361, R395) -/
  | room
deriving DecidableEq, Repr

/-- One piece of an access (R103): its transaction tag, its address, the place of each of its runs of bytes in the
reply buffer (offset in the piece, place, length), and the ADDR of its request (R100). -/
structure Piece where
  tag : Nat
  addr : Nat
  runs : List (Nat × Nat × Nat)
  pa : Nat := 0
deriving DecidableEq, Repr

/-- What the instruction does once every reply has come (R104, R284, R298, R307). -/
inductive Completion where
  | load (d : GReg) (n : Nat) (signed : Bool)
  | store
  | loadCap (d : GReg) (keepTag : Bool)
  | atomic (d : GReg) (n : Nat) (signed : Bool)
  | vload (vd : Nat) (halves : Nat) (la : Nat) (pk : Bool) (elems : List Nat)
  | send (rb rd : GReg)
  | sendx (rb rd : GReg)
  | phase (d : GReg)
  | barWait (d : GReg)
  | silent
  | view (bv : Nat) (d : Option GReg)
  | word (d : GReg)
  | launch (d : GReg)
  /-- the job descriptor that LAUNCH submits (R324) -/
  | descriptor (d : GReg)
  /-- the curve table image that CURVE reads (R398) -/
  | curve (c : Nat)
  /-- CTXSAVE's image is stored (R397) -/
  | saved (d : GReg)
  /-- CTXLOAD has read the first 16 bytes, and then the whole image (R397, R434) -/
  | imageHead (a : GReg)
  | image (n : Nat)
  /-- VUNPK's reads: what they have given so far (R340) -/
  | unpack (f : SForm) (got : List Nat)
  | access
  | migrate (d : GReg)
deriving DecidableEq, Repr

/-- The read-modify-write operations of R295. -/
inductive AtomOp where
  | add | and | or | xor | min | max | minu | maxu | swap | faddF32 | faddBf16
deriving DecidableEq, Repr

/-- The barrier operations of R311 and R312. -/
inductive BarOp where
  | init (n : Nat)
  | arrive (m : Nat) (drop : Bool)
  | wait (p : Nat)
  | expect (t : Nat)
deriving DecidableEq, Repr

/-- The board operations of R319. -/
inductive BoardOp where
  | init (h n : Nat)
  | post (j : Nat) (x : Word)
  | read (j : Nat)
  | clear
deriving DecidableEq, Repr

/-- The event operations of R315. -/
inductive EventOp where
  | sig | wait | clr | qry
deriving DecidableEq, Repr

/-- What a thread belongs to (R173-R176, R308). -/
structure Membership where
  job : Nat := 0
  unit : Nat := 0
  member : Nat := 0
  /-- handle of the counter of its task (R176), and of that of its team (R175) -/
  ctr : Nat := 0
  team : Option Nat := none
  record : Record := 0
  /-- a level task's thread sees the level map of its LVLRUN (R181) -/
  levels : Option (Sparse Word) := none
deriving DecidableEq, Repr

/-- A wayfarer's context (R165). -/
structure Context where
  stat : Word
  pca : Word
  g : List Cap
  /-- the slot the wayfarer travels with: unit and job (held in the job's launch record, R165) -/
  mem : Membership
deriving DecidableEq, Repr

/-- What a message carries (R101). -/
inductive Payload where
  | none
  | bytes (l : List Byte)
  /-- data and the enabled bits of each byte (R63, R294) -/
  | masked (data mask : List Byte)
  | capability (image : List Byte) (tag : Bool)
  | atom (op : AtomOp) (n : Nat) (operand : Word)
  | cas (n : Nat) (expected new : Word)
  | barrier (op : BarOp) (unit : Nat)
  | board (op : BoardOp) (issuer : Coord)
  | event (op : EventOp) (name : Nat)
  /-- a waiter's wake: the event's name and the state word that it returns (R316) -/
  | woken (name : Nat) (state : Word)
  | fault (cause : Nat) (addr : Word)
  | reason (r : Nat)
  | port (p : Nat) (value : VReg)
  | wayfarer (c : Context)
  | walk (job : Nat) (space : Space) (va : Nat) (level : Nat)
  | translation (job : Nat) (space : Space) (va entry shift : Nat) (poisoned : Bool)
  | walkFault (job : Nat) (space : Space) (va level : Nat) (malformed : Bool)
  | walkAbsent (job : Nat) (space : Space) (va : Nat)
  | shoot (kind job lo hi : Nat)
  | probe (origin : Coord) (queue hops : Nat)
  /-- engine piece: the job's core and token, its offset in the unit, its length and virtual address, and the barrier offset
  of a counted piece -/
  | engine (core : Coord) (id off len va : Nat) (data : List Byte) (barrier : Option Nat)
  | engineFault (core : Coord) (id cause : Nat) (addr : Word)
  | entry (e : Entry)
  /-- a chunk of a collective, or the part of it that one message carries: ring index, which of the ring's collectives it belongs
  to, the sender's command, whether it is a result, its block and its number, the bytes before the part and those of the whole -/
  | chunk (ring seq command : Nat) (result : Bool) (block num off len : Nat) (data : List Byte)
deriving DecidableEq, Repr

/-- Where a message is: a thread or the handler holds a send-queue entry until it enters the mesh (R111, R116), a unit or an
engine holds it in its own send queue (R111), it is in the mesh, or it stands in a receive queue of its endpoint, with the
number of its arrival (R111). -/
inductive Via where
  | thread (slot : Nat) | handler | source | mesh | queue (n : Nat)
deriving DecidableEq, Repr

/-- A flit in the mesh: the router and the input port whose slot it takes, whether that slot is one of its class's escape
channel (R110), and its link sequence number while it is on a bridge to the next router (R109). -/
structure FlitAt where
  router : Nat
  port : Nat
  escape : Bool := false
  wire : Option Nat := none
deriving DecidableEq, Repr

/-- A message on its way (R100). -/
structure Flight where
  dst : Coord
  src : Coord
  op : Nat
  th : Bool := false
  rq : Bool := false
  slot : Nat := 0
  gen : BitVec 10 := 0
  tag : Nat := 0
  bc : Nat := 0
  addr : Nat := 0
  pay : Payload := .none
  via : Via := .mesh
  /-- MC and FL of the header, where they are not those of the operation and the payload (R101) -/
  told : Option (Nat × Nat) := none
  /-- TSNOW of its origin (R450) -/
  ts : Word := 0
  /-- flits that have reached the endpoint, and those in routers, the foremost first; the others are at the source -/
  landed : Nat := 0
  flits : List FlitAt := []
deriving DecidableEq, Repr

/-- The outstanding replies of a Stalled or Waiting instruction (R103-R105). -/
structure Pending where
  pieces : List Piece
  /-- the reply bytes received so far, by place -/
  buf : Sparse Byte := []
  /-- the tag that came with a capability reply -/
  ctag : Bool := false
  /-- the place, cause and address of the lowest FAULT reply (R104) -/
  fault : Option (Nat × Nat × Word) := none
  /-- pieces not sent yet, for want of a tag or of room in the send queue (R103, R116) -/
  todo : List (Piece × Flight) := []
  /-- OUT and RLEN of a SEND's status (R298) -/
  out : Nat := 1
  rlen : Nat := 0
  /-- port entries that the instruction has read and gives back if it traps (R209, R331) -/
  taken : List (Nat × Entry) := []
  /-- bytes of the instruction, 2, 4 or 10 -/
  len : Nat
  fin : Completion
deriving DecidableEq, Repr

/-- The gang of a thread (R169-R172). -/
structure Gang where
  /-- the size reserved by the task: 1, 2, 4 or 8 -/
  reserved : Nat := 1
  /-- the size of the gang in force; 1 when none is -/
  size : Nat := 1
  /-- in a reserved follower slot, the leader's core -/
  leader : Option Coord := none
deriving DecidableEq, Repr

/-- A thread slot with the thread in it (R160-R166, R206, R229). -/
structure Slot where
  st : SlotState := .empty
  gen : BitVec 10 := 0
  pc : Cap := {}
  g : Sparse Cap := []
  v : Sparse VReg := []
  k : Sparse (BitVec 16) := []
  b : Sparse (BitVec 576) := []
  quota : Nat := 0
  wayfarer : Bool := false
  mirmask : BitVec 32 := 0
  sys : SysRegs := {}
  /-- system privilege (R418) -/
  priv : Bool := false
  inUser : Bool := false
  inSystem : Bool := false
  trapUser : TrapState := {}
  trapSystem : TrapState := {}
  haz : List Producer := []
  /-- the keep buffer, oldest entry first: register kind v (true) or g, and its number (R222) -/
  keep : List (Bool × Nat) := []
  /-- first word of the frame in the vector-register area (R57) -/
  frame : Option Nat := none
  gang : Gang := {}
  mem : Membership := {}
  /-- migration policy and completed migrations (R166) -/
  mpol : Nat := 0
  hops : Nat := 0
  pri : Nat := 0
  stamp : Nat := 0
  age : Nat := 0
  await : Await := .none
  pend : Option Pending := none
  /-- TSNOW of a pre-emption mark (R427) -/
  mark : Option Nat := none
  /-- the access at the PC was refused a migration (R168) -/
  noMigrate : Bool := false
deriving DecidableEq, Repr

/-- The binding of a port register (R209, R301). -/
inductive Binding where
  | unbound | mailbox | stream (s : Nat)
deriving DecidableEq, Repr

/-- A port register: its binding and its entries, oldest first (R209). -/
structure Port where
  bind : Binding := .unbound
  q : List Entry := []
deriving DecidableEq, Repr

/-- A translation held by a TLB (R436): address space, page number, page size and the leaf entry. -/
structure Translation where
  job : Nat
  space : Space
  va : Nat
  shift : Nat
  entry : Nat
  poisoned : Bool := false
deriving DecidableEq, Repr

/-- A piece of a porter's unit: its receiver, its place in the unit, address and length. -/
structure EnginePiece where
  rcv : Nat := 0
  off : Nat
  x : Nat
  n : Nat
deriving DecidableEq, Repr

/-- A partial or a coarse value that travels between stair units (R389). -/
structure Partial where
  /-- its job; RESTRICT (false) or PROLONG (true), fine level, pairing number (R390) -/
  job : Nat
  prolong : Bool
  level : Nat
  seq : Nat
  /-- coarse point, child index, value -/
  pt : Nat × Nat × Nat
  child : Nat
  value : BitVec 32
deriving DecidableEq, Repr

/-- An accepted engine command (R354, R370, R433). -/
structure EngineJob where
  /-- KIND of R124 -/
  kind : Nat
  op : Nat
  f : EForm
  core : Coord
  slot : Nat
  gen : BitVec 10
  id : Nat
  /-- address space and privilege of the issuing thread -/
  job : Nat
  priv : Bool
  /-- operand values of GA, GB, GC, GD, GD+1, GD+2, GD+3 as read at acceptance (R433) -/
  ops : List Cap
  /-- leased source registers' values -/
  vals : List VReg := []
  /-- curve images as at acceptance (R258) -/
  curves : List (BitVec 1536) := []
  dim : Nat := 1
  depth : Nat := 1
  bank : Bool := false
  leasedV : List Nat := []
  leasedT : List Nat := []
  /-- units completed so far -/
  done : Nat := 0
  /-- units completed when the present issue of the command began (R356) -/
  base : Nat := 0
  /-- stage of the present unit, its pieces still to move, messages outstanding, and its bytes read so far -/
  stage : Nat := 0
  todo : List EnginePiece := []
  /-- its next write piece has found the parking full, and it waits (R382) -/
  stuck : Bool := false
  /-- every piece of the element that it writes has passed its checks (R380) -/
  passed : Bool := false
  /-- chunks of its own that a sequencer has sent on their way (R384) -/
  sent : Nat := 0
  outstanding : Nat := 0
  buf : Sparse Byte := []
  /-- entries of the fine and the coarse level, the number of the command among its pair's, the core whose stair unit runs it,
  and, for a stopped command, the weights that it goes on with (R371, R387, R390) -/
  levels : List Word := []
  seq : Nat := 0
  seat : Coord := 0
  weights : Option (Sparse (BitVec 32)) := none
  /-- stopped at a split-granule boundary, and its DONE entry with PART = 1 is written (R123, R356, R428) -/
  stopped : Bool := false
  told : Bool := false
  fault : Option (Nat × Word) := none
  flags : Nat := 0
  /-- opaque replay state (R371, R433): the bytes of a stream's next entries, and the chunks that a sequencer has taken in and
  not consumed -/
  replay : List Byte := []
  kept : List Payload := []
  /-- the partials that its stair unit had received, once they are in the image (R371, R439) -/
  parts : List Partial := []
  /-- the chunks of a collective's result that are written: block and number -/
  wrote : List (Nat × Nat) := []
deriving DecidableEq, Repr

/-- A deferred BARWAIT in a core's barrier watch list (R312). -/
structure Watcher where
  obj : Nat
  reply : Flight
deriving DecidableEq, Repr

/-- The message side of a core (R97-R127, R299). -/
structure Messages where
  pigeonhole : List Entry := []
  /-- DONE messages held by engines of a full pigeonhole, in order (R123) -/
  held : List Entry := []
  lpq : List Entry := []
  lpqCount : Nat := 0
  /-- the message the user handler in slot 0 handles (R299) -/
  handling : Option Flight := none
  /-- ACTIVE messages accepted and waiting for slot 0 -/
  waitingActive : List Flight := []
  /-- AMO and CAS requests accepted and waiting for a handler send entry (R117) -/
  waitingAtomic : List Flight := []
  /-- a PORTW that waits at the head of the REQ receive queue (R302) -/
  waitingPort : Option Flight := none
  /-- transaction tags in use (R103) -/
  tags : List Nat := []
  /-- queues of the endpoint whose spare room is open (R114), and since when a queue is blocked (R113) -/
  spare : List Nat := []
  blocked : Sparse Nat := []
  /-- when a queue last had room: a break of its blocking, and of that of a queue which waits on it (R113) -/
  roomAt : Sparse Nat := []
deriving DecidableEq, Repr

/-- The engine side of a core (R223, R245, R351-R354, R370, R386-R390). -/
structure Engines where
  matrixCounter : Nat := 0
  copyCounter : Nat := 0
  /-- outstanding commands with their leases -/
  jobs : List EngineJob := []
  curves : Sparse (BitVec 1536) := []
  weights : Sparse (BitVec 32) := []
  bank : Bool := false
  stairQueue : List EngineJob := []
  stairRun : Option EngineJob := none
  /-- commands accepted so far of one job, kind, level and side (R390) -/
  pairCount : Sparse Nat := []
  partials : List Partial := []
  /-- retired stair links: 0 to the parent, 1 + i to child i (R448) -/
  stairRetired : List Nat := []
deriving DecidableEq, Repr

/-- A write to words of one parity group at one row of a pool (R63): the data banks written, whether it is a full-group update,
and whether the first of its two cycles is over. -/
structure RowUpdate where
  row : Nat
  group : Nat
  banks : List Nat
  full : Bool
  half : Bool := false
deriving DecidableEq, Repr

/-- A request in the queue of a pool (R60-R65): its client (0 RF, 1 LS, 2 CP, 3 ME, 4 PO, 5 MU, 6 SU), the words still to be
read in lane order, or the row updates still to be made, the cycles it has waited, and whether it has entered in this cycle. -/
structure PoolRequest where
  client : Nat
  reads : List Nat := []
  updates : List RowUpdate := []
  /-- the four-word blocks read that have a mirror copy, and the first words of the copies (R58) -/
  copies : List (Nat × Nat) := []
  /-- the core and the slot that the register file's request delays (R59) -/
  thread : Option (Coord × Nat) := none
  age : Nat := 0
  fresh : Bool := true
deriving DecidableEq, Repr

/-- The request queue of a core's pool in its start order, the requests that enter it in later cycles, and the client that heads
its rotation: 0 to 5 stand for LS to SU (R60, R64). -/
structure Pool where
  queue : List PoolRequest := []
  next : List PoolRequest := []
  rotation : Nat := 0
deriving DecidableEq, Repr

/-- A core (R2, R206, R407). -/
structure Core where
  slots : Sparse Slot := []
  owner : Option Nat := none
  resident : Option Nat := none
  partw : Word := 0
  partPending : Option Word := none
  ports : Sparse Port := []
  msg : Messages := {}
  eng : Engines := {}
  watch : List Watcher := []
  /-- the deque of task records, bottom first (R321) -/
  deque : List Record := []
  /-- how often later records have passed a record of the deque (R408) -/
  passes : List (Record × Nat) := []
  tlb : List Translation := []
  pgstat : Word := 0
  stampCounter : Nat := 0
  halted : Bool := false
  /-- thieves whose requests stand at the steal port with the time they came, the answers to this core's own requests, and
  the victims of its steal round asked so far (R118, R409) -/
  stealPort : List (Coord × Nat) := []
  stealReply : List (Option Record) := []
  stealRound : Option Nat := none
deriving DecidableEq, Repr

/-- A queued task record and the number of times later records have passed it (R408). -/
structure Queued where
  record : Record
  job : Nat
  /-- a level task (R392): its level, the cores of this die that still lack their thread, its counter, and the level map
  of its LVLRUN (R181) -/
  level : Option Nat := none
  cores : List Coord := []
  ctr : Nat := 0
  map : Sparse Word := []
  passed : Nat := 0
  since : Nat := 0
deriving DecidableEq, Repr

/-- A cluster: matrix engine, porter and queue (R3, R354, R373, R407). -/
structure Cluster where
  matrixQueue : List EngineJob := []
  running : Option EngineJob := none
  /-- index of the core that heads the matrix engine's rotation, and the porter's (R354, R373) -/
  rotation : Nat := 0
  porterRotation : Nat := 0
  porterQueue : List EngineJob := []
  active : List EngineJob := []
  /-- parked writes, oldest first: core and id of the job, and the piece (R382) -/
  parked : List (Coord × Nat × EnginePiece) := []
  queue : List Queued := []
  closed : Bool := false
deriving DecidableEq, Repr

/-- An event on its bell board (R314-R316). -/
structure EventState where
  set : Bool := false
  nsig : Nat := 0
  waiters : List Flight := []
  overflow : List Flight := []
  /-- overflow waiters that a signal has covered (R316) -/
  covered : Nat := 0
  /-- firmware is extending the overflow queue, and these entries wait (R316) -/
  extending : List Flight := []
deriving DecidableEq, Repr

/-- A power-managed link's state (R119). -/
inductive LinkState where
  | full | narrow | sleep
deriving DecidableEq, Repr

/-- A walk that a die has asked for: its page, named at 64 KiB, and whether an invalidation has covered it since, so that
its answer is not installed (R437, R440). -/
structure Walk where
  job : Nat
  space : Space
  page : Nat
  stale : Bool := false
deriving DecidableEq, Repr

/-- An invalidation that a die has taken and not yet answered: its SHOOT and the accesses, translated before it came, that
are still to be performed (R396). -/
structure Shoot where
  msg : Flight
  waits : List Flight
deriving DecidableEq, Repr

/-- One direction of a die-to-die bridge (R109): the number of the next flit, the number that the far router awaits, the flits
that are kept until they are acknowledged: number, message and place in the message, and the numbers of those on the bridge once
more. -/
structure Bridge where
  next : Nat := 0
  seen : Nat := 0
  kept : List (Nat × Flight × Nat) := []
  again : List Nat := []
deriving DecidableEq, Repr

/-- What the tester has done with the bus that it holds: quiesced it, written the test row, or compared it (R84). -/
inductive TestPhase where
  | quiesced | pattern | checked
deriving DecidableEq, Repr

/-- A vertical bus (R77, R79, R84-R87): the phase of the test that holds it, whether a demand access has come meanwhile,
when a test was last aborted, its test row, and whether it is retired. -/
structure Bus where
  phase : Option TestPhase := none
  demand : Bool := false
  abortedAt : Option Nat := none
  row : VReg := 0
  retired : Bool := false
deriving DecidableEq, Repr

/-- A targeted self-test under way (R448, R449): the unit, by its kind, place and number, and the errors on it since. -/
structure SelfTest where
  kind : Nat
  place : Coord
  idx : Nat
  errors : Nat := 0
deriving DecidableEq, Repr

/-- A saved thread: where it was, its slot as the image holds it, its carried entries and parked commands, the KIND of its image
(1 safe-point save, 2 full save), its live masks, and HOME, the core that holds its resident accumulators (R427-R433). -/
structure SavedThread where
  core : Coord
  idx : Nat
  slot : Slot
  followers : List Slot := []
  entries : List Entry := []
  parked : List EngineJob := []
  kind : Nat := 2
  gmask : BitVec 32 := BitVec.allOnes 32
  vmask : BitVec 32 := BitVec.allOnes 32
  home : Option Coord := none
deriving DecidableEq, Repr

/-- A saved unit (R413, R429). -/
structure SavedUnit where
  job : Nat
  unit : Nat
  threads : List SavedThread
  /-- the die a bound image belongs to (R429) -/
  bound : Option Nat := none
  marked : Bool := false
deriving DecidableEq, Repr

/-- A virtual die (R28, R91, R120, R314, R407). -/
structure Die where
  /-- physical die: the number the map gives beside the identity; `none` while the die is unmapped -/
  offline : Bool := false
  physical : Option Nat := none
  draining : Bool := false
  queue : List Queued := []
  queueT3 : List Queued := []
  saved : List SavedUnit := []
  tlb : List Translation := []
  events : Sparse EventState := []
  linkpwr : Word := 0
  links : Sparse LinkState := []
  /-- the links now returning to full (R119, R121) -/
  waking : List Nat := []
  /-- invalidations to be answered, and walks whose answer has not come (R396, R437) -/
  shoots : List Shoot := []
  walks : List Walk := []
  unitCounter : Nat := 0
  /-- the reserved rectangles, oldest first: top-left cluster, and the band it is for (R412) -/
  reserved : List (Coord × Queued) := []
deriving DecidableEq, Repr

/-- A completion counter (R175). -/
structure Counter where
  count : Nat := 0
  parent : Option Nat := none
  event : Option Nat := none
  interrupt : Bool := false
  closed : Bool := false
  job : Nat := 0
deriving DecidableEq, Repr

/-- A kernel of the job's kernel table (R205). -/
structure Kernel where
  entry : Nat
  quota : Nat
  wayfarer : Bool
  mirmask : BitVec 32 := 0
  spmax : Nat := 0
  name : Nat := 0
deriving DecidableEq, Repr

/-- A board of the job's board table, with the handle that the loader has given it (R202). -/
structure Board where
  name : Nat
  home : Coord
  count : Nat
  handle : Nat
deriving DecidableEq, Repr

/-- A job and its launch record (R402-R406). -/
structure Job where
  live : Bool := false
  code : Cap := {}
  data : Cap := {}
  handlerData : Cap := {}
  handlers : Sparse Nat := []
  pw : Sparse Word := []
  kernels : List Kernel := []
  steward : Coord := 0
  counter : Nat := 0
  evec : Word := 0
  levels : Sparse Word := []
  /-- outstanding level tasks: level and counter handle (R181) -/
  levelTasks : List (Nat × Nat) := []
  events : List Nat := []
  /-- the place of each event's name in the image's name table (R202) -/
  eventNames : List Nat := []
  boards : List Board := []
  limit : Nat := 0
  parent : Option Nat := none
  /-- CEVT when CEVE = 1 (R402) -/
  doneEvent : Option Nat := none
  /-- CINT (R402) -/
  interrupt : Bool := false
  /-- accumulators written to the firmware save area, by core (R435, R439) -/
  saveArea : List (Coord × List Byte) := []
  reportTo : Nat := 0
  lost : Bool := false
  /-- page-table roots: DRAM, FABRIC, and the column table of each virtual die (R39) -/
  dramRoot : Nat := 0
  fabricRoot : Nat := 0
  columns : Sparse Nat := []
  pmax : Nat := 3
deriving DecidableEq, Repr

/-- A queued job descriptor: who submitted it (R402, R403). -/
structure Submission where
  desc : BitVec 1024
  job : Option Nat := none
  waiter : Option (Coord × Nat × BitVec 10) := none
deriving DecidableEq, Repr

/-- A ring installed in a fabric port (R383). -/
structure Ring where
  job : Nat
  rank : Nat
  size : Nat
  /-- chunks that have come and wait, oldest first, and the one of which a part has come -/
  chunks : List Payload := []
  part : Option Payload := none
  /-- collectives begun so far, and whether the last of them has stopped at a chunk and not gone on (R371, R385) -/
  count : Nat := 0
  held : Bool := false
  /-- a member has left (R385); the members disagreed on the collective of a number that this member has not begun (R385) -/
  lost : Bool := false
  odd : Option Nat := none
deriving DecidableEq, Repr

/-- The ring sequencer of a fabric port: the command that runs, and the queue of the port (R370). -/
structure Sequencer where
  run : Option EngineJob := none
  queue : List EngineJob := []
deriving DecidableEq, Repr

/-- A page being moved: its old and new frames and the bits of its size (R88). -/
structure Lock where
  job : Nat
  va : Nat
  old : Nat
  new : Nat
  shift : Nat := 16
deriving DecidableEq, Repr

/-- A page that firmware has mapped: its frame and the bits of its size (R40, R79, R80). -/
structure Mapped where
  job : Nat
  space : Space
  va : Nat
  frame : Nat
  shift : Nat := 16
deriving DecidableEq, Repr

/-- What the control die, the fabric and firmware hold (R39, R90, R403, R443-R453). -/
structure Package where
  imported : Sparse (BitVec 128) := []
  exported : Sparse (BitVec 128) := []
  rings : Sparse Ring := []
  sequencers : Sparse Sequencer := []
  commands : Sparse (List Submission) := []
  /-- the command queue from which firmware takes next, and the queues whose messages were answered with NAK reason 2, newest
  first (R403) -/
  commandTurn : Nat := 0
  commandNaks : List Nat := []
  /-- records that have reached firmware, newest first (R425, R448) -/
  records : List Entry := []
  /-- messages to the host, newest first: address and 16 bytes (R406) -/
  hostMessages : List (Nat × List Byte) := []
  /-- answers to accesses that came in through exported windows, newest first: the peer, and the data, or none for NAK
  reason 2 (R443) -/
  answers : List (Nat × Option (List Byte)) := []
  interrupts : Nat := 0
  /-- pages on the poison list: job, space, page (R90) -/
  poisoned : List (Nat × Space × Nat) := []
  /-- the pages that firmware has mapped (R79, R80, R404) -/
  pages : List Mapped := []
  /-- firmware's answers to memory requests, newest first: job and tensor handle, or a zero for a refusal (R80) -/
  handles : List (Nat × Cap) := []
  /-- locked pages (R88) -/
  locks : List Lock := []
  /-- resident requests: job, space, page (R438) -/
  residentRequests : List (Nat × Space × Nat) := []
  /-- the vertical buses by physical tower, cluster and number (R77) -/
  buses : Sparse Bus := []
  /-- self-tests under way, and the capacity records for the runtime, newest first: cluster, retired bus, cap frames that the
  cluster has left (R87, R448) -/
  selfTests : List SelfTest := []
  capacity : List (Coord × Nat × Nat) := []
  /-- units with a lasting fault, which the configuration image records: kind, place and number (R448) -/
  lasting : List (Nat × Coord × Nat) := []
  /-- physical towers out of service until the next bring-up (R94) -/
  gone : List Nat := []
  /-- the fabric identity of the device, and the prefix of the last message sent through each imported window, and, from 256 on,
  of the last answer through each exported one: source, destination, sequence number (R441, R451) -/
  identity : Option (BitVec 16) := none
  prefixes : Sparse (BitVec 16 × BitVec 16 × Nat) := []
  /-- the messages that the fabric ports keep and retransmit until their peers acknowledge them, oldest first: window, sequence
  number, message (R441) -/
  unacknowledged : List (Nat × Nat × Flight) := []
  injectionHeld : Bool := false
  /-- when injection was stopped (R109) -/
  heldSince : Nat := 0
  /-- the spanning tree over the routers: the parents that differ from those of the tree of bring-up, and the tree that
  firmware has computed and not yet installed (R108, R109) -/
  tree : Sparse Nat := []
  nextTree : Option (Sparse Nat) := none
  /-- tables installed so far (R109) -/
  installs : Nat := 0
  /-- retired mesh links and bridge lane groups, by their two routers, and those of them that the installed tables leave out
  (R109, R448) -/
  cut : List (Nat × Nat) := []
  routed : List (Nat × Nat) := []
  /-- the bridges by router and next router (R109) -/
  bridges : Sparse Bridge := []
  /-- when each power-managed link carried its last flit or came back to full (R119, R121) -/
  linkUsed : Sparse Nat := []
  /-- messages that have come to a receive queue so far (R111) -/
  arrivals : Nat := 0
  alarm : Nat := 0
  keysErased : Bool := false
  identityErased : Bool := false
  /-- the bring-up steps that are done (R451) -/
  bringUp : Nat := 0
  throttle : Sparse Nat := []
  /-- the steps by which islands have been slowed, with the TSNOW of each, newest first: island, TSNOW, steps from then (R452) -/
  slowed : List (Nat × Nat × Nat) := []
  /-- the configuration image enables the test mode, in which IEEE 1149.1 access is open (R453) -/
  testMode : Bool := false
  shutdown : Bool := false
  nextJob : Nat := 1
  nextCounter : Nat := 1
  /-- blocks of 4,096 bytes that firmware has given to page tables (log 12) -/
  tables : Nat := 0
  sideband : List Bool := []
deriving DecidableEq, Repr

/-- A move of the mesh or of the world outside, for which the opcode table has no row (log 33). -/
inductive Move where
  /-- a flit of the `n`th message on its way goes one router on: its `k`th flit in the routers, or the next at the source
  (R110) -/
  | hop (n k : Nat)
  /-- the far router takes a flit of the `n`th message off a bridge, and the near router has its acknowledgement (R109) -/
  | receive (n k : Nat)
  | acknowledge (u v : Nat)
  /-- the near router sends the flits that it still keeps again; the far router takes one of them off the bridge (R109) -/
  | resend (u v : Nat)
  | receiveAgain (u v : Nat)
  /-- a peer acknowledges the oldest message of a window that a fabric port still keeps (R441) -/
  | fabricAck (window : Nat)
  /-- the `n`th message, all of it at its endpoint, enters its receive queue (R111) -/
  | enqueue (n : Nat)
  /-- a unit's oldest message leaves its send queue (R109, R111) -/
  | inject (c : Coord)
  /-- a die answers an invalidation (R396) -/
  | answerShoot (d : Nat)
  /-- firmware computes a spanning tree over the routers, for bring-up or for a recomputation (R108, R109, R451) -/
  | computeTree (tree : List (Nat × Nat))
  /-- an error of a unit is met, with its kind, place and number as in SELF_TEST_COMPLETE (R448) -/
  | unitError (kind : Nat) (place : Coord) (idx : Nat)
  /-- a client's request enters the queue of a core's pool: words read, or words written with their byte enables, in lane
  order (R60) -/
  | poolRequest (c : Coord) (client : Nat) (reads : List Nat) (writes : List (Nat × Nat))
  /-- the porter of a cluster tries the `k`th piece that its `n`th active job has still to move (R373) -/
  | porterPiece (cl : Coord) (n k : Nat)
  /-- the module is provisioned with an identity again (R447) -/
  | provision
  /-- the configuration image that bring-up reads enables the test mode, or does not; an IEEE 1149.1 access is made (R447, R453) -/
  | testImage (on : Bool)
  | testAccess
  /-- a word of a pool takes a single-bit or a double-bit error; from word 2^19 on, parity word 4 × row + group (R67) -/
  | upset (c : Coord) (w : Nat) (double : Bool)
deriving DecidableEq, Repr

/-- One move of the module: a cycle of a core, in which the named slots are held by an interlock or a pool cycle
(R161, R460), a step of another agent, a move of the mesh or of the world outside, or ticks of TSNOW (log 1). -/
inductive Turn where
  | cycle (c : Coord) (held : List Nat)
  | event (i : Instr)
  | move (m : Move)
  | tick (n : Nat)
deriving DecidableEq, Repr

/-- The machine. `agenda`, `core`, `slot` and `free` are the model's own (log 1, log 9); all else is the spec's. -/
structure State where
  /-- the moves that come next (log 1) -/
  agenda : List Turn := []
  /-- the core and the slot whose instruction executes -/
  core : Coord := 0
  slot : Nat := 1
  /-- the number of the next free value (log 9) -/
  free : Nat := 0
  /-- parcels 0-3 of the instruction in execution as fetched, parcel 0 in [63:48] (R421) -/
  fetched : Word := 0
  /-- TSNOW (R450) -/
  ts : Word := 0
  /-- bytes by key: physical addresses of R43, and the pools above them (log 2) -/
  mem : List Host.Cell := []
  /-- how often the memory-encryption keys have been erased (R447) -/
  keys : Nat := 0
  /-- the 16-byte granules whose tag is set (R38) -/
  tags : List Nat := []
  /-- the 16-byte granules that are poisoned (R67) -/
  poison : List Nat := []
  /-- pool words, data and parity, with a double-bit error not yet repaired (R67) -/
  doubleErrors : List Nat := []
  /-- messages on their way, oldest first; `cores` holds the message side of the fixed endpoints too -/
  net : List Flight := []
  cores : Sparse Core := []
  clusters : Sparse Cluster := []
  dies : Sparse Die := []
  jobs : Sparse Job := []
  counters : Sparse Counter := []
  pkg : Package := {}
  pools : Sparse Pool := []
deriving DecidableEq, Repr

/-- Why the machine stops with a fault. -/
inductive Fault where
  /-- The agenda names a core that R2 does not place. Raised by `step`. Safe: the hardware has no such core, so no
  behaviour of it is cut off (log 11). -/
  | noSuchCore (c : Coord)
deriving DecidableEq, Repr

/-- Why the model gives an instruction no meaning. -/
inductive Refusal where
  /-- The instruction has no meaning in the model yet. Raised by `exec`. Safe: nothing is claimed of it. -/
  | notModelled (mnemonic : String)
deriving DecidableEq, Repr

/-- What a step answers. -/
abbrev Answer := Host.Outcome State Fault Refusal

/-- The machine right after reset: every register at the value the spec gives, or, where it gives none, at the value
of log 8; memory lists nothing, no bring-up step has been made and no core has left reset (R11, R451, log 8). -/
def State.reset : State := {}

end Sys2Proof.Machine
end

