-- ==== Sys2Proof/Machine/Caps.lean ====
section
/-! DEFINITION. Sys2Proof/Machine/Caps.lean: the fields, bounds and derivations of capabilities (R29-R36, R266-R271). -/

namespace Sys2Proof.Machine

/-- Fields of the upper half (R29). -/
def Cap.perm (c : Cap) : Nat := bits c.hi.toNat 63 52
def Cap.fmt (c : Cap) : Nat := bits c.hi.toNat 51 47
def Cap.blk (c : Cap) : Nat := bits c.hi.toNat 46 44
def Cap.cls (c : Cap) : Nat := bits c.hi.toNat 43 42

/-- Permission bits (R30): bit 11 of PERM is L, bit 2 is SY. -/
def Cap.canLoad (c : Cap) : Bool := bit c.perm 11
def Cap.canStore (c : Cap) : Bool := bit c.perm 10
def Cap.canExecute (c : Cap) : Bool := bit c.perm 9
def Cap.canLoadCap (c : Cap) : Bool := bit c.perm 8
def Cap.canStoreCap (c : Cap) : Bool := bit c.perm 7
def Cap.canAtomic (c : Cap) : Bool := bit c.perm 6
def Cap.canMigrate (c : Cap) : Bool := bit c.perm 5
def Cap.isGlobal (c : Cap) : Bool := bit c.perm 4
def Cap.isSealed (c : Cap) : Bool := bit c.perm 3
def Cap.isSystem (c : Cap) : Bool := bit c.perm 2

/-- The register value of an integer result (R259). -/
def Cap.ofWord (w : Word) : Cap := { tag := false, hi := 0, addr := w }

/-- DecodeBounds of R34, on exact integers. -/
def decodeBounds (a u : Nat) : Int × Int :=
  let e := bits u 41 36
  let bb := bits u 35 18
  let bt := bits u 17 0
  if e = 63 then (0, 2 ^ 60) else
  let mid := a / 2 ^ e % 2 ^ 18
  let blk : Int := (a / 2 ^ (e + 18) : Nat)
  let blk := if mid < bb then blk - 1 else blk
  let base := blk * 2 ^ (e + 18) + (bb * 2 ^ e : Nat)
  let len := (bt + 2 ^ 18 - bb) % 2 ^ 18
  (base, base + (len * 2 ^ e : Nat))

/-- The bounds of a capability, decoded at its own address. -/
def Cap.bounds (c : Cap) : Int × Int := decodeBounds c.addr.toNat c.hi.toNat

/-- Address `x` lies in the roam window that upper half `u` gives at address `a` (R36). -/
def inRoam (a u x : Nat) : Bool :=
  let e := bits u 41 36
  if e = 63 then x < 2 ^ 60 else
  let base := (decodeBounds a u).1
  base ≤ (x : Int) && (x : Int) < base + 2 ^ (e + 18)

/-- FMT and BLK stand in the table of R31. -/
def formatValid (fmt blk : Nat) : Bool :=
  if fmt ≤ 0x0F then blk == 0
  else if fmt ≤ 0x12 then true
  else if fmt = 0x13 then blk == 2
  else fmt == 0x14 && blk == 0

/-- The upper half is valid at address `a` (R31, R35). -/
def upperValid (a u : Nat) : Bool :=
  let e := bits u 41 36
  let (base, top) := decodeBounds a u
  bits u 53 52 == 0 && formatValid (bits u 51 47) (bits u 46 44) &&
  (e ≤ 42 || (e == 63 && bits u 35 0 == 0)) && 0 ≤ base && top ≤ 2 ^ 60

/-- The capability with its address moved to `x` (R266). -/
def Cap.move (c : Cap) (x : Word) : Cap :=
  { tag := c.tag && !c.isSealed && bits x.toNat 63 60 == 0 && inRoam c.addr.toNat c.hi.toNat x.toNat
    hi := c.hi, addr := x }

/-- The upper half with bits [hi:lo] replaced. -/
def setField (u : Word) (hi lo x : Nat) : Word :=
  word (u.toNat - at_ lo (bits u.toNat hi lo) + at_ lo (x % 2 ^ (hi + 1 - lo)))

/-- The least exponent at which the rounded bounds fit 18 bits of length and the address space (R267). -/
def boundsExponent (base top : Nat) : Option Nat :=
  findBelow 43 fun e =>
    roundUp top e - roundDown base e ≤ (2 ^ 18 - 1) * 2 ^ e && roundUp top e ≤ 2 ^ 60

/-- Bounds from `base` to `base + len`, rounded outward, put into the upper half (R267); the base and top they
decode to. -/
def boundsFields (u : Word) (base len : Nat) : Word × Nat × Nat :=
  let top := base + len
  match boundsExponent base top with
  | none => (setField (setField (setField u 41 36 63) 35 18 0) 17 0 0, 0, 2 ^ 60)
  | some e =>
    let b := roundDown base e
    let t := roundUp top e
    (setField (setField (setField u 41 36 e) 35 18 (b / 2 ^ e)) 17 0 (t / 2 ^ e), b, t)

/-- CSETB (R267). -/
def Cap.setBounds (c : Cap) (len : Word) : Cap :=
  let (u, b, t) := boundsFields c.hi c.addr.toNat len.toNat
  let (pb, pt) := c.bounds
  { tag := c.tag && !c.isSealed && bits c.addr.toNat 63 60 == 0 && pb ≤ (b : Int) && (t : Int) ≤ pt
    hi := u, addr := c.addr }

/-- CSETP (R268). -/
def Cap.setPerm (c : Cap) (mask : Word) : Cap :=
  { tag := c.tag && !c.isSealed
    hi := setField c.hi 63 52 (bits (c.perm &&& mask.toNat) 11 2 * 4), addr := c.addr }

/-- CSETF (R269). -/
def Cap.setFormat (c : Cap) (x : Word) : Cap :=
  let fmt := bits x.toNat 12 8
  let blk := bits x.toNat 6 4
  let cls := bits x.toNat 1 0
  { tag := c.tag && !c.isSealed && formatValid fmt blk && (c.cls == 0 || c.cls == cls)
    hi := setField (setField (setField c.hi 51 47 fmt) 46 44 blk) 43 42 cls, addr := c.addr }

/-- CSETC (R270). -/
def capOf (addr hi : Word) : Cap :=
  { tag := upperValid addr.toNat hi.toNat && bits addr.toNat 63 60 == 0 && inRoam addr.toNat hi.toNat addr.toNat
    hi, addr }

/-- A tagged capability made by firmware: permissions, format, class and bounds (R405, R455-R457, R80). -/
def makeCap (perm fmt cls base len addr : Nat) : Cap :=
  let u := word (at_ 52 perm + at_ 47 fmt + at_ 42 cls)
  { tag := true, hi := (boundsFields u base len).1, addr := word addr }

/-- CGETF's layout (R271). -/
def Cap.formatWord (c : Cap) : Word := word (at_ 8 c.fmt + at_ 4 c.blk + c.cls)

end Sys2Proof.Machine
end

