-- ==== Sys2Proof/Machine/Topology.lean ====
section
/-! DEFINITION. Sys2Proof/Machine/Topology.lean: tiers, cores, clusters, gangs, the pyramid and the fixed endpoints (R2, R3, R17, R25, R76, R97, R169, R177, R230). -/

namespace Sys2Proof.Machine

/-- The tier of a core coordinate, when R2 places a core there. -/
def tierOf (c : Coord) : Option Nat :=
  if c.die < 12 then (if c.row < 32 && c.col < 32 then some 0 else none)
  else if c.die < 15 then (if c.row < 16 && c.col < 16 then some 1 else none)
  else if c.row < 8 && c.col < 8 then some 2
  else if 8 ≤ c.row && c.row < 10 && c.col < 2 then some 3
  else none

/-- R2 places a core at the coordinate (R26). -/
def coreExists (c : Coord) : Bool := (tierOf c).isSome

/-- The tier of a core; 0 where there is none. -/
def tier (c : Coord) : Nat := (tierOf c).getD 0

/-- Slots of a core (R160). -/
def slotCount (c : Coord) : Nat := match tier c with | 0 => 8 | 1 => 16 | 2 => 16 | _ => 32

/-- Pool stripes of a core (R2). -/
def stripes (c : Coord) : Nat := match tier c with | 0 => 512 | 1 => 2048 | 2 => 4096 | _ => 8192

/-- Cores of a cluster (R3). -/
def clusterSize (c : Coord) : Nat := if tier c = 3 then 4 else 8

/-- Frames of a core's cap slice (R76). -/
def capFrames (c : Coord) : Nat := match tier c with | 0 => 8 | 1 => 32 | 2 => 96 | _ => 512

/-- The cap-die offset at which a core's slice begins (R76). -/
def sliceBase (c : Coord) : Nat :=
  match tier c with
  | 0 => (32 * c.row + c.col) * 0x80000
  | 1 => (16 * c.row + c.col) * 0x200000
  | 2 => (8 * c.row + c.col) * 0x600000
  | _ => 0x18000000 + (2 * (c.row - 8) + c.col) * 0x2000000

/-- The top-left core of a core's cluster (R3). -/
def clusterOf (c : Coord) : Coord :=
  if tier c = 3 then Coord.mk c.die 8 0 else Coord.mk c.die (c.row / 2 * 2) (c.col / 4 * 4)

/-- The index of a core in its cluster (R17). -/
def indexIn (c : Coord) : Nat := if tier c = 3 then 2 * (c.row - 8) + c.col else 4 * (c.row % 2) + c.col % 4

/-- The core of an index of a cluster, when there is one (R17). -/
def memberOf (cl : Coord) (i : Nat) : Option Coord :=
  if tier cl = 3 then (if i < 4 then some (Coord.mk cl.die (8 + i / 2) (i % 2)) else none)
  else if i < 8 then some (Coord.mk cl.die (cl.row + i / 4) (cl.col + i % 4)) else none

/-- The cores of a cluster in index order. -/
def clusterCores (cl : Coord) : List Coord := (List.range (clusterSize cl)).filterMap (memberOf cl)

/-- Member `i` of a gang led by `c` (R169). -/
def gangMember (c : Coord) (i : Nat) : Coord := ((memberOf (clusterOf c) (indexIn c + i))).getD c

/-- The core may lead a gang of `n` (R169). -/
def leadsGang (c : Coord) (n : Nat) : Bool :=
  match n with
  | 2 => c.col % 2 == 0
  | 4 => if tier c = 3 then indexIn c == 0 else c.col % 4 == 0
  | 8 => tier c != 3 && indexIn c == 0
  | _ => false

/-- The parent of a core and its child index (R177). -/
def parentOf (c : Coord) : Option (Coord × Nat) :=
  match tierOf c with
  | some 0 =>
    let q := c.die % 4
    some (Coord.mk (12 + c.die / 4) (8 * (q / 2) + c.row / 4) (8 * (q % 2) + c.col / 4),
      4 * (c.row % 4) + c.col % 4)
  | some 1 =>
    some (Coord.mk 15 (c.row / 2) (c.col / 2), 4 * (c.die - 12) + 2 * (c.row % 2) + c.col % 2)
  | some 2 => some (Coord.mk 15 (8 + c.row / 4) (c.col / 4), 4 * (c.row % 4) + c.col % 4)
  | _ => none

/-- Children of a core (R177). -/
def childCount (c : Coord) : Nat := match tier c with | 0 => 0 | 2 => 12 | _ => 16

/-- Child `i` of a core (R177). -/
def childOf (c : Coord) (i : Nat) : Coord :=
  match tier c with
  | 1 =>
    Coord.mk (4 * (c.die - 12) + 2 * (c.row / 8) + c.col / 8) (4 * (c.row % 8) + i / 4) (4 * (c.col % 8) + i % 4)
  | 2 => Coord.mk (12 + i / 4) (2 * c.row + i % 4 / 2) (2 * c.col + i % 2)
  | _ => Coord.mk 15 (4 * (c.row - 8) + i / 4) (4 * c.col + i % 4)

/-- The power-managed links of a die (R119), numbered by the model: 0-15 the bridge toward a die, 4096 + row × 64 + col
the stair link from a core of the die to its parent (log 20). -/
def stairLink (c : Coord) : Nat := 4096 + c.toNat % 4096

/-- Every core of a virtual die, row by row (R2). -/
def coresOfDie (d : Nat) : List Coord :=
  let grid (r0 rows cols : Nat) : List Coord :=
    (List.range rows).flatMap fun r => (List.range cols).map fun k => Coord.mk d (r0 + r) k
  if d < 12 then grid 0 32 32 else if d < 15 then grid 0 16 16 else grid 0 8 8 ++ grid 8 2 2

/-- The clusters of a die and tier, row-major by their top-left core. -/
def clustersOfDie (d t : Nat) : List Coord :=
  (coresOfDie d).filter fun c => tier c == t && clusterOf c == c

/-- The fixed endpoints of R97. -/
def homeAgent (d : Nat) : Coord := Coord.mk d 62 0
def dieScheduler (d : Nat) : Coord := Coord.mk d 62 1
def capPort (d : Nat) : Coord := Coord.mk d 62 2
def fabricPort (k : Nat) : Coord := Coord.mk 0 61 k
def walkers : Coord := Coord.mk 0 63 0
def firmware : Coord := Coord.mk 0 63 1

/-- The coordinate is a fixed endpoint (R97). -/
def fixedEndpoint (c : Coord) : Bool :=
  (c.row == 62 && c.col < 3) || (c.die == 0 && c.row == 61 && c.col < 24) || (c.die == 0 && c.row == 63 && c.col < 2)

/-- CORECFG of a core (R230). -/
def coreConfig (c : Coord) : Word :=
  let mhz := match tier c with | 0 => 1000 | 1 => 1600 | 2 => 2400 | _ => 3200
  word (at_ 48 mhz + at_ 44 (clusterSize c) + at_ 38 (slotCount c) + at_ 28 (capFrames c) + stripes c)

/-- TIERID of a core (R230). -/
def tierId (c : Coord) : Word :=
  match tier c with
  | 0 => word (at_ 48 400 + at_ 32 40 + at_ 16 24 + at_ 8 2)
  | 1 => word (at_ 48 640 + at_ 32 64 + at_ 16 30 + at_ 8 3 + 1)
  | 2 => word (at_ 48 960 + at_ 32 96 + at_ 16 40 + at_ 8 4 + 2)
  | _ => word (at_ 48 1280 + at_ 32 128 + at_ 16 52 + at_ 8 5 + 3)

/-- The PARTW fields of R52 and the first scratchpad stripe of R53. -/
def vrs (p : Word) : Nat := bits p.toNat 51 39
def acs (p : Word) : Nat := bits p.toNat 38 26
def shs (p : Word) : Nat := bits p.toNat 25 13
def sps (p : Word) : Nat := bits p.toNat 12 0
def sb (p : Word) : Nat := vrs p + acs p + shs p

/-- Scratchpad size in bytes (R16, R55). -/
def scratchSize (p : Word) : Nat := 496 * sps p

/-- A valid PARTW for a core (R53). -/
def partwValid (c : Coord) (p : Word) : Bool :=
  bits p.toNat 63 52 == 0 && 2 ≤ vrs p && (shs p == 0 || shs p == acs p) && sb p + sps p ≤ stripes c

/-- The key of byte `o` of a core's pool (R49). -/
def poolKey (c : Coord) (o : Nat) : Nat := Config.poolBase + c.toNat * 2 ^ 24 + o % 2 ^ 24

/-- The key of scratchpad byte offset `o` under a partition (R54). -/
def scratchKey (c : Coord) (p : Word) (o : Nat) : Nat := poolKey c (16 * (31 * sb p) + o)

end Sys2Proof.Machine
end

