-- ==== Sys2Proof/Machine/Ops.lean ====
section
/-! DEFINITION. Sys2Proof/Machine/Ops.lean: memory, slots and registers, messages, taking an exception and returning from it, and the rule by which an instruction issues (R38, R57, R125, R207, R215, R219-R224, R394, R418-R425). -/

namespace Sys2Proof.Machine

/-! ### Memory -/

/-- The byte at a key. -/
def Memory.read (m : List Host.Cell) (k : Nat) : Byte := look Config.unlistedByte m k

/-- The list without a key. -/
def Memory.erase : List Host.Cell → Nat → List Host.Cell
  | [], _ => []
  | c :: r, k => if c.1 = k then Memory.erase r k else c :: Memory.erase r k

/-- A cell put before the first higher key. -/
def Memory.insert (k : Nat) (b : Byte) : List Host.Cell → List Host.Cell
  | [] => [(k, b)]
  | c :: r => if k < c.1 then (k, b) :: c :: r else c :: Memory.insert k b r

/-- One byte written; the canonical form is kept: a byte equal to the unlisted one is not listed. -/
def Memory.write (m : List Host.Cell) (k : Nat) (b : Byte) : List Host.Cell :=
  if b = Config.unlistedByte then Memory.erase m k else Memory.insert k b (Memory.erase m k)

/-- Bytes written at rising keys. -/
def Memory.writeAll (m : List Host.Cell) (k : Nat) : List Byte → List Host.Cell
  | [] => m
  | b :: r => Memory.writeAll (Memory.write m k b) (k + 1) r

/-- The canonical form: keys rise strictly and no cell holds the unlisted byte. -/
def Memory.wf : List Host.Cell → Bool
  | [] => true
  | [c] => c.2 != Config.unlistedByte
  | c :: d :: r => c.2 != Config.unlistedByte && c.1 < d.1 && Memory.wf (d :: r)

/-- The 16-byte granules that `n` bytes from a key touch (R38). -/
def granules (k n : Nat) : List Nat :=
  if n = 0 then [] else (List.range ((k + n - 1) / 16 - k / 16 + 1)).map (k / 16 + ·)

/-- The granules that `n` bytes from a key cover whole. -/
def wholeGranules (k n : Nat) : List Nat := (granules k n).filter fun g => k ≤ 16 * g && 16 * g + 16 ≤ k + n

/-- What encryption puts on a byte: nothing before the keys have been erased, nor outside DRAM; after that what is read of the bytes
written before is no longer what was written (R447). -/
def State.pad (s : State) (k : Nat) : Byte := if s.keys = 0 ∨ 2 ^ 44 ≤ k then 0 else Config.keystream s.keys k

/-- The byte that a read of a key gives. -/
def State.byteAt (s : State) (k : Nat) : Byte := Memory.read s.mem k ^^^ s.pad k

/-- Bytes as they are stored from a key on. -/
def State.sealed (s : State) (k : Nat) (l : List Byte) : List Byte := l.zipIdx.map fun (b, i) => b ^^^ s.pad (k + i)

/-- The `n` bytes at a key. -/
def State.readBytes (s : State) (k n : Nat) : List Byte := (List.range n).map fun i => s.byteAt (k + i)

/-- The number the `n` bytes at a key hold, little-endian (R7). -/
def State.readNat (s : State) (k n : Nat) : Nat := leNat (s.readBytes k n)

/-- A write of data: it clears the tag of every granule it touches (R38) and the poison and the error of every word it covers
(R67). -/
def State.writeBytes (s : State) (k : Nat) (l : List Byte) : State :=
  { s with
    mem := Memory.writeAll s.mem k (s.sealed k l)
    tags := s.tags.filter fun g => !(granules k l.length).contains g
    poison := s.poison.filter fun g => !(wholeGranules k l.length).contains g
    doubleErrors := s.doubleErrors.filter fun g => !(wholeGranules k l.length).contains g }

/-- A write of a number of `n` bytes, little-endian (R7). -/
def State.writeNat (s : State) (k n x : Nat) : State := s.writeBytes k (leBytes n x)

/-- A write of bytes under a mask of enabled bits (R63, R294). -/
def State.writeMasked (s : State) (k : Nat) (data mask : List Byte) : State :=
  let merged := ((s.readBytes k data.length).zip (data.zip mask)).map fun (o, d, e) => (o &&& ~~~e) ||| (d &&& e)
  let touched := (mask.zipIdx.filter fun (e, _) => e != 0).map fun (_, i) => (k + i) / 16
  let covered := (wholeGranules k data.length).filter fun g =>
    (List.range 16).all fun i => nth 0 mask (16 * g + i - k) == 0xFF
  { s with
    mem := Memory.writeAll s.mem k (s.sealed k merged)
    tags := s.tags.filter fun g => !touched.contains g
    poison := s.poison.filter fun g => !covered.contains g
    doubleErrors := s.doubleErrors.filter fun g => !covered.contains g }

/-- The data banks of a parity group (R48). -/
def groupBanks (g : Nat) : List Nat := (List.range (if g = 3 then 7 else 8)).map (8 * g + ·)

/-! ### The requests that accesses make of a pool (R58-R60) -/

/-- The row updates of a list of written words and byte enables, lowest lane first (R63). -/
def rowUpdates (l : List (Nat × Nat)) : List RowUpdate :=
  l.foldl (fun us (w, _) =>
    let row := w / 31
    let g := w % 31 / 8
    if us.any fun u => u.row == row && u.group == g then us
    else
      let mine := l.filter fun (x, _) => x / 31 == row && x % 31 / 8 == g
      let full := (groupBanks g).all fun b => mine.any fun (x, m) => x % 31 == b && m == 0xFFFF
      us ++ [{ row, group := g, banks := (groupBanks g).filter fun b => mine.any fun (x, _) => x % 31 == b, full }]) []

/-- A request enters the queue, at most one of a client in a cycle and in the sequence of the clients; otherwise it enters in a
later cycle, behind what was asked before it (R60). So the start order is that in which the accesses are made (DEDUCED, log 16). -/
def Pool.ask (p : Pool) (q : PoolRequest) : Pool :=
  if p.next.isEmpty && !p.queue.any fun x => x.fresh && q.client ≤ x.client then { p with queue := p.queue ++ [q] }
  else { p with next := p.next ++ [q] }

/-- The pool of a core. -/
def State.poolAt (s : State) (c : Coord) : Pool := look {} s.pools c.toNat
def State.modPool (s : State) (c : Coord) (f : Pool → Pool) : State := { s with pools := put s.pools c.toNat (f (s.poolAt c)) }

/-- A request of a pool, unless it reads and writes nothing. -/
def State.askPool (s : State) (c : Coord) (q : PoolRequest) : State :=
  if q.reads.isEmpty && q.updates.isEmpty then s else s.modPool c (·.ask q)

/-- The pool that holds a key, and the byte of it (R49). -/
def poolOf (k : Nat) : Option (Coord × Nat) :=
  if Config.poolBase ≤ k ∧ k < Config.poolBase + 2 ^ 40 then
    some (BitVec.ofNat 16 ((k - Config.poolBase) / 2 ^ 24), (k - Config.poolBase) % 2 ^ 24)
  else none

/-- A client reads the `n` bytes at a key: a request, when the key is in a pool (R60). -/
def State.poolReads (s : State) (client k n : Nat) : State :=
  match poolOf k with
  | some (c, o) => s.askPool c { client, reads := granules o n }
  | none => s

/-- A client writes, of the `n` bytes at a key, those that `on` enables (R60, R63). -/
def State.poolWrites (s : State) (client k n : Nat) (on : Nat → Bool := fun _ => true) : State :=
  match poolOf k with
  | some (c, o) =>
    let enabled (w i : Nat) : Bool := o ≤ 16 * w + i && 16 * w + i < o + n && on (16 * w + i - o)
    let words := (granules o n).filter fun w => (List.range 16).any (enabled w)
    s.askPool c { client, updates := rowUpdates (words.map fun w => (w, if (List.range 16).all (enabled w) then 0xFFFF else 1)) }
  | none => s

/-- The place of word `w` of a pool among the granules; its parity words, 4 × row + group, stand from word 2^19 on (R48, R49). -/
def poolGranule (c : Coord) (w : Nat) : Nat := poolKey c 0 / 16 + w
def parityGranule (c : Coord) (row g : Nat) : Nat := poolGranule c (2 ^ 19 + 4 * row + g)

/-- The other words of a pool word's group at its row, and its parity word (R48): nothing for memory that is no pool. -/
def groupMates (x : Nat) : List Nat :=
  let base := Config.poolBase / 16
  if base ≤ x ∧ x < base + 2 ^ 36 then
    let c : Coord := BitVec.ofNat 16 ((x - base) / 2 ^ 20)
    let w := (x - base) % 2 ^ 20
    let (row, g) := if w < 2 ^ 19 then (w / 31, w % 31 / 8) else ((w - 2 ^ 19) / 4, w % 4)
    ((groupBanks g).map (fun b => poolGranule c (31 * row + b)) ++ [parityGranule c row g]).filter (· != x)
  else []

/-- A word cannot be read: it is poisoned, or it has a double-bit error and so has another word that its rebuild needs (R67). -/
def State.wordLost (s : State) (x : Nat) : Bool :=
  s.poison.contains x ||
    (s.doubleErrors.contains x && (groupMates x).any fun y => s.doubleErrors.contains y || s.poison.contains y)

/-- The tag of a granule as a read returns it: a rebuilt word has none (R38, R67). -/
def State.tagAt (s : State) (x : Nat) : Bool := s.tags.contains x && !s.doubleErrors.contains x

/-- The 16-byte image and tag of a granule, read in one step (R38). -/
def State.readCap (s : State) (k : Nat) : Cap :=
  { tag := s.tagAt (k / 16), hi := word (s.readNat (k + 8) 8), addr := word (s.readNat k 8) }

/-- The 16-byte image and tag of a granule, written in one step (R38, R48). -/
def State.writeCap (s : State) (k : Nat) (c : Cap) : State :=
  let t := s.writeBytes k (leBytes 8 c.addr.toNat ++ leBytes 8 c.hi.toNat)
  if c.tag then { t with tags := t.tags ++ [k / 16] } else t

/-- Some of the bytes lie in a word that cannot be read (R67). -/
def State.poisonedAt (s : State) (k n : Nat) : Bool := (granules k n).any s.wordLost

/-- Every byte, tag and poison mark of `n` bytes from a key is cleared (R56, R79). -/
def State.clear (s : State) (k n : Nat) : State :=
  { s with
    mem :=
      if s.keys = 0 ∨ 2 ^ 44 ≤ k then s.mem.filter fun c => !(k ≤ c.1 && c.1 < k + n)
      else Memory.writeAll s.mem k (s.sealed k (List.replicate n 0))
    tags := s.tags.filter fun g => !(k ≤ 16 * g && 16 * g < k + n)
    poison := s.poison.filter fun g => !(k ≤ 16 * g && 16 * g < k + n)
    doubleErrors := s.doubleErrors.filter fun g => !(k ≤ 16 * g && 16 * g < k + n) }

/-! ### Cores, slots, clusters, dies, jobs -/

def State.coreAt (s : State) (c : Coord) : Core := look {} s.cores c.toNat
def State.setCore (s : State) (c : Coord) (x : Core) : State := { s with cores := put s.cores c.toNat x }
def Core.slotAt (x : Core) (i : Nat) : Slot := look {} x.slots i
def Core.setSlot (x : Core) (i : Nat) (y : Slot) : Core := { x with slots := put x.slots i y }
def State.slotAt (s : State) (c : Coord) (i : Nat) : Slot := (s.coreAt c).slotAt i
def State.setSlot (s : State) (c : Coord) (i : Nat) (y : Slot) : State := s.setCore c ((s.coreAt c).setSlot i y)
def State.clusterAt (s : State) (c : Coord) : Cluster := look {} s.clusters (clusterOf c).toNat
def State.setCluster (s : State) (c : Coord) (x : Cluster) : State :=
  { s with clusters := put s.clusters (clusterOf c).toNat x }
def State.dieAt (s : State) (d : Nat) : Die := look {} s.dies d
def State.setDie (s : State) (d : Nat) (x : Die) : State := { s with dies := put s.dies d x }
def State.jobAt (s : State) (n : Nat) : Job := look {} s.jobs n
def State.setJob (s : State) (n : Nat) (x : Job) : State := { s with jobs := put s.jobs n x }

/-- The issuing core and slot. -/
def State.cr (s : State) : Core := s.coreAt s.core
def State.setCr (s : State) (x : Core) : State := s.setCore s.core x
def State.sl (s : State) : Slot := s.slotAt s.core s.slot
def State.setSl (s : State) (x : Slot) : State := s.setSlot s.core s.slot x
def State.modSl (s : State) (f : Slot → Slot) : State := s.setSl (f s.sl)
def State.modCr (s : State) (f : Core → Core) : State := s.setCr (f s.cr)
def State.modCore (s : State) (c : Coord) (f : Core → Core) : State := s.setCore c (f (s.coreAt c))
def State.modSlot (s : State) (c : Coord) (i : Nat) (f : Slot → Slot) : State := s.setSlot c i (f (s.slotAt c i))

/-- The job of the issuing thread: its own, or the owner job for a handler (R299, R407). -/
def State.jobNo (s : State) : Nat := s.sl.mem.job
def State.job (s : State) : Job := s.jobAt s.jobNo

/-- The issuing slot is the handler slot (R160). -/
def State.inHandler (s : State) : Bool := s.slot == 0

/-- The virtual die has a physical die (R28). -/
def State.dieLive (s : State) (d : Nat) : Bool := !(s.dieAt d).offline

/-- The physical die of a virtual die (R28). -/
def State.physical (s : State) (d : Nat) : Nat := (s.dieAt d).physical.getD d

/-- The virtual die that names a physical one. -/
def State.virtualOf (s : State) (p : Nat) : Nat :=
  (findBelow 16 fun d => s.dieLive d && s.physical d == p).getD p

/-! ### Registers -/

/-- g register `r` of the issuing slot. -/
def State.g (s : State) (r : GReg) : Cap := look {} s.sl.g r.toNat

/-- Its address field. -/
def State.ga (s : State) (r : GReg) : Word := (s.g r).addr

/-- All 129 bits of a g register written. -/
def State.setG (s : State) (r : GReg) (c : Cap) : State := s.modSl fun x => { x with g := put x.g r.toNat c }

/-- WriteInt (R259). -/
def State.writeInt (s : State) (r : GReg) (w : Word) : State := s.setG r (Cap.ofWord w)

/-- The member cores of the issuing thread: its own, or those of the gang in force (R169-R171). -/
def State.members (s : State) : List Coord := (List.range s.sl.gang.size).map (gangMember s.core)

/-- v register `r` across the members, member 0 lowest (R171, R207). -/
def State.vec (s : State) (r : Nat) : Nat :=
  joinBits 512 (s.members.map fun c => (look 0 (s.slotAt c s.slot).v r).toNat)

/-- k register `r` across the members; k0 reads as all ones (R206). -/
def State.pred (s : State) (r : Nat) : Nat :=
  if r = 0 then 2 ^ (16 * s.sl.gang.size) - 1
  else joinBits 16 (s.members.map fun c => (look 0 (s.slotAt c s.slot).k r).toNat)

/-- The parts of a value, one per member. -/
def vecParts (n x : Nat) : List VReg := (splitBits 512 n x).map (BitVec.ofNat 512)
def predParts (n x : Nat) : List (BitVec 16) := (splitBits 16 n x).map (BitVec.ofNat 16)

/-- Member values written, one slot of each member core. -/
def State.writeMembers (s : State) {α : Type} (f : Slot → α → Slot) (l : List α) : State :=
  (l.zipIdx).foldl (fun t (x, i) => t.modSlot (gangMember s.core i) s.slot fun y => f y x) s

/-- The first word of a slot's frame in the vector-register area, which begins at word 0 of the pool (R53, R57). -/
def Slot.frameAt (y : Slot) (i : Nat) : Option Nat := if i = 0 then some 0 else y.frame

/-- The words of register vj: F + 4j to F + 4j + 3 (R57). -/
def frameWord (f j : Nat) : List Nat := (List.range 4).map (f + 4 * j + ·)

/-- The words of its mirror copy, when it has one: from F + 4Q + 16 + 4j (R58). -/
def Slot.mirrorWord (y : Slot) (f j : Nat) : List Nat :=
  if y.mirmask.getLsbD j then (List.range 4).map (f + 4 * y.quota + 16 + 4 * j + ·) else []

/-- The granules of vj in slot `i` of a core, and those of its copy. -/
def State.vecWords (s : State) (c : Coord) (i j : Nat) : List Nat :=
  ((s.slotAt c i).frameAt i).toList.flatMap fun f => (frameWord f j).map (poolGranule c)
def State.vecCopy (s : State) (c : Coord) (i j : Nat) : List Nat :=
  ((s.slotAt c i).frameAt i).toList.flatMap fun f => ((s.slotAt c i).mirrorWord f j).map (poolGranule c)

/-- The least of some numbers, when there is one. -/
def least : List Nat → Option Nat
  | [] => none
  | x :: r => some (r.foldl min x)

/-- Word `w` of vj across the gang (R57, R171): nothing where the slot has no frame. -/
def State.vecGranule (s : State) (j w : Nat) : Option Nat := (s.vecWords (gangMember s.core (w / 4)) s.slot j)[w % 4]?

/-- The lowest member with a word that cannot be read, among words of v registers by register and number (R57, R67, R172). -/
def State.lostMember (s : State) (l : List (Nat × Nat)) : Option Nat :=
  if s.poison.isEmpty && s.doubleErrors.isEmpty then none
  else least ((l.filter fun (j, w) => (s.vecGranule j w).any s.wordLost).map fun (_, w) => w / 4)

/-- The pool words of vj in member `m` of the issuing slot's gang, as first words: the original, and its copy (R57, R58). -/
def State.memberBlock (s : State) (j m : Nat) : Option (Nat × Option Nat) :=
  let c := gangMember s.core m
  let y := s.slotAt c s.slot
  (y.frameAt s.slot).map fun f => (f + 4 * j, (y.mirrorWord f j).head?)

/-- THE REGISTER FILE'S READ of an instruction, of words of v registers by register and number across the gang: one request of
each member's pool, which delays the issuing thread (R58, R59). -/
def State.fileReads (s : State) (l : List (Nat × Nat)) : State :=
  (List.range s.sl.gang.size).foldl (fun t m =>
    let blocks := (l.filter fun (_, w) => w / 4 == m).filterMap fun (j, w) => (s.memberBlock j m).map fun b => (b, w % 4)
    t.askPool (gangMember s.core m)
      { client := 0, thread := some (s.core, s.slot), reads := (blocks.map fun (b, w) => b.1 + w).eraseDups
        copies := (blocks.filterMap fun (b, _) => b.2.map fun c => (b.1 / 4, c)).eraseDups }) s

/-- THE REGISTER FILE'S WRITEBACK of an instruction: the words of its v destinations, whole or in part, and their copies (R58,
R59, R63). -/
def State.fileWrites (s : State) (regs : List Nat) (bare part : List (Nat × Nat)) : State :=
  (List.range s.sl.gang.size).foldl (fun t m =>
    let words := regs.flatMap fun j =>
      ((List.range 4).filter fun i => !bare.contains (j, 4 * m + i) || part.contains (j, 4 * m + i)).flatMap
      fun i => ((s.memberBlock j m).toList.flatMap fun (b, c) => b :: c.toList).map fun b =>
        (b + i, if bare.contains (j, 4 * m + i) then 1 else 0xFFFF)
    t.askPool (gangMember s.core m) { client := 0, thread := some (s.core, s.slot), updates := rowUpdates words }) s

/-- The slots of a core that a request of the register file delays (R59). -/
def State.filing (s : State) (c : Coord) : List Nat :=
  (clusterCores (clusterOf c)).flatMap fun m => ((s.poolAt m).queue ++ (s.poolAt m).next).filterMap fun q =>
    q.thread.bind fun (d, i) => if d = c then some i else none

/-- The four words of vj of every member of a gang of `g`. -/
def wholeVec (g j : Nat) : List (Nat × Nat) := (List.range (4 * g)).map fun w => (j, w)

/-- The elements of a v register that an instruction reads or writes: their size in half bytes, and which they are, numbered
across the gang (R207, R328). -/
structure Span where
  reg : Nat
  halves : Nat
  on : Nat → Bool

/-- The elements in word `w` of the register. -/
def Span.elements (x : Span) (w : Nat) : List Nat := (List.range (32 / x.halves)).map (32 / x.halves * w + ·)

/-- The words with an element of the span, and those that the span does not cover whole, in a gang of `g`. -/
def Span.touched (g : Nat) (x : Span) : List (Nat × Nat) := (wholeVec g x.reg).filter fun (_, w) => (x.elements w).any x.on
def Span.bare (g : Nat) (x : Span) : List (Nat × Nat) := (wholeVec g x.reg).filter fun (_, w) => !(x.elements w).all x.on

/-- A write of vj in the first `g` members writes both copies of every word but those of `bare`, which clears their errors and
their poison (R58, R67). -/
def State.scrubVec (s : State) (g j : Nat) (bare : List (Nat × Nat)) : State :=
  let whole := (wholeVec g j).filter fun e => !bare.contains e
  let written := whole.flatMap fun (_, w) =>
    let c := gangMember s.core (w / 4)
    ((s.vecWords c s.slot j)[w % 4]?).toList ++ ((s.vecCopy c s.slot j)[w % 4]?).toList
  { s with
    poison := s.poison.filter fun x => !written.contains x
    doubleErrors := s.doubleErrors.filter fun x => !written.contains x }

/-- v register `r` written in every member, the words of `bare` in part or not at all (R57, R58, R328). -/
def State.setVec (s : State) (r : Nat) (l : List VReg) (bare : List (Nat × Nat) := []) : State :=
  (s.writeMembers (fun y x => { y with v := put y.v r x }) l).scrubVec s.sl.gang.size r bare

/-- k register `r` written in every member; a write to k0 is discarded (R206). -/
def State.setPred (s : State) (r : Nat) (l : List (BitVec 16)) : State :=
  if r = 0 then s else s.writeMembers (fun y x => { y with k := put y.k r x }) l

/-- The binding and the entries of a port register (R209). -/
def Core.port (x : Core) (p : Nat) : Port := look {} x.ports p
def Core.setPort (x : Core) (p : Nat) (q : Port) : Core := { x with ports := put x.ports p q }

/-- Entries of a port in use: those in it, and those that instructions which await replies have read (R209, R331). -/
def Core.portUse (x : Core) (p : Nat) : Nat :=
  (x.port p).q.length + (x.slots.map fun (_, y) => match y.pend with
    | some d => (d.taken.filter (·.1 == p)).length
    | none => 0).foldl (· + ·) 0

/-- View register of the issuing slot (R210). -/
def State.view (s : State) (b : Nat) : BitVec 576 := look 0 s.sl.b b
def State.setView (s : State) (b : Nat) (x : BitVec 576) : State := s.modSl fun y => { y with b := put y.b b x }

/-! ### Messages -/

/-- A message of class ENG, which an engine sends (R101, R105). -/
def Flight.isEngine (f : Flight) : Bool := 0x70 ≤ f.op && f.op < 0xC0

/-- The messages in the send queue of a unit or of the message unit of a core, and those in that of the engine there (R111). -/
def State.unitQueue (s : State) (c : Coord) : List Flight := s.net.filter fun f => f.src == c && f.via == .source && !f.isEngine
def State.engineQueue (s : State) (c : Coord) : List Flight := s.net.filter fun f => f.src == c && f.via == .source && f.isEngine

/-- A message enters a send queue: that of the thread or handler which sends it, or of its unit or engine (R99-R101, R111). -/
def State.sent (s : State) (f : Flight) : Flight := { f with ts := s.ts, via := if f.via == .mesh then .source else f.via }
def State.post (s : State) (f : Flight) : State := { s with net := s.net ++ [s.sent f] }

/-- Entries of a send queue now held (R111). -/
def State.sendQueue (s : State) (c : Coord) (handler : Bool) : List Flight :=
  s.net.filter fun f => f.src == c && match f.via with
    | .thread _ => !handler
    | .handler => handler
    | _ => false

/-- The spare room of a queue is open: one entry more (R112, R114). -/
def Messages.spareRoom (m : Messages) (q : Nat) : Nat := b2n (m.spare.contains q)

/-- The thread send queue of a core has room: 16 entries, and the spare room while it is open (R111, R112). -/
def State.threadRoom (s : State) (c : Coord) : Bool :=
  (s.sendQueue c false).length < 16 + (s.coreAt c).msg.spareRoom 4

/-- The handler send queue of a core has a free entry for a reply: 8 entries, and the spare room while it is open
(R111, R112, R116, R117). -/
def State.replyRoom (s : State) (c : Coord) : Bool := (s.sendQueue c true).length < 8 + (s.coreAt c).msg.spareRoom 5

/-- The entries that a handler's further REQ, ENG and SYS sends may take: 6 of the 8 are theirs (R116). -/
def State.handlerRoom (s : State) (c : Coord) : Nat :=
  let l := s.sendQueue c true
  min (6 - (l.filter fun f => !(0x40 ≤ f.op && f.op < 0x60)).length) (8 - l.length)

/-- Room for one more send of the issuing slot: that of the thread send queue, 6 for a handler's requests, and all of its
queue for its replies (R111, R116). -/
def State.sendRoom (s : State) (reply : Bool) : Bool :=
  if s.inHandler then (if reply then s.replyRoom s.core else s.handlerRoom s.core != 0) else s.threadRoom s.core

/-- An engine's send queue has room for `n` more messages (R111; 16 entries, log 12). -/
def State.engineRoom (s : State) (c : Coord) (n : Nat) : Bool :=
  (s.engineQueue c).length + n ≤ 16 + (s.coreAt c).msg.spareRoom 64

/-- A queue of an endpoint has room now (R113). -/
def Core.roomNow (x : Core) (q : Nat) (ts : Word) : Core := { x with msg := { x.msg with roomAt := put x.msg.roomAt q ts.toNat } }

/-- The handler slot of a core takes no message now, though no handler runs in it that goes on: the core is halted, or its
handler is in the trap routine of a send-queue-full trap (R128, R400). -/
def Core.handlerStopped (x : Core) : Bool :=
  let y := x.slotAt 0
  if x.msg.handling.isSome then (y.inUser || y.inSystem) && y.sys.ecause.toNat % 256 == 0x0D else x.halted

/-- The handler slot goes on, if it was stopped: what waited for it is blocked no longer (R113, R128). -/
def Core.slotGoes (x y : Core) (ts : Word) : Core := if x.handlerStopped && !y.handlerStopped then y.roomNow 7 ts else y

/-- The send queue of the issuing slot. -/
def State.via (s : State) : Via := if s.inHandler then .handler else .thread s.slot

/-- A record message to the firmware service queue (R425, R448). -/
def State.report (s : State) (src : Coord) (e : Entry) : State :=
  s.post { dst := firmware, src, op := 0xC6, pay := .entry e }

/-- A fault record (R425). -/
def faultRecord (rkind cause : Nat) (c : Coord) (slot : Nat) (gen : BitVec 10) (job : Nat) (ts epc eaddr : Word) : Entry :=
  BitVec.ofNat 512 (at_ 504 rkind + at_ 496 cause + at_ 480 c.toNat + at_ 475 slot + at_ 465 gen.toNat +
    at_ 416 (job % 2 ^ 32) + at_ 352 ts.toNat + at_ 288 epc.toNat + at_ 224 eaddr.toNat)

/-- An error record of a unit: RKIND 0x01, cause, coordinate and time (R101, R448; layout log 12). -/
def errorRecord (cause : Nat) (c : Coord) (ts : Word) : Entry :=
  BitVec.ofNat 512 (at_ 504 1 + at_ 496 cause + at_ 480 c.toNat + at_ 352 ts.toNat)

/-! ### Hazards (R215, R219-R223) -/

/-- The producer writes the register of a keep entry. -/
def Producer.writesReg (p : Producer) (e : Bool × Nat) : Bool :=
  if e.1 then p.vs.any (fun x => x.1 == e.2) else p.gs.any (fun x => x.1 == e.2)

/-- A result lands: every destination at once, and the keep buffer forgets the registers written (R220, R222). -/
def State.land (s : State) (p : Producer) : State :=
  let s := p.vs.foldl (fun t (r, l) => t.setVec r l p.bare) s
  let s := p.gs.foldl (fun t (r, c) => t.setG (BitVec.ofNat 5 r) c) s
  let s := p.ks.foldl (fun t (r, l) => t.setPred r l) s
  let s := s.fileWrites (p.vs.map (·.1)) p.bare p.part
  s.modSl fun x => { x with keep := x.keep.filter (fun e => !p.writesReg e) }

def State.landAll (s : State) (l : List Producer) : State := l.foldl State.land s

/-- What an instruction names, for the checks of decode and issue (R164, R208, R216, R220, R224). -/
structure Uses where
  gr : List Nat := []
  gw : List Nat := []
  /-- v registers read and written: first register and count -/
  vr : List (Nat × Nat) := []
  vw : List (Nat × Nat) := []
  kr : List Nat := []
  kw : List Nat := []
  /-- it names a b register or a p register of its own core (R164) -/
  ownOnly : Bool := false
  /-- it is a vector access or otherwise barred to a wayfarer with register bounds (R164, R294) -/
  noWayfarer : Bool := false
  /-- an 80-bit producer's LA and PK -/
  prod : Option (Nat × Bool) := none
  fresh : List (RegKind × Nat × Nat) := []
  keep : List (Bool × Nat) := []
  sysOnly : Bool := false
  /-- TSYNC or SAFEPT -/
  sync : Bool := false
  /-- v registers and tiles an engine command leases -/
  leaseV : List Nat := []
  leaseT : List Nat := []
  /-- an operand field is malformed -/
  bad : Bool := false
deriving DecidableEq, Repr

/-- Operand shapes of the 32-bit forms: destinations, then sources. -/
def usesG (gw gr : List GReg) : Uses := { gw := gw.map (·.toNat), gr := gr.map (·.toNat) }

/-- The registers of a list of groups. -/
def spread (l : List (Nat × Nat)) : List Nat := l.flatMap fun (b, n) => (List.range n).map (b + ·)

/-- The instruction writes a destination of `p`. -/
def Uses.writes (u : Uses) (p : Producer) : Bool :=
  p.vs.any (fun (r, _) => (spread u.vw).contains r) || p.gs.any (fun (r, _) => u.gw.contains r) ||
  p.ks.any (fun (r, _) => u.kw.contains r)

/-- The instruction reads a destination of `p` fresh. -/
def Uses.readsFresh (u : Uses) (p : Producer) : Bool :=
  u.fresh.any fun (kind, b, n) =>
    let inGroup (r : Nat) : Bool := b ≤ r && r < b + n
    match kind with
    | .v => p.vs.any fun (r, _) => inGroup r
    | .g => p.gs.any fun (r, _) => inGroup r
    | .k => p.ks.any fun (r, _) => inGroup r

/-- An engine command leases a destination of `p`. -/
def Uses.leases (u : Uses) (p : Producer) : Bool := p.vs.any fun (r, _) => u.leaseV.contains r

/-- The scan of IssueCheck over the unlanded 80-bit producers, oldest first: those that land and those that stay,
or the illegal operand of R220. -/
def issueScan (u : Uses) : List Producer → Option (List Producer × List Producer)
  | [] => some ([], [])
  | p :: r =>
    if p.rem > 0 then
      if u.writes p then none
      else
        match issueScan u r with
        | none => none
        | some (l, k) => if u.leases p then some (p :: l, k) else some (l, p :: k)
    else
      match issueScan u r with
      | none => none
      | some (l, k) =>
        if !p.pk || u.readsFresh p || u.writes p || u.leases p || u.sync then some (p :: l, k) else some (l, p :: k)

/-- The limit of seven unlanded producers with PK = 1 (R220). -/
def issueLimit (u : Uses) (x : List Producer × List Producer) : Option (List Producer × List Producer) :=
  match u.prod with
  | some (_, true) =>
    if (x.2.filter (·.pk)).length < 7 then some x
    else
      match x.2.find? fun p => p.pk && p.rem == 0 with
      | some p => some (x.1 ++ [p], dropFirst (fun q => q.pk && q.rem == 0) x.2)
      | none => none
  | _ => some x

/-- IssueCheck (R220): what lands before the instruction and what stays unlanded. -/
def issueCheck (u : Uses) (haz : List Producer) : Option (List Producer × List Producer) :=
  match issueScan u haz with
  | none => none
  | some x =>
    match issueLimit u x with
    | none => none
    | some (l, k) => if u.sync then some (l ++ k, []) else some (l, k)

/-! ### Taking an exception (R418-R422) -/

/-- The EVEC a thread's traps use: a wayfarer's is the job's (R165). -/
def State.evec (s : State) : Word := if s.sl.wayfarer then s.job.evec else s.sl.sys.evec

/-- The level that takes a trap: true is system; none is an unhandled trap (R418). -/
def trapLevel (x : Slot) (evec : Word) (cause : Nat) : Option Bool :=
  let uvec := bits evec.toNat 31 0
  let svec := bits evec.toNat 63 32
  if cause = 0x15 then (if svec ≠ 0 ∧ !x.inSystem then some true else none)
  else if !x.priv ∧ uvec ≠ 0 ∧ !x.inUser then some false
  else if svec ≠ 0 ∧ !x.inSystem then some true
  else none

/-- The job's code capability at a byte offset from its base (R405, R418); no PC has bit 0 set (R212). -/
def codeAt (j : Job) (off : Nat) : Cap := { j.code with addr := word ((j.code.bounds.1.toNat + off) / 2 * 2) }

/-- EVEC as it reads: bits 32 and 0 are 0 (R231). -/
def cleanEvec (x : Word) : Word := word (at_ 33 (bits x.toNat 63 33) + 2 * bits x.toNat 31 1)

/-- Slot 0 is free for the next message: the handler in it has ended (R300, R422). -/
def State.endHandler (s : State) (c : Coord) : State :=
  s.modCore c fun x =>
    x.slotGoes { x.setSlot 0 { gen := (x.slotAt 0).gen } with msg := { x.msg with handling := none } } s.ts

/-- An unhandled trap (R422): it freezes a thread, whose gang disbands (R172), and ends a handler, whose requester receives NAK reason 2. -/
def State.unhandled (s : State) (cause : Nat) (epc eaddr : Word) : State :=
  if s.inHandler then
    let t := s.report s.core (faultRecord 0x12 cause s.core 0 s.sl.gen s.jobNo s.ts epc eaddr)
    let t := match s.cr.msg.handling with
      | some f =>
        if f.rq then t.post { dst := f.src, src := s.core, op := 0x43, tag := f.tag, pay := .reason 2 } else t
      | none => t
    t.endHandler s.core
  else
    (s.report s.core (faultRecord 0x10 cause s.core s.slot s.sl.gen s.jobNo s.ts epc eaddr)).modSl fun x =>
      { x with st := .frozen, await := .none, pend := none, gang := { x.gang with size := 1 } }

/-- The slot in the trap routine of a level (R419, steps 2 to 5; R420). DESIGN CHOICE (log 35): an access that was refused a
migration may migrate when it issues again after the routine's ERET (R168). -/
def enterTrap (x : Slot) (j : Job) (evec : Word) (sys : Bool) (ecause epc eaddr : Word) : Slot :=
  let saved : TrapState :=
    { hi := x.pc.hi, priv := x.priv, inUser := x.inUser, ecause := x.sys.ecause, epc := x.sys.epc
      eaddr := x.sys.eaddr, haz := x.haz }
  let y := if sys then { x with trapSystem := saved, inSystem := true } else { x with trapUser := saved, inUser := true }
  { y with
    haz := [], keep := [], st := .ready, await := .none, pend := none, priv := sys, noMigrate := false
    sys := { x.sys with epc, ecause, eaddr }
    gang := { x.gang with size := 1 }
    pc := codeAt j (if sys then bits evec.toNat 63 32 else bits evec.toNat 31 0) }

/-- TAKING AN EXCEPTION (R418-R422): the one operation by which every trap of a thread or handler is taken. EPC and
EADDR are the caller's, by R421; `asy` is ECAUSE.ASY. -/
def State.takeTrap (s : State) (cause : Nat) (epc eaddr : Word) (asy : Bool := false) : State :=
  match trapLevel s.sl s.evec cause with
  | none => s.unhandled cause epc eaddr
  | some sys => s.modSl fun x => enterTrap x s.job s.evec sys (word (cause + at_ 8 (b2n asy))) epc eaddr

/-- The target of ERET, formed from the trap state it leaves and EPC (R394, step 2). -/
def eretTarget (x : Slot) : Cap :=
  let st := if x.priv then x.trapSystem else x.trapUser
  let a := word (x.sys.epc.toNat / 2 * 2)
  { tag := bits a.toNat 63 60 == 0 && inRoam a.toNat st.hi.toNat a.toNat, hi := st.hi, addr := a }

/-- RETURN FROM AN EXCEPTION (R394, steps 4 and 5; R419): the interrupted level finds its PC, its EPC, ECAUSE and
EADDR, its privilege and its hazard state again. -/
def leaveTrap (x : Slot) (target : Cap) : Slot :=
  let st := if x.priv then x.trapSystem else x.trapUser
  let y := if x.priv then { x with inSystem := false, trapSystem := {} } else { x with inUser := false, trapUser := {} }
  { y with
    pc := target, haz := st.haz, keep := [], priv := st.priv
    inUser := if x.priv then st.inUser else false
    sys := { x.sys with epc := st.epc, ecause := st.ecause, eaddr := st.eaddr } }

/-! ### Issue -/

/-- What an instruction's own effect comes to. -/
inductive Ret where
  /-- it retires; an 80-bit producer leaves its result to land -/
  | done (t : State) (p : Option Producer := none)
  /-- it retires and transfers control -/
  | jump (t : State) (pc : Cap)
  /-- a precise trap at the instruction -/
  | trap (t : State) (cause : Nat) (eaddr : Word)
  /-- it retires, and the trap's EPC names the next instruction (R421, R423) -/
  | trapNext (t : State) (cause : Nat) (eaddr : Word) (asy : Bool) (p : Option Producer := none)
  /-- it has not retired: the slot is Stalled or Waiting and issues or completes later -/
  | stay (t : State)
  /-- the thread or handler has left the slot -/
  | gone (t : State)

/-- A slot after it has retired an instruction of `len` bytes: windows count down and the PC moves on (R219). -/
def retireSlot (x : Slot) (len : Nat) (keep : List (Bool × Nat)) (p : Option Producer) : Slot :=
  { x with
    pc := { x.pc with addr := x.pc.addr + word len }
    haz := x.haz.map (fun q => { q with rem := q.rem - 1 }) ++ p.toList
    keep, await := .none, noMigrate := false
    pend := none, st := .ready }

/-- The keep buffer after an instruction (R222): a register read from it leaves it unless kept again, a register
written leaves it, and a kept register enters as the youngest of three. -/
def keepAfter (u : Uses) (keep : List (Bool × Nat)) : List (Bool × Nat) :=
  let used := (spread (u.vr ++ u.vw)).map (fun r => (true, r)) ++ (u.gr ++ u.gw).map (fun r => (false, r)) ++
    u.leaseV.map (fun r => (true, r))
  let all := keep.filter (fun e => !used.contains e && !u.keep.contains e) ++ u.keep
  all.drop (all.length - 3)

/-- The issuing slot retires. -/
def State.retire (s : State) (len : Nat) (u : Uses) (p : Option Producer) : State :=
  s.modSl fun x => retireSlot x len (keepAfter u x.keep) p

/-- The job whose lease a register or tile that the instruction names, or a register that a result lands in before it, stands
under (R223): its id and KIND. -/
def State.leaseOn (s : State) (u : Uses) (landing : List Producer) : Option EngineJob :=
  let names := spread (u.vr ++ u.vw) ++ u.leaseV ++ landing.flatMap fun p => p.vs.map (·.1)
  s.cr.eng.jobs.find? fun j =>
    (j.slot == s.slot && j.gen == s.sl.gen && j.leasedV.any names.contains) || j.leasedT.any u.leaseT.contains

/-- Register bounds (R164, R208). -/
def outOfBounds (x : Slot) (u : Uses) : Bool :=
  (u.vr ++ u.vw ++ u.leaseV.map (·, 1)).any (fun (b, n) => x.quota < b + n) ||
  (x.wayfarer && ((u.gr ++ u.gw).any (16 ≤ ·) || (u.kr ++ u.kw).any (· ≠ 0) || u.ownOnly || u.noWayfarer))

/-- A register group whose base is no multiple of its size (R208). -/
def misaligned (u : Uses) : Bool := (u.vr ++ u.vw).any fun (b, n) => n > 1 && b % n != 0

/-- A trap that an element of a gang member raises is the gang's (R172). -/
def memberFault (member cause : Nat) (addr : Word) : Nat × Word :=
  if member = 0 then (cause, addr) else (0x0F, word (at_ 8 cause + member))

/-- THE READ OF V REGISTERS: an instruction that reads the words `l` and else comes to `r`. A word that cannot be read is home
lost, with EADDR zero for want of an address (R67; log 16), and a follower's is the gang's trap (R172). -/
def State.reading (s : State) (l : List (Nat × Nat)) (r : Ret) : Ret :=
  match s.lostMember l with
  | some m => let (cause, eaddr) := memberFault m 0x10 0; .trap s cause eaddr
  | none => r

/-- What becomes of the state once the instruction's effect is known. -/
def settle (len : Nat) (u : Uses) : Ret → State
  | .done t p => t.retire len u p
  | .jump t pc => (t.retire len u none).modSl fun x => { x with pc }
  | .trap t cause eaddr => t.takeTrap cause t.sl.pc.addr eaddr
  | .trapNext t cause eaddr asy p =>
    let r := t.retire len u p
    r.takeTrap cause r.sl.pc.addr eaddr asy
  | .stay t => t.modSl fun x => { x with keep := keepAfter u x.keep }
  | .gone t => t

/-- THE ISSUE OF AN INSTRUCTION: the decode checks of R224 in their order, IssueCheck (R220), the landing of results,
then its own effect. `pre` gives the malformed operands that are found in register values. A trap of the checks lands
nothing (log 13). -/
def issueState (s : State) (len : Nat) (u : Uses) (pre : State → Option Nat) (body : State → Ret) : State :=
  if u.sysOnly && !s.sl.priv then s.takeTrap 0x01 s.sl.pc.addr s.fetched
  else if u.bad || misaligned u then s.takeTrap 0x02 s.sl.pc.addr 0
  else
    match issueCheck u s.sl.haz with
    | none => s.takeTrap 0x02 s.sl.pc.addr 0
    | some (landing, kept) =>
      let t := (s.landAll landing).modSl fun x => { x with haz := kept }
      match pre t with
      | some cause => s.takeTrap cause s.sl.pc.addr 0
      | none =>
        if outOfBounds s.sl u then s.takeTrap 0x03 s.sl.pc.addr 0
        else
          match s.leaseOn u landing with
          | some j => s.takeTrap 0x04 s.sl.pc.addr (word (j.id + at_ 8 j.kind))
          | none => settle len u (body t)

/-- No malformed operand stands in a register value. -/
def noPre (_ : State) : Option Nat := none

/-- The issue of an instruction, as an answer of the machine. -/
def issue (s : State) (len : Nat) (u : Uses) (body : State → Ret) : Answer := .next (issueState s len u noPre body)

/-- The same with a check of operands found in registers. -/
def issuePre (s : State) (len : Nat) (u : Uses) (pre : State → Option Nat) (body : State → Ret) : Answer :=
  .next (issueState s len u pre body)

/-- An instruction that is no instruction at this privilege or with this operand (R224, R229). -/
def illegal (t : State) : Ret := .trap t 0x01 t.fetched

/-- The slot waits, with the instruction still to retire (R161). -/
def State.awaiting (s : State) (st : SlotState) (w : Await) : State := s.modSl fun x => { x with st, await := w }

/-- Slots of a core that wait for what `p` names become Ready and issue their instruction afresh. -/
def State.wake (s : State) (c : Coord) (p : Await → Bool) : State :=
  s.modCore c fun x =>
    { x with slots := x.slots.map fun (i, y) =>
        if (y.st == .waiting || y.st == .stalled) && p y.await then (i, { y with st := .ready }) else (i, y) }

/-- The reason that a WAIT reports: every condition that holds (R277). -/
def waitReason (x : Core) (now deadline : Nat) (w : BitVec 2) : Nat :=
  b2n (deadline ≤ now) + 2 * b2n (w.getLsbD 0 && !x.msg.pigeonhole.isEmpty) +
  4 * b2n (w.getLsbD 1 && x.ports.any fun (_, p) => p.bind == .mailbox && !p.q.isEmpty)

/-- A WAIT whose condition has come retires: its register takes the reason, every condition that holds now (R277). -/
def Slot.endWait (x : Core) (now : Nat) (y : Slot) : Slot :=
  match y.st, y.await with
  | .waiting, .wait d deadline w =>
    let r := waitReason x now deadline w
    if r = 0 then y else retireSlot { y with g := put y.g d.toNat (Cap.ofWord (word r)) } 4 y.keep none
  | _, _ => y

/-- The WAITs of a core are looked at: an entry or a mailbox value has come (R277). -/
def State.wakeWaits (s : State) (c : Coord) : State :=
  s.modCore c fun x => { x with slots := x.slots.map fun (i, y) => (i, y.endWait x s.ts.toNat) }

/-- The slots of a core that stand Stalled for room try again. -/
def State.wakeRoom (s : State) (c : Coord) : State := s.wake c (· == .room)

/-- The lowest Waiting reader of a port becomes Ready (R302). -/
def State.wakeReader (s : State) (c : Coord) (p : Nat) : State :=
  let waits (i : Nat) : Bool := (s.slotAt c i).st == .waiting && (s.slotAt c i).await == .port p
  match findBelow (slotCount c) waits with
  | some i => s.modSlot c i fun y => { y with st := .ready }
  | none => s

/-- Port entries go back to the heads of their ports: the instruction that read them has not been performed (R331). -/
def State.returnEntries (s : State) (c : Coord) (l : List (Nat × Entry)) : State :=
  l.foldl (fun t (p, e) => (t.modCore c fun x => x.setPort p { x.port p with q := e :: (x.port p).q }).wakeReader c p) s

end Sys2Proof.Machine
end

