-- ==== Sys2Proof/Machine/SysReg.lean ====
section
/-! DEFINITION. Sys2Proof/Machine/SysReg.lean: the system registers and a core's control space (R120, R127, R162, R178, R229-R232, R437). -/

namespace Sys2Proof.Machine

/-- A listed system-register number (R229). -/
def listedRegister (n : Nat) : Bool :=
  n ≤ 7 || (0x10 ≤ n && n ≤ 0x13) || n == 0x18 || n == 0x19 || (0x20 ≤ n && n ≤ 0x27) || (0x40 ≤ n && n ≤ 0x45) ||
  n == 0x50 || n == 0x51

/-- A number that user privilege may name (R229). -/
def userRegister (n : Nat) : Bool := listedRegister n && n != 0x44 && n != 0x45

/-- REGQ of a slot (R162). -/
def regQ (x : Slot) : Word := word (at_ 7 (b2n x.wayfarer) + (if x.wayfarer then 0 else x.quota))

/-- The pages, named at 64 KiB, whose misses the slots of a core await (R437). -/
def missPages (x : Core) : List (Nat × Space × Nat) :=
  (x.slots.filterMap fun (_, y) => match y.await with
    | .walk job space va _ _ => if y.st == .stalled then some (job, space, va / 2 ^ 16) else none
    | _ => none).eraseDups

/-- PGSTAT as read: the stored fields and MISS (R231, R437). -/
def pgStat (x : Core) : Word := word (bits x.pgstat.toNat 63 16 * 2 ^ 16 + min (missPages x).length 4)

/-- LPQ as read (R127). -/
def lpqWord (m : Messages) : Word :=
  match m.lpq with
  | [] => word (at_ 32 m.lpqCount)
  | e :: _ =>
    word (at_ 63 1 + at_ 32 m.lpqCount + at_ 16 (bits e.toNat 104 89) + at_ 11 (bits e.toNat 86 82) +
      at_ 1 (bits e.toNat 81 72))

/-- Links of a die in a state (R120). -/
def linksIn (d : Die) (p : LinkState) : Nat := (d.links.filter fun (_, l) => l == p).length

/-- LINKPWR as read (R120). DESIGN CHOICE (log 20): NCNT and SCNT are 8 bits wide, and a count beyond 255 is taken modulo 256. -/
def linkPwr (d : Die) : Word :=
  word (bits d.linkpwr.toNat 47 32 * 2 ^ 32 + at_ 16 (linksIn d .narrow % 256) + at_ 8 (linksIn d .sleep % 256) +
    bits d.linkpwr.toNat 1 0)

/-- EVEC as a slot reads it: a wayfarer's is the job's (R165). -/
def evecOf (s : State) (x : Slot) : Word := if x.wayfarer then (s.jobAt x.mem.job).evec else x.sys.evec

/-- System register `n` as slot `i` of core `c` reads it (R229). A wayfarer has no AMX register (R164): what it reads there the
spec does not say, and its writes go nowhere (log 9). -/
def State.readReg (s : State) (c : Coord) (i n : Nat) : Word :=
  let x := s.coreAt c
  let y := x.slotAt i
  match n with
  | 0x00 => coreConfig c
  | 0x01 => tierId c
  | 0x02 => word c.toNat
  | 0x03 => word i
  | 0x04 => word y.gen.toNat
  | 0x05 => x.partw
  | 0x06 => regQ y
  | 0x07 => word y.mirmask.toNat
  | 0x10 => y.sys.fpctl
  | 0x11 => y.sys.fpstat
  | 0x12 => if y.wayfarer then Config.absentRegister n else y.sys.amx
  | 0x13 => Config.atomsz
  | 0x18 => y.sys.sigdepth
  | 0x19 => y.sys.sigdim
  | 0x40 => y.sys.epc
  | 0x41 => y.sys.ecause
  | 0x42 => y.sys.eaddr
  | 0x43 => evecOf s y
  | 0x44 => pgStat x
  | 0x45 => lpqWord x.msg
  | 0x50 => s.ts
  | 0x51 => linkPwr (s.dieAt c.die)
  | _ => if 0x20 ≤ n ∧ n ≤ 0x27 then look 0 ((s.slotAt c i).mem.levels.getD (s.jobAt (x.owner.getD 0)).levels) (n - 0x20) else 0

/-- The head entry of the lost-property queue removed, and the counter cleared (R127). -/
def lpqWrite (m : Messages) (x : Word) : Messages :=
  let m := if bit x.toNat 63 then { m with lpq := m.lpq.tail } else m
  if bit x.toNat 62 then { m with lpqCount := 0 } else m

/-- LINKPWR after a write: NIDLE, SIDLE and FLOOR, where 3 is taken as 2 (R120). -/
def linkPwrWrite (x : Word) : Word := word (bits x.toNat 47 32 * 2 ^ 32 + min (bits x.toNat 1 0) 2)

/-- EVEC after a write: bits 32 and 0 read 0; user privilege writes UVEC only; a wayfarer's is not written (R165, R229,
R231). -/
def evecWrite (y : Slot) (sys : Bool) (x : Word) : Word :=
  let high := if sys then x.toNat else y.sys.evec.toNat
  if y.wayfarer then y.sys.evec else cleanEvec (word (at_ 32 (bits high 63 32) + bits x.toNat 31 0))

/-- A write of system register `n` of slot `i` of core `c` (R229): `none` for an invalid value; a read-only register is
not changed. `sys` is the privilege of the write. -/
def State.writeReg (s : State) (c : Coord) (i n : Nat) (x : Word) (sys : Bool) : Option State :=
  let slot (f : SysRegs → SysRegs) : Option State := some (s.modSlot c i fun y => { y with sys := f y.sys })
  let low (k : Nat) : Word := word (x.toNat % 2 ^ k)
  match n with
  | 0x10 => slot fun r => { r with fpctl := low 2 }
  | 0x11 => slot fun r => { r with fpstat := low 6 }
  | 0x12 => if (s.slotAt c i).wayfarer then some s else slot fun r => { r with amx := low 33 }
  | 0x18 => if 1 ≤ x.toNat ∧ x.toNat ≤ 8 then slot fun r => { r with sigdepth := x } else none
  | 0x19 => if 1 ≤ x.toNat ∧ x.toNat ≤ 8 then slot fun r => { r with sigdim := x } else none
  | 0x40 => slot fun r => { r with epc := x }
  | 0x41 => slot fun r => { r with ecause := low 9 }
  | 0x42 => slot fun r => { r with eaddr := x }
  | 0x43 => slot fun r => { r with evec := evecWrite (s.slotAt c i) sys x }
  | 0x44 => some (if sys then s.modCore c fun y => { y with pgstat := word (bits x.toNat 63 16 * 2 ^ 16) } else s)
  | 0x45 => some (if sys then s.modCore c fun y => { y with msg := lpqWrite y.msg x } else s)
  | 0x51 => some (if sys then s.setDie c.die { s.dieAt c.die with linkpwr := linkPwrWrite x } else s)
  | _ => some s

/-- A listed offset of a core's control space (R232). -/
def controlListed (c : Coord) (off : Nat) : Bool :=
  if off < 0x10000 * slotCount c then listedRegister (off % 0x10000 / 8)
  else if 0x400000 ≤ off && off < 0x400400 then true
  else off == 0x500000

/-- A halted core goes on (R232, R400). -/
def State.resumeCore (s : State) (c : Coord) : State := s.modCore c fun y => y.slotGoes { y with halted := false } s.ts

/-- A read of a core's control space (R232): the level map is the job's, alike at every slot, where a level task's thread sees
that of its LVLRUN (R181). -/
def State.readControl (s : State) (c : Coord) (off : Nat) : Word :=
  let n := off % 0x10000 / 8
  if off < 0x10000 * slotCount c then
    if 0x20 ≤ n ∧ n ≤ 0x27 then look 0 (s.jobAt ((s.coreAt c).owner.getD 0)).levels (n - 0x20) else s.readReg c (off / 0x10000) n
  else if off < 0x500000 then
    let e := nth 0 (s.coreAt c).msg.lpq (bits off 9 6)
    word (e.toNat / 2 ^ (64 * bits off 5 3))
  else word (b2n (s.coreAt c).halted)

/-- A store to a core's control space (R232): as SRW of the register; `none` for an invalid value. Run control obeys the control
die alone (R400), whose write is RUN_CONTROL_RESUME. -/
def State.writeControl (s : State) (c : Coord) (off : Nat) (x : Word) : Option State :=
  if off < 0x10000 * slotCount c then s.writeReg c (off / 0x10000) (off % 0x10000 / 8) x true
  else some s

end Sys2Proof.Machine
end

