-- ==== Sys2Proof/Machine/Translate.lean ====
section
/-! DEFINITION. Sys2Proof/Machine/Translate.lean: page tables, TLBs and the checks every access passes (R14-R24, R28, R30-R47, R98, R145, R232, R436-R438, R443, R444). -/

namespace Sys2Proof.Machine

/-! ### Page-table entries (R42) -/

def pteValid (e : Nat) : Bool := bit e 63
def pteLeaf (e : Nat) : Bool := bit e 62
def pteClass (e : Nat) : Nat := bits e 61 60
def pteSystemAtomic (e : Nat) : Bool := bit e 59
def ptePageable (e : Nat) : Bool := bit e 58
def pteCode (e : Nat) : Bool := bit e 57
def pteCacheable (e : Nat) : Bool := bit e 56
def pteDisplaced (e : Nat) : Bool := bit e 55
def pteWritable (e : Nat) : Bool := bit e 54
def pteUser (e : Nat) : Bool := bit e 53
def pteFrame (e : Nat) : Nat := bits e 47 16 * 2 ^ 16

/-- The kind of a physical address (R43): 0 DRAM, 1 cap frame, 2 fabric window. -/
def paKind (pa : Nat) : Nat := bits pa 47 44

/-- A physical address of a known kind whose reserved bits are zero (R43). -/
def paValid (pa : Nat) : Bool :=
  pa < 2 ^ 48 && match paKind pa with
  | 0 => bits pa 39 36 == 0
  | 1 => bits pa 39 29 == 0
  | 2 => true
  | _ => false

/-- How a walk ends (R438). -/
inductive WalkEnd where
  | leaf (entry shift : Nat)
  /-- a page that is not resident, with its entry -/
  | absent (entry shift : Nat)
  | fail (level : Nat) (malformed : Bool)
deriving DecidableEq, Repr

/-- A leaf entry is malformed for its space and page size (R44). -/
def leafMalformed (space : Space) (shift e : Nat) : Bool :=
  let k := paKind (pteFrame e)
  let c := pteClass e
  bits e 52 48 != 0 || bits e 15 0 != 0 || !paValid (pteFrame e) || pteFrame e % 2 ^ shift != 0 ||
  match space with
  | .dram => 1 < c || k != 0 || pteDisplaced e
  | .fabric => (c != 0 && c != 3) || k != 2 || pteDisplaced e
  | .column => (c != 0 && c != 2) || 1 < k || pteDisplaced e != (k == 0)

/-- An entry that holds a leaf, at a level that can hold one (R44). -/
def leafEnd (space : Space) (level shift e : Nat) : WalkEnd :=
  if !pteValid e then (if pteLeaf e && ptePageable e then .absent e shift else .fail level false)
  else if leafMalformed space shift e then .fail level true
  else .leaf e shift

/-- The index bits of a level (R40). -/
def levelIndex (va level : Nat) : Nat :=
  match level with
  | 4 => bits va 55 48 | 3 => bits va 47 39 | 2 => bits va 38 30 | 1 => bits va 29 21 | _ => bits va 20 16

/-- The page size at a level: 64 KiB, 2 MiB, 1 GiB (R40). -/
def levelShift (level : Nat) : Nat := match level with | 2 => 30 | 1 => 21 | _ => 16

/-- A walk of the five-level tables from the table at `base` (R40, R44). -/
def walkLevels (s : State) (space : Space) (va : Nat) : Nat → Nat → WalkEnd
  | 0, base => leafEnd space 0 16 (s.readNat (base + 8 * levelIndex va 0) 8) |> fun r =>
      let e := s.readNat (base + 8 * levelIndex va 0) 8
      if pteValid e && !pteLeaf e then .fail 0 true else r
  | level + 1, base =>
    let e := s.readNat (base + 8 * levelIndex va (level + 1)) 8
    if pteLeaf e && level + 1 ≤ 2 then leafEnd space (level + 1) (levelShift (level + 1)) e
    else if !pteValid e then .fail (level + 1) false
    else if pteLeaf e then .fail (level + 1) true
    else
      let next := bits e 47 8 * 256
      if bits e 61 48 != 0 || bits e 7 0 != 0 || paKind next != 0 || !paValid next ||
          next % (if level = 0 then 256 else 4096) != 0 then .fail (level + 1) true
      else walkLevels s space va level next

/-- A page-table walk (R39-R41): the roots are the job's. -/
def State.walk (s : State) (job : Nat) (space : Space) (va : Nat) : WalkEnd :=
  let j := s.jobAt job
  match space with
  | .dram => if j.dramRoot = 0 then .fail 4 false else walkLevels s space va 4 j.dramRoot
  | .fabric => if j.fabricRoot = 0 then .fail 4 false else walkLevels s space va 4 j.fabricRoot
  | .column =>
    let base := look 0 j.columns (bits va 55 52)
    if base = 0 then .fail 7 false
    else
      let e := s.readNat (base + 8 * ((bits va 51 46 * 32 + bits va 45 40) * 256 + bits va 23 16)) 8
      if pteValid e && !pteLeaf e then .fail 7 true else leafEnd space 7 16 e

/-- The page is on the poison list (R90). -/
def State.pagePoisoned (s : State) (job : Nat) (space : Space) (va shift : Nat) : Bool :=
  s.pkg.poisoned.any fun (j, sp, p) => j == job && sp == space && p / 2 ^ shift == va / 2 ^ shift

/-- The translation of an address in a TLB (R436). -/
def tlbFind (l : List Translation) (job : Nat) (space : Space) (va : Nat) : Option Translation :=
  l.find? fun t => t.job == job && t.space == space && t.va / 2 ^ t.shift == va / 2 ^ t.shift

/-- A translation put into a TLB of `n` entries, in place of one of the same page (R436). -/
def addTranslation (n : Nat) (l : List Translation) (t : Translation) : List Translation :=
  (t :: l.filter fun u => !(u.job == t.job && u.space == t.space && u.va / 2 ^ u.shift == t.va / 2 ^ u.shift)).take n

/-- The translation that a walk finds now, when it ends at a valid leaf (R438). -/
def State.leafOf (s : State) (job : Nat) (space : Space) (va : Nat) : Option Translation :=
  match s.walk job space va with
  | .leaf entry shift =>
    some { job, space, va := va / 2 ^ shift * 2 ^ shift, shift, entry, poisoned := s.pagePoisoned job space va shift }
  | _ => none

/-- A resident request to firmware, which is made once (R438). -/
def State.askResident (s : State) (job : Nat) (space : Space) (va : Nat) : State :=
  let page := (job, space, va / 2 ^ 16)
  let l := s.pkg.residentRequests
  { s with pkg := { s.pkg with residentRequests := if l.contains page then l else l ++ [page] } }

/-- PGSTAT after a failed walk (R231, R438). -/
def failedWalk (old : Word) (va level : Nat) (malformed : Bool) : Word :=
  word (at_ 63 (b2n (malformed || bit old.toNat 63)) + at_ 60 level + at_ 16 (bits va 59 16))

/-- A walk for an access of core `c` has failed: its PGSTAT says where (R438). -/
def State.walkFailed (s : State) (c : Coord) (va level : Nat) (malformed : Bool) : State :=
  s.modCore c fun x => { x with pgstat := failedWalk x.pgstat va level malformed }

/-- The lock under which the page of an address is being moved (R88, R89). -/
def State.lockOf (s : State) (job va : Nat) : Option Lock :=
  s.pkg.locks.find? fun l => l.job == job && l.va / 2 ^ l.shift == va / 2 ^ l.shift
def State.pageLocked (s : State) (job va : Nat) : Bool := (s.lockOf job va).isSome

/-- The frame of a physical address is the old frame of a page being moved. -/
def State.frameLocked (s : State) (pa : Nat) : Bool := s.pkg.locks.any fun l => l.old / 2 ^ l.shift == pa / 2 ^ l.shift

/-- The key of a physical address: its own number, or, through an imported window, the place BASE + offset of the memory of
PEER (R43, R443). -/
def State.memoryKey (s : State) (pa : Nat) : Nat :=
  let w := (look 0 s.pkg.imported (bits pa 43 36)).toNat
  if paKind pa = 2 then Config.peerBase * (1 + bits w 63 48) + (bits w 127 64 + bits pa 35 0) % 2 ^ 64 else pa

/-! ### Vertical buses (R76, R77, R84, R85) -/

/-- The core of a virtual die whose cap slice holds an offset of the cap die (R76). -/
def sliceOwner (d off : Nat) : Option Coord :=
  (coresOfDie d).find? fun c => sliceBase c ≤ off && off < sliceBase c + 65536 * capFrames c

/-- The bus behind which a cap frame stands (R77). -/
def frameBus (d off : Nat) : Option (Coord × Nat) := (sliceOwner d off).map fun c => (clusterOf c, (off - sliceBase c) / 65536 % 4)

/-- The key of a bus: its physical tower, its cluster and its number (R77). -/
def State.busKey (s : State) (cl : Coord) (b : Nat) : Nat := 16384 * s.physical cl.die + 4 * (cl.toNat % 4096) + b

def State.busAt (s : State) (cl : Coord) (b : Nat) : Bus := look {} s.pkg.buses (s.busKey cl b)
def State.setBus (s : State) (cl : Coord) (b : Nat) (x : Bus) : State :=
  { s with pkg := { s.pkg with buses := put s.pkg.buses (s.busKey cl b) x } }

/-- The bus that an access to a physical address uses: none where it is no cap frame (R77). -/
def State.busOf (s : State) (pa : Nat) : Option (Coord × Nat) :=
  if paKind pa = 1 then frameBus (s.virtualOf (bits pa 43 40)) (bits pa 28 0) else none

/-- The tester holds the bus of a physical address (R84). -/
def State.busHeld (s : State) (pa : Nat) : Bool :=
  (s.pkg.buses.any fun (_, x) => x.phase.isSome) &&
  match s.busOf pa with
  | some (cl, b) => (s.busAt cl b).phase.isSome
  | none => false

/-- A demand access has reached the bus of a physical address: the test on it is to end (R85). -/
def State.demandBus (s : State) (pa : Nat) : State :=
  match s.busOf pa with
  | some (cl, b) => if s.busHeld pa then s.setBus cl b { s.busAt cl b with demand := true } else s
  | none => s

/-! ### Where an access goes (R20, R102) -/

/-- The place that serves a piece: at once at a key, or by a message to an endpoint. -/
inductive Route where
  | key (k : Nat)
  | msg (dst : Coord) (addr : Nat)
deriving DecidableEq, Repr

/-- The key at which the bytes of a route stand. -/
def Route.place : Route → Nat
  | .key k => k
  | .msg _ a => a

/-- The access goes by message. -/
def Route.remote : Route → Bool
  | .key _ => false
  | .msg _ _ => true

/-- The core that a COLUMN, POOLX or SYSTEM address names (R14). -/
def namedCore (va : Nat) : Coord := Coord.mk (bits va 55 52) (bits va 51 46) (bits va 45 40)

/-- The region code (R13). -/
def region (va : Nat) : Nat := bits va 59 56

/-- The address space of an address of a translated region (R14). -/
def spaceOf (va : Nat) : Space := match region va with | 2 => .column | 5 => .fabric | _ => .dram

/-- A cap frame lies in a core's own slice (R76, R78). -/
def State.ownFrame (s : State) (c : Coord) (pa : Nat) : Bool :=
  s.dieLive c.die && paKind pa == 1 && bits pa 43 40 == s.physical c.die &&
  sliceBase c ≤ bits pa 28 0 && bits pa 28 0 < sliceBase c + 65536 * capFrames c

/-- The endpoint that serves a physical address (R102). -/
def State.endpointOf (s : State) (pa : Nat) : Coord :=
  match paKind pa with
  | 0 => homeAgent (s.virtualOf (bits pa 43 40))
  | 1 => capPort (s.virtualOf (bits pa 43 40))
  | _ => fabricPort (bits (look 0 s.pkg.imported (bits pa 43 36)).toNat 44 40)

/-- The route of a translated access of core `c` to `va` at physical address `pa` (R20, R102). -/
def State.routeOf (s : State) (c : Coord) (space : Space) (va pa : Nat) : Route :=
  match space with
  | .column =>
    let n := namedCore va
    if s.ownFrame n pa then (if n == c then .key pa else .msg n pa) else .msg (s.endpointOf pa) pa
  | _ => .msg (s.endpointOf pa) pa

/-! ### The checks of R47 -/

/-- What an access needs of its capability, page and place. -/
structure Need where
  l : Bool := false
  s : Bool := false
  x : Bool := false
  a : Bool := false
  /-- the value stored is a tagged capability, global or not (R37) -/
  storesCap : Option Bool := none
  /-- alignment of check 5 -/
  align : Nat := 1
  /-- the access must lie within one granule (R288) -/
  oneGranule : Bool := false
  /-- AMO or CAS -/
  atomic : Bool := false
  /-- instruction fetch -/
  fetch : Bool := false
  /-- a barrier object or board: only LOCAL, CLUSTER, POOLX and COLUMN (R310, R318) -/
  poolOrColumn : Bool := false
  /-- a board operation: it fails when the home core's die is lost, wherever the page stands (R154) -/
  board : Bool := false
  /-- an element-indexed access: EADDR names the lowest failing byte (R292) -/
  element : Bool := false
  /-- the attribute fault of R292 or R32 that check 10 reports -/
  badFormat : Bool := false
  /-- the partition size of a POOLX target is checked later (R72) -/
  anySize : Bool := false
  /-- the 16-byte blocks of addresses that a vector store writes whole (R67, R294) -/
  whole : List Nat := []
  /-- the access of a running job: home lost names the word (R67) -/
  engine : Bool := false
  /-- the check of an operand whose words a job will read: one that cannot be read ends the job (R369) -/
  later : Bool := false
deriving DecidableEq, Repr

/-- The first word that cannot be read and so fails an access of `n` bytes at `x` with the key `k`: not under a store that
writes it whole, which clears it (R67). -/
def State.lostWord (s : State) (need : Need) (k n : Nat) (x : Nat := 0) : Option Nat :=
  if need.later then none
  else (granules k n).find? fun g => s.wordLost g && !(need.s && !need.l && !need.a &&
    ((wholeGranules k n).contains g || need.whole.contains ((x + 16 * g - k) / 16)))

/-- The address that home lost names for word `g` of an access at `x` with the key `k`: the word's for an engine (R67), the
lowest failing byte of an element (R293), and else that of the part (R47). -/
def Need.lostAddress (need : Need) (k x g : Nat) : Word :=
  word (if need.engine then x + 16 * g - k else if need.element then max x (x + 16 * g - k) else x)

/-- Outcome of the checks of one part of an access. -/
inductive Check where
  | ok (r : Route)
  | bad (cause : Nat) (eaddr : Word)
  /-- a translation miss (R437) -/
  | miss (space : Space) (va : Nat) (eaddr : Word)
  /-- the page is locked, its die is being remapped, or the partition is about to change (R28, R56, R88) -/
  | locked
  /-- the tester holds the bus of the frame (R85) -/
  | busy (pa : Nat)
deriving DecidableEq, Repr

/-- Who makes an access: core, privilege and address space. -/
structure Who where
  core : Coord
  priv : Bool
  job : Nat
deriving DecidableEq, Repr

/-- The single-copy granule of an address (R145). -/
def granuleSize (va : Nat) : Nat := if region va ≤ 3 then 64 else if region va = 4 then 32 else 8

/-- Check 3: the permissions (R23, R30, R37). -/
def permitted (w : Who) (c : Cap) (need : Need) (x : Int) : Bool :=
  let code := region x.toNat
  (!need.l || c.canLoad) && (!need.s || c.canStore) && (!need.x || c.canExecute) && (!need.a || c.canAtomic) &&
  (match need.storesCap with
   | none => true
   | some glob => c.canStoreCap && (glob || code == 0)) &&
  (x < 0 || 2 ^ 60 ≤ x || code != 0xF || (w.priv && c.isSystem))

/-- The partition size of a CLUSTER or POOLX target counts at issue (R17, R19, R47): that of the issuing core, and that of another
core which has a physical die and no change of PARTW pending. The target checks it again when the request enters its pool (R56, R69). -/
def State.sizeKnown (s : State) (c named : Coord) : Bool :=
  named == c || (s.dieLive named.die && (s.coreAt named).partPending.isNone)

/-- Checks 1 to 7 on the part [x, x + n) of the access [x0, x0 + n0) (R47): `none` when they pass. -/
def earlyChecks (s : State) (w : Who) (c : Cap) (need : Need) (x0 : Int) (n0 : Nat) (x : Int) (n : Nat) :
    Option (Nat × Word) :=
  let (base, top) := c.bounds
  let va := x.toNat
  let code := region va
  let named := namedCore va
  let ea := wordI x
  -- the address of a size fault of a part at offset `off` of a scratchpad
  let sizeFault (size off : Nat) : Word := if need.element then wordI (x - (off : Int) + (max off size : Nat)) else ea
  if !c.tag then some (0x05, ea)
  else if c.isSealed then some (0x07, ea)
  else if !permitted w c need x then some (0x07, ea)
  else if x < base || top < x + n then
    some (0x06, if need.element && base ≤ x then wordI (max x top) else ea)
  else if x0 % need.align != 0 || (need.oneGranule && x0.toNat / granuleSize x0.toNat != (x0.toNat + n0 - 1) / granuleSize x0.toNat)
    then some (0x0B, ea)
  else if region x0.toNat != region (x0.toNat + n0 - 1) then some (0x09, wordI x0)
  else if 6 ≤ code && code < 15 then some (0x09, ea)
  else if (code == 2 || code == 3 || code == 15) && bits x0.toNat 55 40 != bits (x0.toNat + n0 - 1) 55 40 then
    some (0x09, wordI x0)
  else if code == 1 && bits x0.toNat 55 53 != bits (x0.toNat + n0 - 1) 55 53 then some (0x09, wordI x0)
  else if (code == 2 || code == 3) && (bits va 39 24 != 0 || bits (va + n - 1) 39 24 != 0) then
    some (0x09, sizeFault (2 ^ 24) (bits va 39 0))
  else if (code == 2 || code == 3 || code == 15) && !coreExists named then some (0x09, ea)
  else if (code == 2 || code == 3) && tier named != tier w.core then some (0x09, ea)
  else if code == 0 && scratchSize (s.coreAt w.core).partw < bits va 55 0 + n then
    some (0x09, sizeFault (scratchSize (s.coreAt w.core).partw) (bits va 55 0))
  else if code == 1 then
    match memberOf (clusterOf w.core) (bits va 55 53) with
    | none => some (0x09, ea)
    | some m => if s.sizeKnown w.core m && scratchSize (s.coreAt m).partw < bits va 52 0 + n then
        some (0x09, sizeFault (scratchSize (s.coreAt m).partw) (bits va 52 0))
      else if c.cls != 0 then some (0x08, ea) else none
  else if code == 3 && !need.anySize && s.sizeKnown w.core named && scratchSize (s.coreAt named).partw < bits va 39 0 + n then
    some (0x09, sizeFault (scratchSize (s.coreAt named).partw) (bits va 39 0))
  else if code == 15 && !controlListed named (bits va 39 0) then some (0x09, ea)
  else if (c.cls == 1 && code != 4) || (c.cls == 2 && code != 2) || (c.cls == 3 && code != 5) then some (0x08, ea)
  else none

/-- Checks 9 to 11 on a translated part (R33, R45, R156, R443, R444). -/
def pageChecks (s : State) (w : Who) (c : Cap) (need : Need) (space : Space) (va n : Nat) (t : Translation) : Check :=
  let ea := word va
  let pa := pteFrame t.entry + va % 2 ^ t.shift
  let win := (look 0 s.pkg.imported (bits pa 43 36)).toNat
  let fabric := space == .fabric
  let winValid := bit win 0
  if c.cls != 0 && pteClass t.entry != c.cls then .bad 0x08 ea
  else if (need.s && !pteWritable t.entry) || (!w.priv && !pteUser t.entry) || (need.fetch && (fabric || !pteCode t.entry)) ||
      need.badFormat || (need.poolOrColumn && space != .column) || (fabric && need.storesCap.isSome) ||
      (fabric && need.atomic && !pteSystemAtomic t.entry) ||
      (fabric && winValid && need.atomic && !bit win 3) ||
      (fabric && winValid && (65536 * bits win 39 20 < bits pa 35 0 + n || (need.s && !bit win 2))) then .bad 0x0A ea
  else if t.poisoned || (fabric && !winValid) || (need.board && !s.dieLive (namedCore va).die) then .bad 0x10 ea
  else
    match s.routeOf w.core space va pa with
    | .key k =>
      match s.lostWord need k n va with
      | some g => .bad 0x10 (need.lostAddress k va g)
      | none => if s.busHeld k then .busy k else .ok (.key k)
    | r => .ok r

/-- The translation in force for core `c`: its own TLB, then the die's (R436). -/
def State.translation (s : State) (c : Coord) (job : Nat) (space : Space) (va : Nat) : Option Translation :=
  match tlbFind (s.coreAt c).tlb job space va with
  | some t => some t
  | none => tlbFind (s.dieAt c.die).tlb job space va

/-- An access to a page that is being moved goes to the lock at the base die of its old frame, also from the frame's own core, and
stands there; a fetch, and an engine that needs no message, waits where it is (R88, R89). -/
def Check.held (w : Who) (need : Need) : Check → Check
  | .ok r => if need.fetch || (need.engine && !r.remote) then .locked else .ok (if r.remote then r else .msg w.core r.place)
  | .busy _ => .locked
  | r => r

/-- THE CHECKS OF R47, in their order, on the part [x, x + n) of an access [x0, x0 + n0) through `c`. -/
def checkPart (s : State) (w : Who) (c : Cap) (need : Need) (x0 : Int) (n0 : Nat) (x : Int) (n : Nat) : Check :=
  match earlyChecks s w c need x0 n0 x n with
  | some (cause, ea) => .bad cause ea
  | none =>
    let va := x.toNat
    let ea := word va
    let named := namedCore va
    let pool (core : Coord) (off : Nat) : Check :=
      let k := scratchKey core (s.coreAt core).partw off
      if need.fetch || need.badFormat then .bad 0x0A ea
      else if !s.dieLive core.die then .bad 0x10 ea
      else if core != w.core && (s.coreAt core).partPending.isSome then .locked
      else
        match s.lostWord need k n va with
        | some g => .bad 0x10 (need.lostAddress k va g)
        | none => .ok (.key k)
    let paged (space : Space) : Check :=
      match s.translation w.core w.job space va with
      | none => .miss space va ea
      | some t =>
        match s.lockOf w.job va with
        | none => pageChecks s w c need space va n t
        | some l => (pageChecks s w c need space va n { t with entry := t.entry - pteFrame t.entry + l.old }).held w need
    match region va with
    | 0 => pool w.core (bits va 55 0)
    | 1 => pool ((memberOf (clusterOf w.core) (bits va 55 53)).getD w.core) (bits va 52 0)
    | 2 => paged .column
    | 3 =>
      if named == w.core then pool named (bits va 39 0)
      else if need.fetch || need.badFormat then .bad 0x0A ea
      else if !s.dieLive named.die then .bad 0x10 ea
      else .ok (.msg named (0xF00000000000 + bits va 23 0))
    | 4 => paged .dram
    | 5 => paged .fabric
    | _ =>
      if need.fetch || need.badFormat || need.poolOrColumn || need.atomic || need.storesCap.isSome || n0 != 8 || x0 % 8 != 0 then
        .bad 0x0A ea
      else if !s.dieLive named.die then .bad 0x10 ea
      else .ok (.msg named (0xE00000000000 + bits va 23 0))

/-- A part of an access: the core that makes it, address, length, place in the buffer, and the access it belongs to. -/
structure Part where
  core : Coord
  x : Int
  n : Nat
  off : Nat
  x0 : Int
  n0 : Nat
deriving DecidableEq, Repr

/-- The parts of [x, x + n): one per granule (R146). -/
def splitParts (core : Coord) (x0 : Int) (n0 : Nat) : Nat → Int → Nat → Nat → List Part
  | 0, _, _, _ => []
  | fuel + 1, x, n, off =>
    let g := granuleSize x0.toNat
    let room := g - x.toNat % g
    if n ≤ room || x < 0 then [{ core, x, n, off, x0, n0 }]
    else { core, x, n := room, off, x0, n0 } :: splitParts core x0 n0 fuel (x + room) (n - room) (off + room)

/-- The parts of an access of core `core` at buffer place `off`. -/
def partsOf (core : Coord) (x : Int) (n off : Nat) : List Part := splitParts core x n n x n off

/-- The first failing check of a list of parts, with its part, or every part with its route (R47, R146). -/
def checkParts (s : State) (priv : Bool) (job : Nat) (c : Cap) (need : Need) :
    List Part → Check × List (Part × Route)
  | [] => (.ok (.key 0), [])
  | p :: r =>
    match checkPart s { core := p.core, priv, job } c need p.x0 p.n0 p.x p.n with
    | .ok route =>
      match checkParts s priv job c need r with
      | (.ok k, l) => (.ok k, (p, route) :: l)
      | (bad, l) => (bad, l)
    | bad => (bad, [(p, .key 0)])

end Sys2Proof.Machine
end

