-- ==== Sys2Proof/Machine/Barrier.lean ====
section
/-! DEFINITION. Sys2Proof/Machine/Barrier.lean: what an owner does with a request at a key: data, capabilities, atomics, barrier objects and notice boards (R38, R104, R134, R142-R144, R295, R309-R313, R317-R319). -/

namespace Sys2Proof.Machine

/-- What the owner answers. -/
inductive Served where
  | bytes (l : List Byte)
  | cap (image : List Byte) (tag : Bool)
  | ack
  | fault (cause : Nat)
  /-- the reply is deferred (R312) -/
  | later
  /-- BARWAIT found the watch list full (R312) -/
  | retry
deriving DecidableEq, Repr

/-! ### Read-modify-writes (R295) -/

/-- The value an AMO writes: `a` the old value, `b` the operand, both of `n` bytes. -/
def atomValue (op : AtomOp) (n a b : Nat) : Nat :=
  let w := 8 * n
  match op with
  | .add => (a + b) % 2 ^ w
  | .and => a &&& b
  | .or => a ||| b
  | .xor => a ^^^ b
  | .min => if signed a w ≤ signed b w then a else b
  | .max => if signed a w ≤ signed b w then b else a
  | .minu => min a b
  | .maxu => max a b
  | .swap => b
  | .faddF32 => (fpAdd 1 0 a b).1
  | .faddBf16 => (fpAdd 3 0 a b).1

/-- An AMO at a key: the old bytes, and the state after it. -/
def State.atomAt (s : State) (k : Nat) (op : AtomOp) (n : Nat) (x : Word) : State × Served :=
  let a := s.readNat k n
  (s.writeNat k n (atomValue op n a (x.toNat % 2 ^ (8 * n))), .bytes (leBytes n a))

/-- A CAS at a key (R295). -/
def State.casAt (s : State) (k n : Nat) (expected new : Word) : State × Served :=
  let a := s.readNat k n
  (if a = expected.toNat % 2 ^ (8 * n) then s.writeNat k n new.toNat else s, .bytes (leBytes n a))

/-! ### Barrier objects (R309-R312) -/

/-- A barrier object as its bytes stand (R309). -/
structure BarObj where
  phase : Nat
  n : Nat
  exp : Nat
  btot : Nat
  bytes : Nat
  unit : Nat
  spent : Bool
  amask : BitVec 512
  dmask : BitVec 512
deriving DecidableEq, Repr

/-- The object at a key. -/
def State.barAt (s : State) (k : Nat) : BarObj :=
  { phase := s.readNat k 4, n := s.readNat (k + 4) 2, exp := s.readNat (k + 6) 2, btot := s.readNat (k + 8) 4
    bytes := s.readNat (k + 12) 4, unit := s.readNat (k + 16) 4, spent := bit (s.readNat (k + 20) 1) 0
    amask := BitVec.ofNat 512 (s.readNat (k + 64) 64), dmask := BitVec.ofNat 512 (s.readNat (k + 128) 64) }

/-- The bytes of an object, res0 written as zero (R309). -/
def BarObj.image (o : BarObj) : List Byte :=
  leBytes 4 o.phase ++ leBytes 2 o.n ++ leBytes 2 o.exp ++ leBytes 4 o.btot ++ leBytes 4 o.bytes ++ leBytes 4 o.unit ++
  leBytes 44 (b2n o.spent) ++ leBytes 64 o.amask.toNat ++ leBytes 64 o.dmask.toNat

def State.setBar (s : State) (k : Nat) (o : BarObj) : State := s.writeBytes k o.image

/-- The reply of a BARWAIT that returns: PHASE. -/
def phaseReply (f : Flight) (phase : Nat) : Flight := { f with op := 0x40, bc := 3, pay := .bytes (leBytes 4 phase) }

/-- ReleaseWaiters (R311): every entry for the object is answered, in the order in which the entries were made. -/
def State.releaseWaiters (s : State) (home : Coord) (k phase : Nat) : State :=
  let mine := (s.coreAt home).watch.filter fun w => w.obj == k
  let t := s.modCore home fun x => { x with watch := x.watch.filter fun w => w.obj != k }
  mine.foldl (fun u w => u.post (phaseReply w.reply phase)) t

/-- CheckComplete (R311): the object, and whether the phase ended. -/
def BarObj.check (o : BarObj) : BarObj × Bool :=
  if o.exp = 0 ∧ o.bytes = o.btot then
    let e := o.n - popCount 512 o.dmask.toNat
    ({ o with phase := (o.phase + 1) % 2 ^ 32, amask := o.dmask, bytes := 0, exp := e, spent := o.spent || e == 0 }, true)
  else (o, false)

/-- An object written after CheckComplete, with its waiters released if the phase ended. -/
def State.settleBar (s : State) (home : Coord) (k : Nat) (o : BarObj) : State :=
  let (p, ended) := o.check
  let t := s.setBar k p
  if ended then t.releaseWaiters home k p.phase else t

/-- The barrier operations at the home (R311, R312): `unit` is the issuer's, `reply` the header of the answer. -/
def State.barrierAt (s : State) (home : Coord) (k : Nat) (op : BarOp) (unit : Nat) (reply : Flight) : State × Served :=
  let o := s.barAt k
  match op with
  | .init n =>
    ((s.setBar k { phase := 0, n, exp := n, btot := 0, bytes := 0, unit, spent := false, amask := 0, dmask := 0 }).releaseWaiters
      home k 0, .ack)
  | .arrive m drop =>
    if o.unit ≠ unit ∨ o.n ≤ m then (s, .fault 0x02)
    else if o.spent || o.amask.getLsbD m then (s, .fault 0x0C)
    else
      let mark : BitVec 512 := 1 <<< m
      (s.settleBar home k
        { o with amask := o.amask ||| mark, exp := (o.exp + 65535) % 65536, dmask := if drop then o.dmask ||| mark else o.dmask },
        .bytes (leBytes 4 o.phase))
  | .wait p =>
    if o.unit ≠ unit then (s, .fault 0x02)
    else if o.spent || o.phase != p % 2 ^ 32 then (s, .bytes (leBytes 4 o.phase))
    else if 64 ≤ (s.coreAt home).watch.length then (s, .retry)
    else (s.modCore home fun x => { x with watch := x.watch ++ [{ obj := k, reply }] }, .later)
  | .expect t =>
    if o.unit ≠ unit then (s, .fault 0x02)
    else if t < o.bytes then (s, .fault 0x0C)
    else (s.settleBar home k { o with btot := t }, .ack)

/-- BarBytes (R313): a count of bytes by a porter; false when it is refused. -/
def State.barBytes (s : State) (home : Coord) (k n : Nat) : State × Bool :=
  let o := s.barAt k
  if o.spent ∨ o.btot < o.bytes + n then (s, false) else (s.settleBar home k { o with bytes := o.bytes + n }, true)

/-! ### Notice boards (R317-R319) -/

/-- The view of a board: MASK, LEVEL, EPOCH and HANDLE in the layout of R210. -/
def State.boardView (s : State) (k : Nat) : Nat :=
  at_ 64 (s.readNat (k + 0x400) 64) + at_ 32 (s.readNat (k + 0x440) 4) + at_ 16 (s.readNat (k + 0x444) 2) +
    s.readNat (k + 0x44A) 2

/-- The board operations at the home (R319). -/
def State.boardAt (s : State) (k : Nat) (op : BoardOp) (issuer : Coord) : State × Served :=
  let n := s.readNat (k + 0x448) 2
  let level := s.readNat (k + 0x440) 4
  let zero (t : State) : State :=
    (t.writeBytes (k + 0x400) (leBytes 64 0)).writeBytes (k + 0x480) (List.replicate 4096 0)
  match op with
  | .init h m => ((zero s).writeBytes (k + 0x440) (leBytes 8 0 ++ leBytes 2 m ++ leBytes 2 h), .ack)
  | .post j x =>
    if n ≤ j ∨ s.readNat (k + 2 * j) 2 ≠ issuer.toNat then (s, .fault 0x11)
    else if level = 0xFFFFFFFF then (s, .fault 0x02)
    else
      let m := s.readNat (k + 0x400) 64
      let t := ((s.writeNat (k + 0x480 + 8 * j) 8 x.toNat).writeNat (k + 0x400) 64 (m ||| 2 ^ j)).writeNat (k + 0x440) 4
        (level + 1)
      (t, .bytes (leBytes 72 (t.boardView k)))
  | .read j =>
    if n ≤ j then (s, .fault 0x11)
    else (s, .bytes (leBytes 8 (s.readNat (k + 0x480 + 8 * j) 8) ++ leBytes 72 (s.boardView k)))
  | .clear =>
    ((zero s).writeBytes (k + 0x440) (leBytes 4 0 ++ leBytes 2 (s.readNat (k + 0x444) 2 + 1)), .ack)

/-! ### One request at its owner -/

/-- THE OWNER'S SERVICE of one request at a key (R104, R134, R142): `n` is the number of bytes a load reads. -/
def State.serve (s : State) (home : Coord) (k op n : Nat) (pay : Payload) (reply : Flight) : State × Served :=
  match pay with
  | .bytes l => (s.writeBytes k l, .ack)
  | .masked data mask => (s.writeMasked k data mask, .ack)
  | .capability image tag =>
    let t := s.writeBytes k image
    (if tag then { t with tags := t.tags ++ [k / 16] } else t, .ack)
  | .atom a m x => s.atomAt k a m x
  | .cas m e x => s.casAt k m e x
  | .barrier b unit => s.barrierAt home k b unit reply
  | .board b issuer => s.boardAt k b issuer
  | _ => if op = 0x02 then (s, .cap (s.readBytes k 16) (s.tagAt (k / 16))) else (s, .bytes (s.readBytes k n))

/-- The home of what stands at a key: the core that owns the pool, or the core `c` whose slice it is. -/
def homeOf (c : Coord) (k : Nat) : Coord :=
  if Config.poolBase ≤ k ∧ k < Config.peerBase then BitVec.ofNat 16 ((k - Config.poolBase) / 2 ^ 24) else c

end Sys2Proof.Machine
end

