-- ==== Sys2Proof/Machine/Access.lean ====
section
/-! DEFINITION. Sys2Proof/Machine/Access.lean: an access from its checks to its last reply (R20, R47, R102-R104, R111, R116, R146, R167, R168, R284, R293, R294, R437). -/

namespace Sys2Proof.Machine

/-- What an access asks of the owner. -/
inductive Ask where
  | load
  /-- the bytes to store and their enabled bits, by place -/
  | store (data mask : List Byte)
  | loadCap
  | storeCap (c : Cap)
  | atom (op : AtomOp) (n : Nat) (x : Word)
  | cas (n : Nat) (expected new : Word)
  | barrier (op : BarOp) (unit : Nat)
  | board (op : BoardOp) (issuer : Coord)
deriving DecidableEq, Repr

/-- The operation number of its REQ (R101). -/
def Ask.op : Ask → Nat
  | .load => 0x00
  | .store _ _ => 0x01
  | .loadCap => 0x02
  | .storeCap _ => 0x03
  | .atom _ _ _ => 0x04
  | .cas _ _ _ => 0x05
  | .barrier _ _ => 0x04
  | .board _ _ => 0x04

/-- Its answer may be deferred (R312). -/
def Ask.mayDefer : Ask → Bool
  | .barrier (.wait _) _ => true
  | _ => false

def Ask.isStore : Ask → Bool
  | .store _ _ => true
  | _ => false

/-- One piece of an access: the parts that lie in one granule and go together (R103, R294). -/
structure Group where
  route : Route
  core : Coord
  x : Nat
  n : Nat
  /-- offset in the piece, place in the buffer, length -/
  runs : List (Nat × Nat × Nat)
deriving DecidableEq, Repr

/-- A route `d` bytes lower. -/
def Route.lower (d : Nat) : Route → Route
  | .key k => .key (k - d)
  | .msg dst a => .msg dst (a - d)

/-- A part joins a piece: the load-store unit merges the stores of one granule (R294), and loads that are adjacent. -/
def Group.absorb (store : Bool) (g : Group) (p : Part) : Option Group :=
  let x := p.x.toNat
  if g.core ≠ p.core ∨ x / granuleSize x ≠ g.x / granuleSize x then none
  else if !store then
    (if x = g.x + g.n then some { g with n := g.n + p.n, runs := g.runs ++ [(g.n, p.off, p.n)] } else none)
  else if g.x ≤ x then
    some { g with n := max g.n (x + p.n - g.x), runs := g.runs ++ [(x - g.x, p.off, p.n)] }
  else
    let d := g.x - x
    some { g with
      route := g.route.lower d, x, n := max (g.n + d) p.n
      runs := g.runs.map (fun (o, place, len) => (o + d, place, len)) ++ [(0, p.off, p.n)] }

/-- A part put into the first piece that takes it, or a new piece. -/
def absorbInto (store : Bool) (p : Part) (r : Route) : List Group → List Group
  | [] => [{ route := r, core := p.core, x := p.x.toNat, n := p.n, runs := [(0, p.off, p.n)] }]
  | g :: l =>
    match g.absorb store p with
    | some h => h :: l
    | none => g :: absorbInto store p r l

/-- The pieces of an access (R103). A capability, an atomic, a barrier or a board operation is one piece at its base. -/
def piecesOf (ask : Ask) (l : List (Part × Route)) : List Group :=
  match ask with
  | .load | .store _ _ => l.foldl (fun gs (p, r) => absorbInto ask.isStore p r gs) []
  | _ => match l with
    | [] => []
    | (p, r) :: _ => absorbInto false p r []

/-- The bytes of a piece taken from a list by place; 0 outside its runs. -/
def Group.gather (g : Group) (src : List Byte) : List Byte :=
  let m := g.runs.foldl (fun m (o, place, len) =>
    (List.range len).foldl (fun m i => put m (o + i) (nth 0 src (place + i))) m) []
  (List.range g.n).map fun i => look 0 m i

/-- Reply bytes put into a buffer by place. -/
def scatter (runs : List (Nat × Nat × Nat)) (l : List Byte) (buf : Sparse Byte) : Sparse Byte :=
  runs.foldl (fun m (o, place, len) =>
    (List.range len).foldl (fun m i => put m (place + i) (nth 0 l (o + i))) m) buf

/-- The payload of a piece's request (R101). DESIGN CHOICE (log 12): a STORE whose bytes are not all enabled carries the enabled
bits of each byte beside the BC + 1 data bytes that the table names; they stand in no field of the header or of a flit. -/
def Ask.payload (a : Ask) (g : Group) : Payload :=
  match a with
  | .load => .none
  | .store data mask =>
    let m := g.gather mask
    if m.all (· == 0xFF) then .bytes (g.gather data) else .masked (g.gather data) m
  | .loadCap => .none
  | .storeCap c => .capability (leBytes 8 c.addr.toNat ++ leBytes 8 c.hi.toNat) c.tag
  | .atom op n x => .atom op n x
  | .cas n e x => .cas n e x
  | .barrier op unit => .barrier op unit
  | .board op issuer => .board op issuer

/-! ### The outstanding replies -/

/-- The place at which the first run of a piece lies in the buffer. -/
def firstPlace (runs : List (Nat × Nat × Nat)) : Nat := (runs.map fun (_, place, _) => place).foldl min 1000000

/-- A fault reply noted: the lowest one counts (R104, R293). -/
def Pending.noteFault (p : Pending) (place cause : Nat) (addr : Word) : Pending :=
  match p.fault with
  | some (q, _, _) => if place < q then { p with fault := some (place, cause, addr) } else p
  | none => { p with fault := some (place, cause, addr) }

/-- What an owner served, put into the outstanding replies. -/
def Pending.take (p : Pending) (runs : List (Nat × Nat × Nat)) (addr : Nat) (r : Served) : Pending :=
  match r with
  | .bytes l => { p with buf := scatter runs l p.buf, rlen := l.length }
  | .cap l tag => { p with buf := scatter runs l p.buf, ctag := tag }
  | .ack => p
  | .fault cause => p.noteFault (firstPlace runs) cause (if cause = 0x02 then 0 else word addr)
  | .later => p
  | .retry => p

/-- The requests that an owner's service of an operation makes of a pool: a read, a write, or a read and then a write (R60, R134). -/
def State.poolServes (s : State) (client k op n : Nat) (pay : Payload) : State :=
  match pay with
  | .bytes l => s.poolWrites client k l.length
  | .masked data mask => s.poolWrites client k data.length fun i => nth 0 mask i == 0xFF
  | .capability _ _ => s.poolWrites client k 16
  | .atom _ m _ => (s.poolReads client k m).poolWrites client k m
  | .cas m _ _ => (s.poolReads client k m).poolWrites client k m
  | .barrier _ _ => (s.poolReads client k 192).poolWrites client k 192
  | .board (.init _ _) _ => (s.poolWrites client (k + 0x400) 80).poolWrites client (k + 0x480) 4096
  | .board .clear _ => ((s.poolReads client (k + 0x440) 16).poolWrites client (k + 0x400) 80).poolWrites client (k + 0x480) 4096
  | .board (.post j _) _ =>
    ((((s.poolReads client (k + 2 * j) 2).poolReads client (k + 0x400) 80)).poolWrites client (k + 0x480 + 8 * j) 8).poolWrites
      client (k + 0x400) 80
  | .board (.read j) _ => (s.poolReads client (k + 0x480 + 8 * j) 8).poolReads client (k + 0x400) 80
  | _ => s.poolReads client k (if op = 0x02 then 16 else n)

/-- The client of a pool whose request an access of the issuing core to the key is (R60): the cluster port for another core's pool,
and else the load-store unit, or the message unit for a handler. -/
def State.localClient (s : State) : Nat := if s.inHandler then 5 else 1
def State.clientFor (s : State) (k : Nat) : Nat := if homeOf s.core k != s.core then 2 else s.localClient

/-- A piece that the issuing core serves itself: its own pool, a pool of its cluster, or its own frames (R20, R102). -/
def State.serveHere (s : State) (ask : Ask) (g : Group) (reply : Flight) : State × Served :=
  match g.route with
  | .key k => (s.poolServes (s.clientFor k) k ask.op g.n (ask.payload g)).serve (homeOf g.core k) k ask.op g.n (ask.payload g) reply
  | .msg _ _ => (s, .later)

/-- The piece goes by message. -/
def Group.remote (g : Group) : Bool := match g.route with | .msg _ _ => true | _ => false

/-- The request of a piece that goes by message (R100, R102, R103). -/
def State.request (s : State) (ask : Ask) (g : Group) : Flight :=
  match g.route with
  | .msg dst addr =>
    { dst, src := s.core, op := ask.op, rq := true, slot := s.slot, gen := s.sl.gen, bc := g.n - 1, addr
      pay := ask.payload g, via := s.via }
  | _ => { dst := s.core, src := s.core, op := ask.op }

/-- A free transaction tag of a core (R103). -/
def freeTag (m : Messages) : Option Nat := findBelow 256 fun i => !m.tags.contains i

/-- A transaction tag of a core is taken (R103). -/
def State.takeTag (s : State) (c : Coord) (tag : Nat) : State :=
  s.modCore c fun x => { x with msg := { x.msg with tags := tag :: x.msg.tags } }

/-- A piece sent; one to a frame of the core's own slice, whose page is being moved, stands at once at the lock (R88, R102). -/
def State.postPiece (s : State) (c : Coord) (f : Flight) : State :=
  if f.dst == c && f.op < 0x06 && paKind f.addr < 2 then
    { s with net := s.net ++ [{ f with ts := s.ts, via := .queue s.pkg.arrivals }], pkg := { s.pkg with arrivals := s.pkg.arrivals + 1 } }
  else s.post f

/-- Slot `i` of core `c` sends its next piece, when a tag is free and the send queue has room (R103, R116). A handler's piece
that waited for a tag and now finds its send queue at the limit takes send-queue full. -/
def State.sendPiece (s : State) (c : Coord) (i : Nat) : Option State :=
  match (s.slotAt c i).pend with
  | none => none
  | some p =>
    match p.todo, freeTag (s.coreAt c).msg with
    | (piece, f) :: rest, some tag =>
      if i ≠ 0 ∧ f.via != .mesh ∧ !s.threadRoom c then none
      else if i = 0 ∧ f.via != .mesh ∧ s.handlerRoom c = 0 then
        let t : State := { s with core := c, slot := 0 }
        some { t.takeTrap 0x0D t.sl.pc.addr (word f.dst.toNat) with core := s.core, slot := s.slot }
      else
        let t := (s.takeTag c tag).modSlot c i fun x =>
          { x with pend := some { p with todo := rest, pieces := p.pieces ++ [{ piece with tag }] } }
        some (t.postPiece c { f with tag })
    | _, _ => none

/-- Slot `i` sends what it can. -/
def State.pumpSlot : Nat → State → Coord → Nat → State
  | 0, s, _, _ => s
  | n + 1, s, c, i =>
    match s.sendPiece c i with
    | some t => State.pumpSlot n t c i
    | none => s

/-- Every slot of a core sends what it can. -/
def State.pump (s : State) (c : Coord) : State :=
  (List.range (slotCount c)).foldl (fun t i => t.pumpSlot 1024 c i) s

/-! ### Completion -/

/-- The number that `n` bytes of a buffer from a place hold. -/
def bufNat (buf : Sparse Byte) (place n : Nat) : Nat := leNat ((List.range n).map fun i => look 0 buf (place + i))

/-- An integer result of `n` bytes (R286, R295). -/
def loaded (n : Nat) (isSigned : Bool) (x : Nat) : Word := if isSigned then wordI (signed x (8 * n)) else word x

/-- Element `e` of a buffer, of `halves` half bytes. -/
def bufElem (buf : Sparse Byte) (halves e : Nat) : Nat :=
  if halves = 1 then bits (look 0 buf (e / 2)).toNat (4 * (e % 2) + 3) (4 * (e % 2))
  else bufNat buf (halves * e / 2) (halves / 2)

/-- A register value with the elements `l` replaced by those of the buffer (R293). -/
def loadElements (old : Nat) (halves n : Nat) (l : List Nat) (buf : Sparse Byte) : Nat :=
  joinBits (4 * halves) ((splitBits (4 * halves) n old).zipIdx.map fun (x, e) =>
    if l.contains e then bufElem buf halves e else x)

/-- The trap of the lowest FAULT reply (R104, R172, R284). -/
def Pending.faultOf (p : Pending) (place cause : Nat) (addr : Word) : Nat × Word :=
  match p.fin with
  | .vload _ _ _ _ _ => memberFault (place / 64) cause addr
  | .store => memberFault (place / 64) cause addr
  | _ => (cause, addr)

/-- The address fields of g[rb] to g[rb + 3] from reply bytes 0-31 (R298). -/
def State.setArgs (s : State) (rb : GReg) (buf : Sparse Byte) : State :=
  (List.range 4).foldl (fun t i => t.writeInt (rb + BitVec.ofNat 5 i) (word (bufNat buf (8 * i) 8))) s

/-- The send status (R298). -/
def sendStatus (p : Pending) : Word := word (at_ 8 (if p.out = 1 then p.rlen else 0) + p.out)

/-- A curve table written from its image; an invalid table raises illegal operand and leaves the table (R398). -/
def State.writeCurve (t : State) (c : Nat) (table : BitVec 1536) : Ret :=
  if curveValid table then .done (t.modCr fun x => { x with eng := { x.eng with curves := put x.eng.curves c table } })
  else .trap t 0x02 0

/-- The command queue that carries every LAUNCH (R403, log 12). -/
def launchQueue : Nat := 63

/-- A job descriptor submitted by LAUNCH (R324, R403): a full queue refuses it with reason 1; otherwise the thread is
Stalled until firmware answers. -/
def State.submitJob (t : State) (d : GReg) (desc : BitVec 1024) : Ret :=
  let q := look [] t.pkg.commands launchQueue
  if 64 ≤ q.length then .done (t.writeInt d 1)
  else
    let e : Submission := { desc, job := some t.jobNo, waiter := some (t.core, t.slot, t.sl.gen) }
    let u : State := { t with pkg := { t.pkg with commands := put t.pkg.commands launchQueue (q ++ [e]) } }
    .stay (u.modSl fun x => { x with st := .stalled, await := .none, pend := some { pieces := [], len := 4, fin := .launch d } })

/-- What the instruction does when its last reply has come. The completions of CTXLOAD and VUNPK are their own
families' (`concludeImage`, `concludeUnpack`). -/
def conclude (t : State) (p : Pending) : Ret :=
  match p.fault with
  | some (place, cause, addr) =>
    let (c, a) := p.faultOf place cause addr
    .trap (t.returnEntries t.core p.taken) c a
  | none =>
    match p.fin with
    | .load d n sg => .done (t.writeInt d (loaded n sg (bufNat p.buf 0 n)))
    | .store => .done t
    | .loadCap d keepTag =>
      .done (t.setG d { tag := p.ctag && keepTag, hi := word (bufNat p.buf 8 8), addr := word (bufNat p.buf 0 8) })
    | .atomic d n sg => .done (t.writeInt d (loaded n sg (bufNat p.buf 0 n)))
    | .vload vd halves la pk l =>
      let g := t.sl.gang.size
      let x := loadElements (t.vec vd) halves (128 * g / halves) l p.buf
      let y : Span := { reg := vd, halves, on := l.contains }
      .done t (some { rem := la, pk, vs := [(vd, vecParts g x)], bare := y.bare g, part := (y.touched g).filter (y.bare g).contains })
    | .send rb rd =>
      let u := if p.out = 1 then t.setArgs rb p.buf else t
      .done (u.writeInt rd (sendStatus p))
    | .sendx rb rd =>
      let k := scratchKey t.core t.cr.partw (bits (t.ga rb).toNat 55 0)
      let u := if p.out = 1 then
          (t.poolWrites t.localClient k p.rlen).writeBytes k ((List.range p.rlen).map fun i => look 0 p.buf i) else t
      .done (u.writeInt rd (sendStatus p))
    | .phase d => .done (t.writeInt d (word (bufNat p.buf 0 4)))
    | .barWait d => .done (t.writeInt d (word (bufNat p.buf 0 4)))
    | .silent => .done t
    | .view bv d =>
      match d with
      | none => .done (t.setView bv (BitVec.ofNat 576 (bufNat p.buf 0 72)))
      | some r => .done ((t.writeInt r (word (bufNat p.buf 0 8))).setView bv (BitVec.ofNat 576 (bufNat p.buf 8 72)))
    | .word d => .done (t.writeInt d (word (bufNat p.buf 0 8)))
    | .launch d => .done (t.writeInt d (word (bufNat p.buf 0 8)))
    | .descriptor d => t.submitJob d (BitVec.ofNat 1024 (bufNat p.buf 0 128))
    | .curve c => t.writeCurve c (BitVec.ofNat 1536 (bufNat p.buf 0 192))
    | .saved d => .done (t.writeInt d 0)
    | .imageHead _ => .done t
    | .image _ => .done t
    | .unpack _ _ => .done t
    | .access => .done t
    | .migrate d => .done (t.writeInt d 0)

/-! ### The whole access -/

/-- The die's WALK for a page, unless the answer to one is still to come: one for all of its misses to the page (R437). -/
def State.askWalk (s : State) (die job : Nat) (space : Space) (va : Nat) : State :=
  let d := s.dieAt die
  if d.walks.any fun w => w.job == job && w.space == space && w.page == va / 2 ^ 16 then s
  else
    (s.setDie die { d with walks := d.walks ++ [{ job, space, page := va / 2 ^ 16 }] }).post
      { dst := walkers, src := dieScheduler die, op := 0xC3, rq := true, pay := .walk job space va 0 }

/-- A miss of the issuing thread (R437). A core has at most four misses. -/
def State.startWalk (s : State) (job : Nat) (space : Space) (va : Nat) (eaddr : Word) (cause : Nat := 0x09) : State :=
  let mine := missPages s.cr
  if 4 ≤ mine.length && !mine.contains (job, space, va / 2 ^ 16) then s.awaiting .stalled .room
  else (s.awaiting .stalled (.walk job space va cause eaddr)).askWalk s.core.die job space va

/-- What becomes of an instruction whose access fails a check, misses, or meets a locked page. -/
def State.refuse (s : State) (p : Part) (k : Check) : Ret :=
  let member := if p.core = s.core then 0 else indexIn p.core - indexIn s.core
  match k with
  | .ok _ => .done s
  | .bad cause eaddr => let (c, a) := memberFault member cause eaddr; .trap s c a
  | .miss space va eaddr => let (c, a) := memberFault member 0x09 eaddr; .stay (s.startWalk s.jobNo space va a c)
  | .locked => .stay (s.awaiting .stalled .room)
  | .busy pa => .stay ((s.demandBus pa).awaiting .stalled .room)

/-- The first destination that a handler's send queue has no room for (R116). -/
def State.overfull (s : State) (l : List Flight) : Option Coord :=
  if s.inHandler then (l.drop (s.handlerRoom s.core)).head?.map (·.dst) else none

/-- The checked pieces of an access performed: those served at once, then the requests sent; the instruction completes
when nothing is outstanding. DESIGN CHOICE (log 12): an AMO request that waits at the head of its queue for a reply entry (R117)
has not arrived in the order of R143 yet, so that the owner's own atomic operation issued meanwhile is performed first. -/
def State.perform (s : State) (len : Nat) (st : SlotState) (w : Await) (ask : Ask) (fin : Completion) (gs : List Group)
    (conc : State → Pending → Ret := conclude) : Ret :=
  let far := (gs.filter (·.remote)).map fun g =>
    (({ tag := 0, addr := g.x, runs := g.runs, pa := g.route.place } : Piece), s.request ask g)
  match s.overfull (far.map (·.2)) with
  | some dst => .trap s 0x0D (word dst.toNat)
  | none =>
    if ask.mayDefer && far.isEmpty && (freeTag s.cr.msg).isNone then .stay (s.awaiting .stalled .room) else
    let tag := (freeTag s.cr.msg).getD 0
    let reply : Flight := { dst := s.core, src := s.core, op := 0x40, tag }
    let near := gs.filter (!·.remote)
    let (t, p, r) := near.foldl (fun (t, p, r0) g =>
      let (u, r) := t.serveHere ask g reply
      (u, p.take g.runs g.x r, if r0 == .ack then r else r0)) (s, ({ pieces := [], len, fin } : Pending), .ack)
    if r == .retry then .stay (t.awaiting .waiting (.retry t.ts.toNat))
    else if r == .later then
      .stay ((t.takeTag t.core tag).modSl fun x =>
        { x with st, await := w, pend := some { p with pieces := [{ tag, addr := 0, runs := [(0, 0, 4)] }] } })
    else if far.isEmpty then conc t p
    else
      let t := t.modSl fun x => { x with st, await := w, pend := some { p with todo := far } }
      .stay (t.pumpSlot 1024 t.core t.slot)

/-- AN ACCESS through `c` (R47): every part is checked in order; then it is performed. -/
def State.access (s : State) (len : Nat) (c : Cap) (need : Need) (ask : Ask) (fin : Completion) (parts : List Part)
    (st : SlotState := .stalled) (w : Await := .none) (conc : State → Pending → Ret := conclude) : Ret :=
  match checkParts s s.sl.priv s.jobNo c need parts with
  | (.ok _, l) => s.perform len st w ask fin (piecesOf ask l) conc
  | (bad, (p, _) :: _) => s.refuse p bad
  | (_, []) => .done s

/-! ### Wayfarers (R165-R168) -/

/-- The wayfarer's context as it would travel (R165, R166). -/
def contextOf (x : Slot) (pca : Word) : Context :=
  { stat := word (at_ 40 (x.mem.ctr % 2 ^ 24) + at_ 32 (min x.hops 255) + at_ 6 x.mpol + at_ 4 x.pri + at_ 3 (b2n x.priv))
    pca, g := (List.range 16).map fun i => look {} x.g i, mem := x.mem }

/-- The policy MPOL admits a region (R166). -/
def policyAdmits (mpol code : Nat) : Bool :=
  match mpol with | 1 => code == 2 || code == 3 | 2 => code == 2 | 3 => code == 3 | _ => false

/-- The core to which an access makes a wayfarer migrate (R167). -/
def State.migrationTarget (s : State) (c : Cap) (need : Need) (x n : Nat) : Option Coord :=
  let y := s.sl
  let target := namedCore x
  if y.wayfarer && !y.noMigrate && !y.inUser && !y.inSystem && (region x == 2 || region x == 3) &&
      (earlyChecks s { core := s.core, priv := y.priv, job := s.jobNo } c need x n x 1).isNone && target != s.core &&
      s.dieLive target.die && c.canMigrate && policyAdmits y.mpol (region x) then some target
  else none

/-- The slot goes in transit: every result lands first, as at TSYNC, and the context is sent (R107, R221). -/
def State.depart (s : State) (target : Coord) (len : Nat) (fin : Completion) (pca : Word) (f : Slot → Slot) : State :=
  let t := (s.landAll s.sl.haz).modSl fun x => { x with haz := [], keep := [] }
  let ctx := contextOf (f t.sl) pca
  let tag := (freeTag t.cr.msg).getD 0
  let p : Pending := { pieces := [{ tag, addr := 0, runs := [] }], len, fin }
  let t := (t.takeTag t.core tag).modSl fun x => { x with st := .transit, pend := some p }
  t.post { dst := target, src := t.core, op := 0x60, rq := true, slot := t.slot, gen := t.sl.gen, tag, pay := .wayfarer ctx
           via := .thread t.slot }

/-- A wayfarer can leave: its message finds a tag and room in the send queue (R103, R116). -/
def State.mayDepart (s : State) : Bool := s.sendRoom false && (freeTag s.cr.msg).isSome

/-- An access that may make a wayfarer migrate (R167, R168). -/
def State.wayAccess (s : State) (len : Nat) (c : Cap) (need : Need) (ask : Ask) (fin : Completion) (x n : Nat) : Ret :=
  match s.migrationTarget c need x n with
  | some target =>
    if s.mayDepart then .stay (s.depart target len .access s.sl.pc.addr id) else .stay (s.awaiting .stalled .room)
  | none => s.access len c need ask fin (partsOf s.core x n 0)

end Sys2Proof.Machine
end

