-- ==== Sys2Proof/Machine/Integer.lean ====
section
/-! DEFINITION. Sys2Proof/Machine/Integer.lean: the integer instructions of map 0, their compact aliases and LI.W (R259-R265, R213). -/

namespace Sys2Proof.Machine

/-! ### Shared operations -/

/-- The operand width of a width code (R260). -/
def intWidth (w : BitVec 3) : Nat :=
  match w.toNat % 4 with
  | 0 => 64 | 1 => 32 | 2 => 16 | _ => 8

/-- A result of width `n` extended by the width code: by sign, or by zero when fn[2] is set (R260). -/
def intExtend (w : BitVec 3) (res : Int) : Word :=
  let n := intWidth w
  if w.toNat < 4 then wordI (signed (wrap res n) n) else word (wrap res n)

/-- A result of the arithmetic and logic rows of R261: width, a and b reduced to it. -/
abbrev IntFn := Nat → Nat → Nat → Int

/-- The value IntOp of R261 writes for a result that is extended. -/
def intValue (f : IntFn) (w : BitVec 3) (a b : Word) : Word :=
  let n := intWidth w
  intExtend w (f n (a.toNat % 2 ^ n) (b.toNat % 2 ^ n))

/-- The value IntOp of R261 writes for a comparison. -/
def intTest (f : IntFn) (w : BitVec 3) (a b : Word) : Word :=
  let n := intWidth w
  wordI (f n (a.toNat % 2 ^ n) (b.toNat % 2 ^ n))

/-- An instruction that writes an integer formed from two g registers (R259). -/
def intOp2 (len : Nat) (f : Word → Word → Word) (d a b : GReg) (s : State) : Answer :=
  issue s len (usesG [d] [a, b]) fun t => .done (t.writeInt d (f (t.ga a) (t.ga b)))

/-- An instruction that writes an integer formed from one g register. -/
def intOp1 (len : Nat) (f : Word → Word) (d a : GReg) (s : State) : Answer :=
  issue s len (usesG [d] [a]) fun t => .done (t.writeInt d (f (t.ga a)))

/-- An instruction that writes a constant. -/
def intOp0 (len : Nat) (x : Word) (d : GReg) (s : State) : Answer :=
  issue s len (usesG [d] []) fun t => .done (t.writeInt d x)

/-! ### The result table of R261 -/

def resAdd : IntFn := fun _ a b => (a : Int) + b
def resSub : IntFn := fun _ a b => (a : Int) - b
def resMul : IntFn := fun _ a b => (a : Int) * b
/-- ⌊sa × sb / 2^n⌋. -/
def resMulh : IntFn := fun n a b => (signed a n * signed b n) / (2 ^ n : Int)
def resMulhu : IntFn := fun n a b => ((a * b / 2 ^ n : Nat) : Int)
/-- Truncated toward zero; all ones for a zero divisor. -/
def resDiv : IntFn := fun n a b => if b = 0 then 2 ^ n - 1 else (signed a n).tdiv (signed b n)
def resDivu : IntFn := fun n a b => if b = 0 then 2 ^ n - 1 else ((a / b : Nat) : Int)
def resRem : IntFn := fun n a b => if b = 0 then (a : Int) else signed a n - signed b n * (signed a n).tdiv (signed b n)
def resRemu : IntFn := fun _ a b => if b = 0 then (a : Int) else ((a % b : Nat) : Int)
def resAnd : IntFn := fun _ a b => ((a &&& b : Nat) : Int)
def resOr : IntFn := fun _ a b => ((a ||| b : Nat) : Int)
def resXor : IntFn := fun _ a b => ((a ^^^ b : Nat) : Int)
/-- The count is b mod n. -/
def resShl : IntFn := fun n a b => ((a * 2 ^ (b % n) : Nat) : Int)
def resShr : IntFn := fun n a b => ((a / 2 ^ (b % n) : Nat) : Int)
def resSar : IntFn := fun n a b => signed a n / (2 ^ (b % n) : Int)
def resRol : IntFn := fun n a b => ((a * 2 ^ (b % n) + a / 2 ^ (n - b % n) : Nat) : Int)
/-- Zero bits above the highest set bit; n for 0. -/
def resClz : IntFn := fun n a _ => ((n - bitLength a : Nat) : Int)
/-- Zero bits below the lowest set bit; n for 0. -/
def resCtz : IntFn := fun n a _ => ((((findBelow n fun i => bit a i).getD n) : Nat) : Int)
def resPopc : IntFn := fun n a _ => ((popCount n a : Nat) : Int)
def resMin : IntFn := fun n a b => min (signed a n) (signed b n)
def resMax : IntFn := fun n a b => max (signed a n) (signed b n)
def resMinu : IntFn := fun _ a b => ((min a b : Nat) : Int)
def resMaxu : IntFn := fun _ a b => ((max a b : Nat) : Int)
def resSeq : IntFn := fun _ a b => ((b2n (a == b) : Nat) : Int)
def resSne : IntFn := fun _ a b => ((b2n (a != b) : Nat) : Int)
def resSlt : IntFn := fun n a b => ((b2n (signed a n < signed b n) : Nat) : Int)
def resSltu : IntFn := fun _ a b => ((b2n (a < b) : Nat) : Int)

/-! ### Register-register instructions (R261) -/

/-- ADD (R261). -/
def execAdd (d a b : GReg) (w : BitVec 3) (s : State) : Answer :=
  intOp2 4 (intValue resAdd w) d a b s

/-- SUB (R261). -/
def execSub (d a b : GReg) (w : BitVec 3) (s : State) : Answer :=
  intOp2 4 (intValue resSub w) d a b s

/-- MUL (R261). -/
def execMul (d a b : GReg) (w : BitVec 3) (s : State) : Answer :=
  intOp2 4 (intValue resMul w) d a b s

/-- MULH (R261). -/
def execMulh (d a b : GReg) (w : BitVec 3) (s : State) : Answer :=
  intOp2 4 (intValue resMulh w) d a b s

/-- MULHU (R261). -/
def execMulhu (d a b : GReg) (w : BitVec 3) (s : State) : Answer :=
  intOp2 4 (intValue resMulhu w) d a b s

/-- DIV (R261). -/
def execDiv (d a b : GReg) (w : BitVec 3) (s : State) : Answer :=
  intOp2 4 (intValue resDiv w) d a b s

/-- DIVU (R261). -/
def execDivu (d a b : GReg) (w : BitVec 3) (s : State) : Answer :=
  intOp2 4 (intValue resDivu w) d a b s

/-- REM (R261). -/
def execRem (d a b : GReg) (w : BitVec 3) (s : State) : Answer :=
  intOp2 4 (intValue resRem w) d a b s

/-- REMU (R261). -/
def execRemu (d a b : GReg) (w : BitVec 3) (s : State) : Answer :=
  intOp2 4 (intValue resRemu w) d a b s

/-- AND (R261). -/
def execAnd (d a b : GReg) (w : BitVec 3) (s : State) : Answer :=
  intOp2 4 (intValue resAnd w) d a b s

/-- OR (R261). -/
def execOr (d a b : GReg) (w : BitVec 3) (s : State) : Answer :=
  intOp2 4 (intValue resOr w) d a b s

/-- XOR (R261). -/
def execXor (d a b : GReg) (w : BitVec 3) (s : State) : Answer :=
  intOp2 4 (intValue resXor w) d a b s

/-- SHL (R261). -/
def execShl (d a b : GReg) (w : BitVec 3) (s : State) : Answer :=
  intOp2 4 (intValue resShl w) d a b s

/-- SHR (R261). -/
def execShr (d a b : GReg) (w : BitVec 3) (s : State) : Answer :=
  intOp2 4 (intValue resShr w) d a b s

/-- SAR (R261). -/
def execSar (d a b : GReg) (w : BitVec 3) (s : State) : Answer :=
  intOp2 4 (intValue resSar w) d a b s

/-- ROL (R261). -/
def execRol (d a b : GReg) (w : BitVec 3) (s : State) : Answer :=
  intOp2 4 (intValue resRol w) d a b s

/-- MIN (R261). -/
def execMin (d a b : GReg) (w : BitVec 3) (s : State) : Answer :=
  intOp2 4 (intValue resMin w) d a b s

/-- MAX (R261). -/
def execMax (d a b : GReg) (w : BitVec 3) (s : State) : Answer :=
  intOp2 4 (intValue resMax w) d a b s

/-- MINU (R261). -/
def execMinu (d a b : GReg) (w : BitVec 3) (s : State) : Answer :=
  intOp2 4 (intValue resMinu w) d a b s

/-- MAXU (R261). -/
def execMaxu (d a b : GReg) (w : BitVec 3) (s : State) : Answer :=
  intOp2 4 (intValue resMaxu w) d a b s

/-- SEQ (R261): 1 or 0. -/
def execSeq (d a b : GReg) (w : BitVec 3) (s : State) : Answer :=
  intOp2 4 (intTest resSeq w) d a b s

/-- SNE (R261): 1 or 0. -/
def execSne (d a b : GReg) (w : BitVec 3) (s : State) : Answer :=
  intOp2 4 (intTest resSne w) d a b s

/-- SLT (R261): 1 or 0. -/
def execSlt (d a b : GReg) (w : BitVec 3) (s : State) : Answer :=
  intOp2 4 (intTest resSlt w) d a b s

/-- SLTU (R261): 1 or 0. -/
def execSltu (d a b : GReg) (w : BitVec 3) (s : State) : Answer :=
  intOp2 4 (intTest resSltu w) d a b s

/-- CLZ (R261). -/
def execClz (d a : GReg) (w : BitVec 3) (s : State) : Answer :=
  intOp1 4 (fun x => intValue resClz w x 0) d a s

/-- CTZ (R261). -/
def execCtz (d a : GReg) (w : BitVec 3) (s : State) : Answer :=
  intOp1 4 (fun x => intValue resCtz w x 0) d a s

/-- POPC (R261). -/
def execPopc (d a : GReg) (w : BitVec 3) (s : State) : Answer :=
  intOp1 4 (fun x => intValue resPopc w x 0) d a s

/-! ### Bit fields, selection and copying (R262, R263) -/

/-- Bits [p + L - 1 : p] of `a`, bits above 63 reading 0, with `l` = L - 1 and p = b mod 64 (R262). -/
def extField (l : BitVec 6) (a b : Word) : Nat := a.toNat / 2 ^ (b.toNat % 64) % 2 ^ (l.toNat + 1)

/-- The word with bits [p + L - 1 : p] of `old` replaced by the low L bits of `a`, bits above 63 dropped (R262). -/
def insField (l : BitVec 6) (old a b : Word) : Word :=
  let p := b.toNat % 64
  let m := (2 ^ (l.toNat + 1) - 1) * 2 ^ p
  (old &&& ~~~word m) ||| word (a.toNat % 2 ^ (l.toNat + 1) * 2 ^ p)

/-- EXT.N64 (R262). -/
def execExtN64 (d a b : GReg) (l : BitVec 6) (s : State) : Answer :=
  intOp2 4 (fun x y => word (extField l x y)) d a b s

/-- EXT.I64 (R262). -/
def execExtI64 (d a b : GReg) (l : BitVec 6) (s : State) : Answer :=
  intOp2 4 (fun x y => wordI (signed (extField l x y) (l.toNat + 1))) d a b s

/-- INS (R262). -/
def execIns (d a b : GReg) (l : BitVec 6) (s : State) : Answer :=
  issue s 4 (usesG [d] [a, b, d]) fun t => .done (t.writeInt d (insField l (t.ga d) (t.ga a) (t.ga b)))

/-- SEL (R263). -/
def execSel (d a b c : GReg) (s : State) : Answer :=
  issue s 4 (usesG [d] [a, b, c]) fun t => .done (t.writeInt d (if t.ga c ≠ 0 then t.ga a else t.ga b))

/-- A copy of all 129 bits (R263). -/
def copyG (len : Nat) (d a : GReg) (s : State) : Answer :=
  issue s len (usesG [d] [a]) fun t => .done (t.setG d (t.g a))

/-- MOV (R263). -/
def execMov (d a : GReg) (s : State) : Answer := copyG 4 d a s

/-! ### Immediate instructions (R264, R265) -/

/-- Sx(imm12). -/
def sx12 (i : BitVec 12) : Word := i.signExtend 64

/-- Sx of a compact immediate (R213). -/
def sx6 (i : BitVec 6) : Word := i.signExtend 64

/-- Shifts at width 64 by an immediate count. -/
def shiftLeft (u : BitVec 6) (a : Word) : Word := a <<< u.toNat
def shiftRight (u : BitVec 6) (a : Word) : Word := a >>> u.toNat
def shiftArith (u : BitVec 6) (a : Word) : Word := a.sshiftRight u.toNat

/-- ADDI (R264). -/
def execAddi (d a : GReg) (i : BitVec 12) (s : State) : Answer := intOp1 4 (· + sx12 i) d a s

/-- ANDI (R264). -/
def execAndi (d a : GReg) (i : BitVec 12) (s : State) : Answer := intOp1 4 (· &&& sx12 i) d a s

/-- ORI (R264). -/
def execOri (d a : GReg) (i : BitVec 12) (s : State) : Answer := intOp1 4 (· ||| sx12 i) d a s

/-- XORI (R264). -/
def execXori (d a : GReg) (i : BitVec 12) (s : State) : Answer := intOp1 4 (· ^^^ sx12 i) d a s

/-- SHLI (R264). -/
def execShli (d a : GReg) (u : BitVec 6) (s : State) : Answer := intOp1 4 (shiftLeft u) d a s

/-- SHRI (R264). -/
def execShri (d a : GReg) (u : BitVec 6) (s : State) : Answer := intOp1 4 (shiftRight u) d a s

/-- SARI (R264). -/
def execSari (d a : GReg) (u : BitVec 6) (s : State) : Answer := intOp1 4 (shiftArith u) d a s

/-- LI (R264). -/
def execLi (d : GReg) (i : BitVec 12) (s : State) : Answer := intOp0 4 (sx12 i) d s

/-- LIH (R264). -/
def execLih (d a : GReg) (i : BitVec 12) (s : State) : Answer :=
  intOp1 4 (fun x => word (at_ 52 i.toNat + x.toNat % 2 ^ 52)) d a s

/-- LI.W (R265): a producer with LA = 0 and PK = 0, whose result lands when the next instruction issues. -/
def execLiW (d : GReg) (imm : BitVec 64) (s : State) : Answer :=
  issue s 10 { gw := [d.toNat], prod := some (0, false) } fun t =>
    .done t (some { rem := 0, pk := false, gs := [(d.toNat, Cap.ofWord imm)] })

/-! ### Compact aliases (R213): two bytes long, width 64 -/

/-- C.R ADD (R213). -/
def execCAdd (d a : GReg) (s : State) : Answer := intOp2 2 (intValue resAdd 0) d d a s

/-- C.R SUB (R213). -/
def execCSub (d a : GReg) (s : State) : Answer := intOp2 2 (intValue resSub 0) d d a s

/-- C.R AND (R213). -/
def execCAnd (d a : GReg) (s : State) : Answer := intOp2 2 (intValue resAnd 0) d d a s

/-- C.R OR (R213). -/
def execCOr (d a : GReg) (s : State) : Answer := intOp2 2 (intValue resOr 0) d d a s

/-- C.R XOR (R213). -/
def execCXor (d a : GReg) (s : State) : Answer := intOp2 2 (intValue resXor 0) d d a s

/-- C.R SHL (R213). -/
def execCShl (d a : GReg) (s : State) : Answer := intOp2 2 (intValue resShl 0) d d a s

/-- C.R SHR (R213). -/
def execCShr (d a : GReg) (s : State) : Answer := intOp2 2 (intValue resShr 0) d d a s

/-- C.R SAR (R213). -/
def execCSar (d a : GReg) (s : State) : Answer := intOp2 2 (intValue resSar 0) d d a s

/-- C.R MUL (R213). -/
def execCMul (d a : GReg) (s : State) : Answer := intOp2 2 (intValue resMul 0) d d a s

/-- C.R MIN (R213). -/
def execCMin (d a : GReg) (s : State) : Answer := intOp2 2 (intValue resMin 0) d d a s

/-- C.R MAX (R213). -/
def execCMax (d a : GReg) (s : State) : Answer := intOp2 2 (intValue resMax 0) d d a s

/-- C.R MINU (R213). -/
def execCMinu (d a : GReg) (s : State) : Answer := intOp2 2 (intValue resMinu 0) d d a s

/-- C.R MAXU (R213). -/
def execCMaxu (d a : GReg) (s : State) : Answer := intOp2 2 (intValue resMaxu 0) d d a s

/-- C.R SLT (R213). -/
def execCSlt (d a : GReg) (s : State) : Answer := intOp2 2 (intTest resSlt 0) d d a s

/-- C.R MOV (R213). -/
def execCMov (d a : GReg) (s : State) : Answer := copyG 2 d a s

/-- C.I ADDI (R213). -/
def execCAddi (d : GReg) (i : BitVec 6) (s : State) : Answer := intOp1 2 (· + sx6 i) d d s

/-- C.I LI (R213). -/
def execCLi (d : GReg) (i : BitVec 6) (s : State) : Answer := intOp0 2 (sx6 i) d s

/-- C.I SHLI (R213). -/
def execCShli (d : GReg) (u : BitVec 6) (s : State) : Answer := intOp1 2 (shiftLeft u) d d s

/-- C.I SHRI (R213). -/
def execCShri (d : GReg) (u : BitVec 6) (s : State) : Answer := intOp1 2 (shiftRight u) d d s

/-- C.I SARI (R213). -/
def execCSari (d : GReg) (u : BitVec 6) (s : State) : Answer := intOp1 2 (shiftArith u) d d s

/-- C.I ANDI (R213). -/
def execCAndi (d : GReg) (i : BitVec 6) (s : State) : Answer := intOp1 2 (· &&& sx6 i) d d s

end Sys2Proof.Machine
end

