-- ==== Sys2Proof/Machine/Capability.lean ====
section
/-! DEFINITION. Sys2Proof/Machine/Capability.lean: the capability instructions of map 0 (R266-R271). -/

namespace Sys2Proof.Machine

/-- An instruction that writes a capability formed from a capability register and an integer register. -/
def capOp2 (f : Cap → Word → Cap) (d a b : GReg) (s : State) : Answer :=
  issue s 4 (usesG [d] [a, b]) fun t => .done (t.setG d (f (t.g a) (t.ga b)))

/-- An instruction that writes an integer read out of a capability register, tagged or not, sealed or not (R271). -/
def capRead (f : Cap → Word) (d a : GReg) (s : State) : Answer :=
  issue s 4 (usesG [d] [a]) fun t => .done (t.writeInt d (f (t.g a)))

/-- The capability of a register moved by a displacement (R266). -/
def moveBy (len : Nat) (i : Word) (d a : GReg) (s : State) : Answer :=
  issue s len (usesG [d] [a]) fun t => .done (t.setG d ((t.g a).move (t.ga a + i)))

/-- CADDI (R266). -/
def execCaddi (d a : GReg) (i : BitVec 12) (s : State) : Answer := moveBy 4 (sx12 i) d a s

/-- CADD (R266). -/
def execCadd (d a b : GReg) (s : State) : Answer := capOp2 (fun c x => c.move (c.addr + x)) d a b s

/-- CSUB (R266). -/
def execCsub (d a b : GReg) (s : State) : Answer := capOp2 (fun c x => c.move (c.addr - x)) d a b s

/-- CSETB (R267). -/
def execCsetb (d a b : GReg) (s : State) : Answer := capOp2 Cap.setBounds d a b s

/-- CSETP (R268). -/
def execCsetp (d a b : GReg) (s : State) : Answer := capOp2 Cap.setPerm d a b s

/-- CSETF (R269). -/
def execCsetf (d a b : GReg) (s : State) : Answer := capOp2 Cap.setFormat d a b s

/-- CSETC (R270), system-only: address of `a`, upper half the address field of `b`. -/
def execCsetc (d a b : GReg) (s : State) : Answer :=
  issue s 4 { usesG [d] [a, b] with sysOnly := true } fun t => .done (t.setG d (capOf (t.ga a) (t.ga b)))

/-- CGETA (R271). -/
def execCgeta (d a : GReg) (s : State) : Answer := capRead (·.addr) d a s

/-- CGETB (R271). -/
def execCgetb (d a : GReg) (s : State) : Answer := capRead (fun c => wordI c.bounds.1) d a s

/-- CGETT (R271). -/
def execCgett (d a : GReg) (s : State) : Answer := capRead (fun c => wordI c.bounds.2) d a s

/-- CGETP (R271). -/
def execCgetp (d a : GReg) (s : State) : Answer := capRead (fun c => word c.perm) d a s

/-- CGETF (R271). -/
def execCgetf (d a : GReg) (s : State) : Answer := capRead Cap.formatWord d a s

/-- CTAG (R271). -/
def execCtag (d a : GReg) (s : State) : Answer := capRead (fun c => word (b2n c.tag)) d a s

/-- CCLR (R271). -/
def execCclr (d a : GReg) (s : State) : Answer :=
  issue s 4 (usesG [d] [a]) fun t => .done (t.setG d { t.g a with tag := false })

/-- C.I CADDI (R213, R266). -/
def execCCaddi (d : GReg) (i : BitVec 6) (s : State) : Answer := moveBy 2 (sx6 i) d d s

end Sys2Proof.Machine
end

