-- ==== Sys2Proof/Machine/Memory.lean ====
section
/-! DEFINITION. Sys2Proof/Machine/Memory.lean: scalar loads and stores, capability loads and stores, acquire and release accesses, fences, prefetch and atomics (R135, R283-R291, R295, R296). -/

namespace Sys2Proof.Machine

/-! ### Shared operations -/

/-- A malformed scope value (R135). -/
def scopeBad (x : Word) : Bool :=
  let n := x.toNat
  let kind := bits n 63 60
  match kind with
  | 2 => bits n 31 0 != 0 || bits n 43 38 < bits n 55 50 || bits n 37 32 < bits n 49 44
  | 3 => bits n 55 32 != 0 || bits n 27 0 != 0 || bits n 31 28 < bits n 59 56
  | _ => 6 < kind || bits n 59 0 != 0

/-- A scope register that must not be malformed (R135). -/
def scopeCheck (r : GReg) (t : State) : Option Nat := if scopeBad (t.ga r) then some 0x02 else none

/-- The access address of the immediate format (R283). -/
def accessAddr (t : State) (a : GReg) (i : BitVec 12) : Nat := (t.ga a + sx12 i).toNat

/-- A mask that enables every bit of `n` bytes. -/
def fullMask (n : Nat) : List Byte := List.replicate n 0xFF

/-- What a plain load or store needs. -/
def loadNeed : Need := { l := true }
def storeNeed : Need := { s := true }

/-- A scalar load of `n` bytes at `x` through `c` (R286). -/
def loadAt (t : State) (need : Need) (c : Cap) (x n : Nat) (isSigned : Bool) (d : GReg) : Ret :=
  t.wayAccess 4 c need .load (.load d n isSigned) x n

/-- A scalar store of the low `n` bytes of `v` at `x` through `c` (R286). -/
def storeAt (t : State) (need : Need) (c : Cap) (x n : Nat) (v : Word) : Ret :=
  t.wayAccess 4 c need (.store (leBytes n v.toNat) (fullMask n)) .store x n

/-- LD (R286). -/
def loadOp (n : Nat) (isSigned : Bool) (d a : GReg) (i : BitVec 12) (s : State) : Answer :=
  issue s 4 (usesG [d] [a]) fun t => loadAt t loadNeed (t.g a) (accessAddr t a i) n isSigned d

/-- ST (R286): `d` is the source. -/
def storeOp (n : Nat) (d a : GReg) (i : BitVec 12) (s : State) : Answer :=
  issue s 4 (usesG [] [d, a]) fun t => storeAt t storeNeed (t.g a) (accessAddr t a i) n (t.ga d)

/-- What AMO and CAS of `n` bytes need (R30, R146, R295). -/
def atomicNeed (n : Nat) : Need := { l := true, s := true, a := true, align := n, atomic := true }

/-- The scope of an ordered atomic is checked at decode (R135, R295). -/
def orderCheck (c : GReg) (o : BitVec 2) (t : State) : Option Nat := if o = 0 then none else scopeCheck c t

/-- The registers of an atomic: the scope register counts only when an ordering is named (R295). -/
def atomicUses (d : GReg) (l : List GReg) (c : GReg) (o : BitVec 2) : Uses := usesG [d] (l ++ if o = 0 then [] else [c])

/-- AMO (R295): every source is read before rd is written; the old value is sign-extended for MIN and MAX. -/
def amoOp (op : AtomOp) (n : Nat) (isSigned : Bool) (d a b c : GReg) (o : BitVec 2) (s : State) : Answer :=
  issuePre s 4 (atomicUses d [a, b] c o) (orderCheck c o) fun t =>
    t.wayAccess 4 (t.g a) (atomicNeed n) (.atom op n (t.ga b)) (.atomic d n isSigned) (t.ga a).toNat n

/-- CAS (R295): the expected value is the low bytes of g[rd]. -/
def casOp (n : Nat) (d a b c : GReg) (o : BitVec 2) (s : State) : Answer :=
  issuePre s 4 (atomicUses d [a, b, d] c o) (orderCheck c o) fun t =>
    t.wayAccess 4 (t.g a) (atomicNeed n) (.cas n (t.ga d) (t.ga b)) (.atomic d n false) (t.ga a).toNat n

/-! ### Scalar loads and stores (R286) -/

/-- LD.I8 (R286). -/
def execLdI8 (d a : GReg) (i : BitVec 12) (s : State) : Answer := loadOp 1 true d a i s

/-- LD.I16 (R286). -/
def execLdI16 (d a : GReg) (i : BitVec 12) (s : State) : Answer := loadOp 2 true d a i s

/-- LD.I32 (R286). -/
def execLdI32 (d a : GReg) (i : BitVec 12) (s : State) : Answer := loadOp 4 true d a i s

/-- LD.I64 (R286). -/
def execLdI64 (d a : GReg) (i : BitVec 12) (s : State) : Answer := loadOp 8 true d a i s

/-- LD.N8 (R286). -/
def execLdN8 (d a : GReg) (i : BitVec 12) (s : State) : Answer := loadOp 1 false d a i s

/-- LD.N16 (R286). -/
def execLdN16 (d a : GReg) (i : BitVec 12) (s : State) : Answer := loadOp 2 false d a i s

/-- LD.N32 (R286). -/
def execLdN32 (d a : GReg) (i : BitVec 12) (s : State) : Answer := loadOp 4 false d a i s

/-- LD.N64 (R286). -/
def execLdN64 (d a : GReg) (i : BitVec 12) (s : State) : Answer := loadOp 8 false d a i s

/-- ST of 8 bits (R286). -/
def execSt8 (d a : GReg) (i : BitVec 12) (s : State) : Answer := storeOp 1 d a i s

/-- ST of 16 bits (R286). -/
def execSt16 (d a : GReg) (i : BitVec 12) (s : State) : Answer := storeOp 2 d a i s

/-- ST of 32 bits (R286). -/
def execSt32 (d a : GReg) (i : BitVec 12) (s : State) : Answer := storeOp 4 d a i s

/-- ST of 64 bits (R286). -/
def execSt64 (d a : GReg) (i : BitVec 12) (s : State) : Answer := storeOp 8 d a i s

/-! ### Capabilities (R287) -/

/-- An LDC from FABRIC is two 8-byte reads and its tag is 0 (R38, R146). -/
def execLdc (d a : GReg) (i : BitVec 12) (s : State) : Answer :=
  issue s 4 (usesG [d] [a]) fun t =>
    let x := accessAddr t a i
    let fabric := region x == 5
    t.wayAccess 4 (t.g a) { l := true, align := 16 } (if fabric then .load else .loadCap)
      (.loadCap d ((t.g a).canLoadCap && !fabric)) x 16

/-- STC (R287): a tagged value needs SC, and G outside LOCAL (R37); an untagged one is plain data. -/
def execStc (d a : GReg) (i : BitVec 12) (s : State) : Answer :=
  issue s 4 (usesG [] [d, a]) fun t =>
    let x := accessAddr t a i
    let v := t.g d
    let plain := leBytes 8 v.addr.toNat ++ leBytes 8 v.hi.toNat
    t.wayAccess 4 (t.g a) { s := true, align := 16, storesCap := if v.tag then some v.isGlobal else none }
      (if v.tag then .storeCap v else .store plain (fullMask 16)) .store x 16

/-! ### Acquire, release, fences, prefetch (R288-R291) -/

/-- LD.ACQ (R288): the access lies within one granule; the width code gives size and extension. -/
def execLdAcq (d a b : GReg) (w : BitVec 3) (s : State) : Answer :=
  issuePre s 4 (usesG [d] [a, b]) (scopeCheck b) fun t =>
    loadAt t { loadNeed with oneGranule := true } (t.g a) (t.ga a).toNat (intWidth w / 8) (w.toNat < 4) d

/-- ST.REL (R288). -/
def execStRel (d a b : GReg) (z : BitVec 2) (s : State) : Answer :=
  issuePre s 4 (usesG [] [d, a, b]) (scopeCheck b) fun t =>
    storeAt t { storeNeed with oneGranule := true } (t.g a) (t.ga a).toNat (intWidth (z.setWidth 3) / 8) (t.ga d)

/-- FENCE (R289): every earlier access of the thread has been performed when it issues. -/
def execFence (a : GReg) (o : BitVec 2) (s : State) : Answer :=
  issuePre s 4 (usesG [] [a]) (scopeCheck a) fun t => if o = 0 then illegal t else .done t

/-- IFENCE (R290): nothing fetched is held beyond the instruction in execution. -/
def execIfence (s : State) : Answer := issue s 4 {} fun t => .done t

/-- What the checks of a PREF need (R291). -/
def prefNeed (h : BitVec 5) : Need := if h = 2 then { x := true, fetch := true } else { l := true }

/-- PREF.T: the core's TLB takes the translation of the page, from the die's TLB or freshly walked, when every check of the
access passes (R47, R291, R436). -/
def State.prefetch (t : State) (h : BitVec 5) (c : Cap) (x : Nat) : State :=
  let w : Who := { core := t.core, priv := t.sl.priv, job := t.jobNo }
  let space := spaceOf x
  let fill (l : Translation) : State :=
    match pageChecks t w c (prefNeed h) space x 1 l with
    | .bad _ _ => t
    | _ => t.modCr fun y => if (tlbFind y.tlb t.jobNo space x).isSome then y else { y with tlb := addTranslation 64 y.tlb l }
  if h ≠ 0 then t
  else
    match checkPart t w c (prefNeed h) x 1 x 1 with
    | .miss _ _ _ => (t.leafOf t.jobNo space x).elim t fill
    | .bad _ _ => t
    | _ => (t.translation t.core t.jobNo space x).elim t fill

/-- PREF (R291): it never traps, changes no visible state and never migrates. -/
def execPref (h : BitVec 5) (a : GReg) (i : BitVec 12) (s : State) : Answer :=
  issue s 4 (usesG [] [a]) fun t => .done (t.prefetch h (t.g a) (accessAddr t a i))

/-! ### Atomics (R295) -/

/-- CAS.N32 (R295). -/
def execCasN32 (d a b c : GReg) (o : BitVec 2) (s : State) : Answer := casOp 4 d a b c o s

/-- CAS.N64 (R295). -/
def execCasN64 (d a b c : GReg) (o : BitVec 2) (s : State) : Answer := casOp 8 d a b c o s

/-- AMO.ADD.N32 (R295). -/
def execAmoAddN32 (d a b c : GReg) (o : BitVec 2) (s : State) : Answer :=
  amoOp .add 4 false d a b c o s

/-- AMO.ADD.N64 (R295). -/
def execAmoAddN64 (d a b c : GReg) (o : BitVec 2) (s : State) : Answer :=
  amoOp .add 8 false d a b c o s

/-- AMO.AND.N32 (R295). -/
def execAmoAndN32 (d a b c : GReg) (o : BitVec 2) (s : State) : Answer :=
  amoOp .and 4 false d a b c o s

/-- AMO.AND.N64 (R295). -/
def execAmoAndN64 (d a b c : GReg) (o : BitVec 2) (s : State) : Answer :=
  amoOp .and 8 false d a b c o s

/-- AMO.OR.N32 (R295). -/
def execAmoOrN32 (d a b c : GReg) (o : BitVec 2) (s : State) : Answer :=
  amoOp .or 4 false d a b c o s

/-- AMO.OR.N64 (R295). -/
def execAmoOrN64 (d a b c : GReg) (o : BitVec 2) (s : State) : Answer :=
  amoOp .or 8 false d a b c o s

/-- AMO.XOR.N32 (R295). -/
def execAmoXorN32 (d a b c : GReg) (o : BitVec 2) (s : State) : Answer :=
  amoOp .xor 4 false d a b c o s

/-- AMO.XOR.N64 (R295). -/
def execAmoXorN64 (d a b c : GReg) (o : BitVec 2) (s : State) : Answer :=
  amoOp .xor 8 false d a b c o s

/-- AMO.MIN.I32 (R295). -/
def execAmoMinI32 (d a b c : GReg) (o : BitVec 2) (s : State) : Answer :=
  amoOp .min 4 true d a b c o s

/-- AMO.MIN.I64 (R295). -/
def execAmoMinI64 (d a b c : GReg) (o : BitVec 2) (s : State) : Answer :=
  amoOp .min 8 true d a b c o s

/-- AMO.MAX.I32 (R295). -/
def execAmoMaxI32 (d a b c : GReg) (o : BitVec 2) (s : State) : Answer :=
  amoOp .max 4 true d a b c o s

/-- AMO.MAX.I64 (R295). -/
def execAmoMaxI64 (d a b c : GReg) (o : BitVec 2) (s : State) : Answer :=
  amoOp .max 8 true d a b c o s

/-- AMO.MINU.N32 (R295). -/
def execAmoMinuN32 (d a b c : GReg) (o : BitVec 2) (s : State) : Answer :=
  amoOp .minu 4 false d a b c o s

/-- AMO.MINU.N64 (R295). -/
def execAmoMinuN64 (d a b c : GReg) (o : BitVec 2) (s : State) : Answer :=
  amoOp .minu 8 false d a b c o s

/-- AMO.MAXU.N32 (R295). -/
def execAmoMaxuN32 (d a b c : GReg) (o : BitVec 2) (s : State) : Answer :=
  amoOp .maxu 4 false d a b c o s

/-- AMO.MAXU.N64 (R295). -/
def execAmoMaxuN64 (d a b c : GReg) (o : BitVec 2) (s : State) : Answer :=
  amoOp .maxu 8 false d a b c o s

/-- AMO.SWAP.N32 (R295). -/
def execAmoSwapN32 (d a b c : GReg) (o : BitVec 2) (s : State) : Answer :=
  amoOp .swap 4 false d a b c o s

/-- AMO.SWAP.N64 (R295). -/
def execAmoSwapN64 (d a b c : GReg) (o : BitVec 2) (s : State) : Answer :=
  amoOp .swap 8 false d a b c o s

/-- AMO.FADD.F32 (R295). -/
def execAmoFaddF32 (d a b c : GReg) (o : BitVec 2) (s : State) : Answer := amoOp .faddF32 4 false d a b c o s

/-- AMO.FADD.BF16 (R295). -/
def execAmoFaddBf16 (d a b c : GReg) (o : BitVec 2) (s : State) : Answer := amoOp .faddBf16 2 false d a b c o s

end Sys2Proof.Machine
end

