-- ==== Sys2Proof/Machine/Mesh.lean ====
section
/-! DEFINITION. Sys2Proof/Machine/Mesh.lean: what a message is made of, the routers of the package mesh, their tree and tables, the flit slots of their ports, and the bridges between dies (R96, R97, R99-R101, R105-R110, R119-R121, R126, R165). -/

namespace Sys2Proof.Machine

/-! ### Payloads and headers (R99-R101) -/

/-- The class of an operation (R101). -/
def opClass (op : Nat) : Nat := if op < 0x40 then 0 else if op < 0x60 then 1 else if op < 0x70 then 2 else if op < 0xC0 then 3 else 4

/-- A wayfarer's context as its 274 bytes: the g registers, their tags, PCA and STAT (R165). -/
def Context.image (c : Context) : List Byte :=
  let reg (i : Nat) : Cap := nth {} c.g i
  ((List.range 16).flatMap fun i => leBytes 8 (reg i).addr.toNat ++ leBytes 8 (reg i).hi.toNat) ++
  leBytes 2 (((List.range 16).map fun i => at_ i (b2n (reg i).tag)).foldl (· + ·) 0) ++ leBytes 8 c.pca.toNat ++ leBytes 8 c.stat.toNat

/-- The number of an atomic operation in a payload (layout log 12). -/
def AtomOp.code : AtomOp → Nat
  | .add => 0 | .and => 1 | .or => 2 | .xor => 3 | .min => 4 | .max => 5 | .minu => 6 | .maxu => 7 | .swap => 8
  | .faddF32 => 9 | .faddBf16 => 10

/-- The number of a barrier operation and its operand (layout log 12). -/
def BarOp.code : BarOp → Nat
  | .init n => at_ 8 n + 0x20
  | .arrive m drop => at_ 8 m + 0x21 + b2n drop
  | .wait p => at_ 8 p + 0x23
  | .expect t => at_ 8 t + 0x24

/-- The bytes of a board operation (layout log 12). -/
def BoardOp.bytes : BoardOp → List Byte
  | .init h n => leBytes 8 (0x30 + at_ 8 h + at_ 24 n)
  | .post j x => leBytes 8 (0x31 + at_ 8 j) ++ leBytes 8 x.toNat
  | .read j => leBytes 8 (0x32 + at_ 8 j)
  | .clear => leBytes 8 0x33

/-- The number of an event operation (layout log 12). -/
def EventOp.code : EventOp → Nat
  | .sig => 0 | .wait => 1 | .clr => 2 | .qry => 3

/-- The bytes of a payload: where the spec gives a message no layout, that of log 12 (R101, R126, R165). -/
def Payload.image : Payload → List Byte
  | .none => []
  | .bytes l => l
  | .masked data _ => data
  | .capability image tag => image ++ [BitVec.ofNat 8 (b2n tag)]
  | .atom op n x => leBytes 8 (op.code + at_ 8 n) ++ leBytes 8 x.toNat
  | .cas _ e x => leBytes 8 e.toNat ++ leBytes 8 x.toNat
  | .barrier op unit => leBytes 8 op.code ++ leBytes 8 unit
  | .board op issuer => op.bytes ++ leBytes 8 issuer.toNat
  | .event op name => leBytes 8 (name + at_ 16 op.code)
  | .woken name state => leBytes 8 name ++ leBytes 8 state.toNat
  | .fault cause addr => leBytes 8 cause ++ leBytes 8 addr.toNat
  | .reason r => leBytes 1 r
  | .port p v => leBytes 8 p ++ leBytes 64 v.toNat
  | .wayfarer c => c.image
  | .walk job _ va level => leBytes 8 va ++ leBytes 8 (job + at_ 56 level)
  | .translation job _ va leaf shift _ => leBytes 8 va ++ leBytes 8 (job + at_ 56 shift) ++ leBytes 8 leaf
  | .walkFault job _ va level _ => leBytes 8 va ++ leBytes 8 (job + at_ 56 level)
  | .walkAbsent job _ va => leBytes 8 va ++ leBytes 8 job
  | .shoot kind job lo hi => leBytes 8 (job + at_ 56 kind) ++ leBytes 8 lo ++ leBytes 8 hi
  | .probe origin queue hops => leBytes 4 (origin.toNat + at_ 16 queue + at_ 24 hops)
  | .engine _ _ off len va data _ => if data.isEmpty then leBytes 8 (off + at_ 32 len) ++ leBytes 8 va else data
  | .engineFault _ _ cause addr => leBytes 8 cause ++ leBytes 8 addr.toNat
  | .entry e => leBytes 64 e.toNat
  | .chunk ring seq command result b i off len data =>
    leBytes 8 (ring + at_ 8 (b2n result) + at_ 16 off + at_ 32 len) ++ leBytes 8 (seq % 2 ^ 32 + at_ 32 b) ++ leBytes 8 command ++
    leBytes 8 i ++ data

/-- The payload bytes of a message; an ACK has none (R101). -/
def Flight.image (f : Flight) : List Byte := if f.op = 0x41 then [] else f.pay.image

/-- The flits of `p` payload bytes: 1 to 10 for the 304 bytes that a message may carry (R99). -/
def flitsFor (p : Nat) : Nat := (16 + p + 31) / 32

/-- The flits of a message (R99). -/
def Flight.count (f : Flight) : Nat := flitsFor f.image.length

/-- MC and FL: those of the operation and of the length, unless the header says otherwise (R100, R101). -/
def Flight.mcfl (f : Flight) : Nat × Nat := f.told.getD (opClass f.op, f.count - 1)

/-- The 128-bit header (R100). -/
def Flight.header (f : Flight) : Nat :=
  at_ 125 f.mcfl.1 + at_ 121 f.mcfl.2 + at_ 105 f.dst.toNat + at_ 89 f.src.toNat +
  at_ 88 (b2n f.th) + at_ 87 (b2n f.rq) + at_ 82 (f.slot % 32) + at_ 72 f.gen.toNat + at_ 64 (f.op % 256) +
  at_ 56 (f.tag % 256) + at_ 48 (f.bc % 256) + f.addr % 2 ^ 48

/-- Byte `i` of flit 0 and of the flits after it: the header, then the payload (R99). -/
def Flight.bytes (f : Flight) : List Byte := leBytes 16 f.header ++ f.image

/-- The 32 bytes of flit `k` (R99). -/
def Flight.flit (f : Flight) (k : Nat) : List Byte := (List.range 32).map fun i => nth 0 f.bytes (32 * k + i)

/-- An operation that R101 assigns. -/
def opAssigned (op : Nat) : Bool :=
  op ≤ 0x07 || (0x40 ≤ op && op ≤ 0x45) || op == 0x60 || (0x70 ≤ op && op ≤ 0x74) || (0xC0 ≤ op && op ≤ 0xC6)

/-- ADDR names a scratchpad (R100) or a control space (log 25). -/
def Flight.isScratch (f : Flight) : Bool := bits f.addr 47 44 == 15
def Flight.isControl (f : Flight) : Bool := bits f.addr 47 44 == 14

/-- The reserved bits of ADDR are zero: of a scratchpad address, and of a physical address of R43 (R100, R101). -/
def addrClean (a : Nat) : Bool :=
  a < 2 ^ 48 &&
  match bits a 47 44 with
  | 0 => bits a 39 36 == 0
  | 1 => bits a 39 29 == 0
  | 2 => true
  | 14 => bits a 43 24 == 0
  | 15 => bits a 43 24 == 0
  | _ => false

/-- The payload is one that the operation carries (R101). -/
def payloadFits : Nat → Payload → Bool
  | 0x00, .none => true
  | 0x01, .bytes _ => true
  | 0x01, .masked _ _ => true
  | 0x02, .none => true
  | 0x03, .capability _ _ => true
  | 0x04, .atom _ _ _ => true
  | 0x04, .barrier _ _ => true
  | 0x04, .board _ _ => true
  | 0x05, .cas _ _ _ => true
  | 0x06, .bytes _ => true
  | 0x07, .port _ _ => true
  | 0x40, .bytes _ => true
  | 0x40, .capability _ _ => true
  | 0x41, _ => true
  | 0x42, .fault _ _ => true
  | 0x42, .engineFault _ _ _ _ => true
  | 0x43, .reason _ => true
  | 0x44, .bytes _ => true
  | 0x45, .reason _ => true
  | 0x60, .wayfarer _ => true
  | 0x70, .engine _ _ _ _ _ _ _ => true
  | 0x71, .engine _ _ _ _ _ _ _ => true
  | 0x72, .engine _ _ _ _ _ _ _ => true
  | 0x73, .entry _ => true
  | 0x74, .chunk _ _ _ _ _ _ _ _ _ => true
  | 0xC0, .probe _ _ _ => true
  | 0xC1, .event _ _ => true
  | 0xC2, .woken _ _ => true
  | 0xC3, .walk _ _ _ _ => true
  | 0xC4, .translation _ _ _ _ _ _ => true
  | 0xC4, .walkFault _ _ _ _ _ => true
  | 0xC4, .walkAbsent _ _ _ => true
  | 0xC5, .shoot _ _ _ _ => true
  | 0xC6, .entry _ => true
  | _, _ => false

/-- A message is malformed (R101): an operation that is not assigned, a class or a length in its header that is not that of
its operation and payload, a payload of another operation, or a reserved bit in ADDR. -/
def Flight.malformed (f : Flight) : Bool :=
  !opAssigned f.op || f.mcfl != (opClass f.op, f.count - 1) || !payloadFits f.op f.pay || !addrClean f.addr

/-! ### Routers and links (R96, R108; the grid is log 33's) -/

/-- The router of an endpoint: number 16 times the physical die and, in it, one for each 8 by 8 cores; 256 is the control
die's, which serves its own endpoints and the fabric ports (R97). The router that injects maps the virtual die to the
physical one. -/
def State.routerOf (s : State) (c : Coord) : Nat :=
  if c.die = 0 ∧ (c.row = 61 ∨ c.row = 63) then 256
  else 16 * s.physical c.die + (if c.row < 32 then 4 * (c.row / 8) + c.col / 8 % 4 else 0)

/-- A mesh link joins neighbours of a die's grid, and a bridge joins the first routers of two dies. -/
def linked (u v : Nat) : Bool :=
  if u / 16 = v / 16 then
    u < 256 && (u + 4 == v || v + 4 == u || (u / 4 == v / 4 && (u + 1 == v || v + 1 == u)))
  else u % 16 == 0 && v % 16 == 0 && u ≤ 256 && v ≤ 256

/-- The link of two routers is a die-to-die bridge. -/
def isBridge (u v : Nat) : Bool := u / 16 != v / 16

/-- A pair of routers in ascending order. -/
def linkPair (u v : Nat) : Nat × Nat := (min u v, max u v)

/-- The link is there and not retired (R109, R448). -/
def State.linkUp (s : State) (u v : Nat) : Bool := linked u v && !s.pkg.cut.contains (linkPair u v)

/-! ### The spanning tree and the tables (R108) -/

/-- The parent of a router in the tree that bring-up installs; router 0 is its root. -/
def parentAtStart (u : Nat) : Option Nat :=
  if u % 4 ≠ 0 then some (u - 1) else if u % 16 ≠ 0 then some (u - 4) else if u ≠ 0 then some 0 else none

/-- The parent of a router in a tree; a root is its own. -/
def treeParent (t : Sparse Nat) (u : Nat) : Option Nat :=
  match t.find? fun e => e.1 == u with
  | some (_, v) => if v = u then none else some v
  | none => parentAtStart u

/-- A router and its ancestors. -/
def upChain (t : Sparse Nat) : Nat → Nat → List Nat
  | 0, u => [u]
  | fuel + 1, u =>
    match treeParent t u with
    | some v => u :: upChain t fuel v
    | none => [u]

/-- The ancestors of a router; no path of a tree over the 257 routers is longer. -/
def ancestors (t : Sparse Nat) (u : Nat) : List Nat := upChain t 257 u

/-- The depth of a router (R108). -/
def treeDepth (t : Sparse Nat) (u : Nat) : Nat := (ancestors t u).length - 1

/-- A link direction is up: it leads to a lower pair of depth and number (R108). -/
def isUp (t : Sparse Nat) (u v : Nat) : Bool :=
  treeDepth t v < treeDepth t u || (treeDepth t v == treeDepth t u && v < u)

/-- THE TABLE of a router: its next hop toward a router (R108). Below it in the tree, down; at the first router of a die
whose bridge leads to the die of the destination, over that bridge; else up. -/
def nextHop (t : Sparse Nat) (up : Nat → Nat → Bool) (u v : Nat) : Option Nat :=
  let below := ancestors t v
  if below.contains u then (below.takeWhile (· != u)).getLast?
  else if u % 16 = 0 && isBridge u v && up u (v / 16 * 16) && below.contains (v / 16 * 16) then some (v / 16 * 16)
  else treeParent t u

/-- The routers that a message passes from `u` to `v`, both among them. -/
def routeFrom (t : Sparse Nat) (up : Nat → Nat → Bool) : Nat → Nat → Nat → List Nat
  | 0, u, _ => [u]
  | fuel + 1, u, v =>
    if u = v then [u]
    else
      match nextHop t up u v with
      | some w => u :: routeFrom t up fuel w v
      | none => [u]

/-- The installed tables use the link: it was not retired when they were made (R109). -/
def State.linkRouted (s : State) (u v : Nat) : Bool := linked u v && !s.pkg.routed.contains (linkPair u v)

/-- The next hop under the installed tables. -/
def State.hopFrom (s : State) (u v : Nat) : Option Nat := nextHop s.pkg.tree s.linkRouted u v

/-- The route under the installed tables. -/
def State.routeBetween (s : State) (u v : Nat) : List Nat := routeFrom s.pkg.tree s.linkRouted 32 u v

/-- The route of a message from its source to its endpoint. -/
def State.path (s : State) (src dst : Coord) : List Nat := s.routeBetween (s.routerOf src) (s.routerOf dst)

/-- The hops of a route. -/
def hopsOf (l : List Nat) : List (Nat × Nat) := l.zip l.tail

/-- The bridges that a message crosses, by their physical dies. -/
def State.bridgesOn (s : State) (src dst : Coord) : List (Nat × Nat) :=
  ((hopsOf (s.path src dst)).filter fun (u, v) => isBridge u v).map fun (u, v) => (u / 16, v / 16)

/-- The routers that the endpoints of a package need: those of its live dies, and the control die's. -/
def State.routers (s : State) : List Nat :=
  ((List.range 16).filter s.dieLive).flatMap (fun d => (List.range 16).map (16 * s.physical d + ·)) ++ [256]

/-- The tree spans the routers: every chain of parents runs over links in service to one root (R108). -/
def State.spans (s : State) (t : Sparse Nat) : Bool :=
  let root := (ancestors t 256).getLast?
  s.routers.all fun u =>
    let l := ancestors t u
    l.getLast? == root && l.length ≤ 257 && (hopsOf l).all fun (a, b) => s.linkUp a b

/-! ### Link power (R119-R121) -/

/-- The number that a die gives the bridge to a physical die: its virtual die, or 16 for the control die (log 20). -/
def State.bridgeNumber (s : State) (p : Nat) : Nat := if p = 16 then 16 else s.virtualOf p

/-- The state of the bridge between two physical dies. -/
def State.bridgeState (s : State) (p q : Nat) : LinkState :=
  if p = 16 then look .full (s.dieAt (s.bridgeNumber q)).links 16 else look .full (s.dieAt (s.bridgeNumber p)).links (s.bridgeNumber q)

/-- Where the time of a link's last flit is kept. -/
def linkKey (d l : Nat) : Nat := 8192 * d + l

/-- A link carries a flit now (R119, R121). -/
def State.usesLink (s : State) (d l : Nat) : State :=
  { s with pkg := { s.pkg with linkUsed := put s.pkg.linkUsed (linkKey d l) s.ts.toNat } }

/-- A bridge carries a flit now: it is a link of both its dies. -/
def State.usesBridge (s : State) (p q : Nat) : State :=
  let t := if p = 16 then s else s.usesLink (s.bridgeNumber p) (s.bridgeNumber q)
  if q = 16 then t else t.usesLink (s.bridgeNumber q) (s.bridgeNumber p)

/-- A message crosses the bridges of its route. -/
def State.crosses (s : State) (src dst : Coord) : State :=
  (s.bridgesOn src dst).foldl (fun t (p, q) => t.usesBridge p q) s

/-- A link that is not full begins its return to full (R119, R121). -/
def State.beginWake (s : State) (d l : Nat) : State :=
  let x := s.dieAt d
  if look .full x.links l == .full || x.waking.contains l then s else s.setDie d { x with waking := l :: x.waking }

/-- The return to full of a bridge, at both its dies. -/
def State.wakeBridge (s : State) (p q : Nat) : State :=
  let t := if p = 16 then s else s.beginWake (s.bridgeNumber p) (s.bridgeNumber q)
  if q = 16 then t else t.beginWake (s.bridgeNumber q) (s.bridgeNumber p)

/-- The return to full of every bridge on the route to an endpoint (R121). -/
def State.wakeRoute (s : State) (c e : Coord) : State := (s.bridgesOn c e).foldl (fun t (p, q) => t.wakeBridge p q) s

/-! ### Decoupled queues (R105, R111-R114, R117; numbers log 12) -/

/-- A message stands in or before the mesh. -/
def Flight.travels (f : Flight) : Bool := match f.via with | .queue _ => false | _ => true

/-- The receive queue that takes an operation: 0 REQ, 1 ENG, 2 SYS, 3 the landing buffer; a reply has a buffer of its own
(R103, R111; numbers log 12). -/
def receiveQueue (op : Nat) : Nat := match opClass op with | 0 => 0 | 2 => 3 | 3 => 1 | 4 => 2 | _ => 7

/-- The messages that stand in a receive queue of an endpoint. -/
def State.queued (s : State) (c : Coord) (q : Nat) : List Flight :=
  s.net.filter fun f => f.dst == c && receiveQueue f.op == q && !f.travels

/-- The number of a queued message's arrival. -/
def Flight.arrival (f : Flight) : Nat := match f.via with | .queue n => n | _ => 0

/-- The message that stands at the head of a receive queue: the one that came first (R104, R111). -/
def State.queueHead (s : State) (c : Coord) (q : Nat) : Option Flight :=
  (s.queued c q).foldl (fun b f => match b with
    | some g => if f.arrival < g.arrival then some f else some g
    | none => some f) none

/-- Queues of an endpoint: 0 REQ receive, 1 ENG receive, 2 SYS receive, 3 landing buffer, 4 thread send, 5 handler send,
6 send queue of a unit, 64 send queue of an engine. What a queue can wait on besides: 7 the handler slot, 8 + p the mailbox of
port p. -/
def queueCapacity (q : Nat) : Nat := if q = 64 then 16 else nth 1 [32, 16, 16, 2, 16, 8, 16, 1] q

/-- Requests that a core has taken and that wait for the handler slot, a handler send entry or a mailbox. -/
def Messages.reqCount (m : Messages) : Nat := m.waitingActive.length + m.waitingAtomic.length + m.waitingPort.toList.length

/-- Entries of a queue in use (R111). -/
def State.occupancy (s : State) (c : Coord) (q : Nat) : Nat :=
  match q with
  | 0 => (s.coreAt c).msg.reqCount + (s.queued c 0).length
  | 1 => (s.queued c 1).length
  | 2 => (s.queued c 2).length
  | 3 => (s.queued c 3).length
  | 4 => (s.sendQueue c false).length
  | 5 => (s.sendQueue c true).length
  | 6 => (s.unitQueue c).length
  | 7 => b2n (s.coreAt c).handlerStopped
  | 64 => (s.engineQueue c).length
  | _ => (s.coreAt c).portUse (q - 8)

/-- A receive queue has room for one more: its capacity, and the spare room while it is open (R111, R112). -/
def State.queueRoom (s : State) (c : Coord) (q : Nat) : Bool :=
  s.occupancy c q < queueCapacity q + (s.coreAt c).msg.spareRoom q

/-- A message can leave for the receive queue of its endpoint: a reply has a buffer of its own, and a wayfarer waits in the mesh
(R103, R105). -/
def State.destRoom (s : State) (f : Flight) : Bool := opClass f.op == 1 || opClass f.op == 2 || s.queueRoom f.dst (receiveQueue f.op)

/-- The queue that the head of a queue waits on, and from how many entries on that one holds it up (R111, R117, R128, R302,
R400): a request that its unit answers waits on the unit's send queue, the head of a send queue on the receive queue of its
endpoint. -/
def State.waitsOn (s : State) (c : Coord) (q : Nat) : Option (Coord × Nat × Nat) :=
  let m := (s.coreAt c).msg
  let sent (l : List Flight) : Option (Coord × Nat × Nat) :=
    (l.head?.filter fun f => !(opClass f.op == 1 || opClass f.op == 2)).map fun f =>
      (f.dst, receiveQueue f.op, queueCapacity (receiveQueue f.op))
  match q with
  | 0 =>
    if !m.waitingAtomic.isEmpty then some (c, 5, 8)
    else match m.waitingPort.map (fun f => f.pay) with
      | some (Payload.port p _) => some (c, 8 + p, 1)
      | _ =>
        if !m.waitingActive.isEmpty then (if m.handling.isSome then some (c, 5, 6) else some (c, 7, 1))
        else (s.queueHead c 0).bind fun f =>
          if f.op < 0x04 || (f.op < 0x06 && !coreExists c) then some (c, 6, 16) else if f.op < 0x06 then some (c, 5, 8) else none
  | 1 => (s.queueHead c 1).bind fun f => if f.op = 0x70 then some (c, 6, 16) else if f.op = 0x71 then some (c, 64, 16) else none
  | 4 => sent (s.sendQueue c false)
  | 5 => sent (s.sendQueue c true)
  | 6 => sent (s.unitQueue c)
  | 64 => sent (s.engineQueue c)
  | _ => none

/-- The queue is full and its head waits on a full queue (R111): that queue. A queue that waits for a running handler is
blocked only while that handler is stopped (R128). -/
def State.blockedOn (s : State) (c : Coord) (q : Nat) : Option (Coord × Nat) :=
  if queueCapacity q ≤ s.occupancy c q then
    match s.waitsOn c q with
    | some (d, r, n) =>
      let held := q ≠ 0 || r ≠ 5 || !(s.coreAt c).msg.waitingAtomic.isEmpty || (s.coreAt c).handlerStopped
      if held && n ≤ s.occupancy d r then some (d, r) else none
    | none => none
  else none

def State.modMsg (s : State) (c : Coord) (f : Messages → Messages) : State := s.modCore c fun x => { x with msg := f x.msg }

/-- An entry has left a queue of an endpoint: its spare room is in reserve again when its occupancy has fallen to its
capacity (R114), and a queue with room is not blocked, nor one that waits on it (R113). -/
def State.leftQueue (s : State) (c : Coord) (q : Nat) : State :=
  let n := s.occupancy c q
  s.modMsg c fun m =>
    { m with
      spare := if n ≤ queueCapacity q then m.spare.filter (· != q) else m.spare
      roomAt := if n < queueCapacity q then put m.roomAt q s.ts.toNat else m.roomAt }

/-- The queue of its source or of its endpoint that a message stands in. -/
def Flight.standsIn (f : Flight) : Option (Coord × Nat) :=
  match f.via with
  | .thread _ => some (f.src, 4)
  | .handler => some (f.src, 5)
  | .source => some (f.src, if f.isEngine then 64 else 6)
  | .queue _ => some (f.dst, receiveQueue f.op)
  | .mesh => none

/-- A message leaves its send queue for the mesh: it is the head, its endpoint's queue has room, and injection is not held
(R109, R111, R116). -/
def State.mayEnter (s : State) (f : Flight) : Bool :=
  match f.via with
  | .mesh => true
  | .queue _ => false
  | _ => !s.pkg.injectionHeld && s.destRoom f && (s.net.find? fun g => g.standsIn == f.standsIn) == some f

/-! ### Flit slots (R110) -/

/-- The input port of a router at which what comes from another router arrives; 0 is that of its own endpoints. -/
def portFrom (u : Nat) : Nat := u + 1

/-- The flits that stand at an input port: their class, and whether they stand in its escape channel. -/
def State.atPort (s : State) (v port : Nat) : List (Nat × Bool) :=
  s.net.flatMap fun f => (f.flits.filter fun x => x.router == v && x.port == port && x.wire.isNone).map fun x => (opClass f.op, x.escape)

/-- The slot that a flit of a class takes at an input port: one of the 54 shared ones, else one of the 2 of its class's
escape channel; `true` is the escape channel (R110). -/
def State.slotFor (s : State) (v port cls : Nat) : Option Bool :=
  let l := s.atPort v port
  if (l.filter fun x => !x.2).length < 54 then some false
  else if (l.filter fun x => x.2 && x.1 == cls).length < 2 then some true
  else none

/-- Two messages of one class, source and destination, which keep their order (R106). -/
def Flight.sameWay (f g : Flight) : Bool := f.src == g.src && f.dst == g.dst && opClass f.op == opClass g.op

/-- The messages sent before the `n`th that keep their order with it. -/
def State.ahead (s : State) (n : Nat) (f : Flight) : List Flight := (s.net.take n).filter f.sameWay

/-- All of a message has left its source. -/
def Flight.entered (f : Flight) : Bool := f.count ≤ f.landed + f.flits.length

/-- The `n`th message replaced. -/
def State.setFlight (s : State) (n : Nat) (f : Flight) : State := { s with net := s.net.set n f }

/-- The next flit of the `n`th message enters the mesh at its source's router (R110). -/
def State.enterFlit (s : State) (n : Nat) (f : Flight) : Option State :=
  if f.entered || !s.mayEnter f || !(s.ahead n f).all Flight.entered then none
  else
    (s.slotFor (s.routerOf f.src) 0 (opClass f.op)).map fun e =>
      s.setFlight n { f with via := .mesh, flits := f.flits ++ [{ router := s.routerOf f.src, port := 0, escape := e }] }

/-- The bridge direction of two routers. -/
def bridgeKey (u v : Nat) : Nat := 512 * u + v
def State.bridgeAt (s : State) (u v : Nat) : Bridge := look {} s.pkg.bridges (bridgeKey u v)
def State.setBridge (s : State) (u v : Nat) (b : Bridge) : State :=
  { s with pkg := { s.pkg with bridges := put s.pkg.bridges (bridgeKey u v) b } }

/-- A message without its place, as a bridge keeps it. -/
def Flight.placeless (f : Flight) : Flight := { f with via := .mesh, landed := 0, flits := [] }

/-- A bridge carries a message's flits now: it is awake, and for a probe at full width (R115, R119). -/
def State.bridgeCarries (s : State) (f : Flight) (p q : Nat) : Bool :=
  match s.bridgeState p q with
  | .full => true
  | .narrow => f.op != 0xC0
  | .sleep => false

/-- A flit goes one router on (R108, R110): it never passes one ahead of it. At the last router it reaches the endpoint. On
to another die it is put on the bridge, and a copy is kept (R109). -/
def State.moveFlit (s : State) (n k : Nat) (f : Flight) (x : FlitAt) : Option State :=
  let goal := s.routerOf f.dst
  let stands (y : FlitAt) : Bool := y.router == x.router && y.wire.isNone
  if x.wire.isSome || (f.flits.take k).any stands || (s.ahead n f).any (fun g => !g.entered || g.flits.any stands) then none
  else if x.router = goal then
    (if k = 0 then some (s.setFlight n { f with landed := f.landed + 1, flits := f.flits.tail }) else none)
  else
    match s.hopFrom x.router goal with
    | none => none
    | some v =>
      if !s.linkUp x.router v then none
      else if isBridge x.router v then
        if !s.bridgeCarries f (x.router / 16) (v / 16) then none
        else
          let b := s.bridgeAt x.router v
          let t := s.setFlight n { f with flits := f.flits.set k { x with wire := some b.next } }
          some ((t.setBridge x.router v { b with next := b.next + 1, kept := b.kept ++ [(b.next, f.placeless, f.landed + k)] }).usesBridge
            (x.router / 16) (v / 16))
      else
        (s.slotFor v (portFrom x.router) (opClass f.op)).map fun e =>
          s.setFlight n { f with flits := f.flits.set k { router := v, port := portFrom x.router, escape := e } }

/-- The move of a flit (R110). -/
def State.hop (s : State) (n k : Nat) : Option State :=
  match s.net[n]? with
  | none => none
  | some f =>
    match f.flits[k]? with
    | some x => s.moveFlit n k f x
    | none => if k = f.flits.length then s.enterFlit n f else none

/-- The far router takes the flit whose number it awaits off the bridge (R109). -/
def State.receiveFlit (s : State) (n k : Nat) : Option State :=
  match s.net[n]? with
  | none => none
  | some f =>
    match f.flits[k]? with
    | none => none
    | some x =>
      match x.wire, s.hopFrom x.router (s.routerOf f.dst) with
      | some q, some v =>
        let b := s.bridgeAt x.router v
        if q ≠ b.seen then none
        else
          (s.slotFor v (portFrom x.router) (opClass f.op)).map fun e =>
            (s.setFlight n { f with flits := f.flits.set k { router := v, port := portFrom x.router, escape := e } }).setBridge x.router v
              { b with seen := b.seen + 1 }
      | _, _ => none

/-- The near router sends every flit that it still keeps once more (R109). -/
def State.resendBridge (s : State) (u v : Nat) : State :=
  let b := s.bridgeAt u v
  s.setBridge u v { b with again := b.kept.map (·.1) }

/-- The far router takes a flit that was sent once more off the bridge: it discards a duplicate, by its link sequence number, and
takes the flit that it awaits for the one that was sent first (R109). -/
def State.receiveAgain (s : State) (u v : Nat) : Option State :=
  let b := s.bridgeAt u v
  match b.again with
  | [] => none
  | q :: r =>
    let t := s.setBridge u v { b with again := r }
    if q < b.seen then some t
    else
      (s.net.zipIdx.findSome? fun (f, n) =>
        (f.flits.findIdx? fun x => x.router == u && x.wire == some q && s.hopFrom u (s.routerOf f.dst) == some v).map fun k => (n, k)).bind
        fun (n, k) => t.receiveFlit n k

/-- The near router has the acknowledgements of the flits that the far one has taken: it keeps them no longer (R109). -/
def State.ackBridge (s : State) (u v : Nat) : State :=
  let b := s.bridgeAt u v
  s.setBridge u v { b with kept := b.kept.filter fun e => b.seen ≤ e.1 }

/-- The flits that were on the bridge from `u` to `v` stand at `u` again, to be sent from their kept copies (R109). -/
def State.takeBack (s : State) (u v : Nat) : State :=
  let b := s.bridgeAt u v
  let lost (f : Flight) (x : FlitAt) : Bool := x.router == u && match x.wire with
    | some q => b.kept.any fun e => e.1 == q && e.2.1 == f.placeless
    | none => false
  let back (f : Flight) : Flight := { f with flits := f.flits.map fun x => if lost f x then { x with wire := none } else x }
  { s with net := s.net.map back }.setBridge u v {}

/-- A mesh link or a bridge lane group is retired (R109, R448): what was on it is sent again under the tables to come. -/
def State.cutLink (s : State) (u v : Nat) : State :=
  if linked u v then
    let t := (s.takeBack u v).takeBack v u
    { t with pkg := { t.pkg with cut := linkPair u v :: t.pkg.cut.filter (· != linkPair u v) } }
  else s

/-! ### The way out of the mesh (R105, R106, R109, R119) -/

/-- The routers that a message's flits still have to pass. -/
def State.remaining (s : State) (f : Flight) : List Nat :=
  let from_ := match f.flits.getLast? with
    | some x => if f.entered then x.router else s.routerOf f.src
    | none => s.routerOf f.src
  s.routeBetween from_ (s.routerOf f.dst)

/-- What is left of a message can pass to its endpoint now: every link is in service and carries it, no flit of it is on a
bridge, and every input port on the way has a slot for its class (R108, R110, R119). -/
def State.passes (s : State) (f : Flight) : Bool :=
  let others := { s with net := dropFirst (· == f) s.net }
  let l := s.remaining f
  f.count ≤ f.landed ||
  (l.getLast? == some (s.routerOf f.dst) && f.flits.all (fun x => x.wire.isNone) &&
   (hopsOf l).all fun (u, v) => s.linkUp u v && (!isBridge u v || s.bridgeCarries f (u / 16) (v / 16)) &&
     (others.slotFor v (portFrom u) (opClass f.op)).isSome)

/-- The first message of an operation's class from `src` to `dst`, when it carries that operation, or one that R101 does not
assign, and its endpoint can take it: from the head of its receive queue, or, where nothing stands in that queue, out of the mesh
(R105, R106, R109, R111). -/
def State.arriving (s : State) (src dst : Coord) (op : Nat) : Option Flight :=
  match s.net.find? fun f => f.src == src && f.dst == dst && opClass f.op == opClass op with
  | some f =>
    let ready := if f.travels then s.mayEnter f && s.passes f && (s.queueHead dst (receiveQueue op)).isNone
      else s.queueHead dst (receiveQueue op) == some f
    if (f.op == op || !opAssigned f.op) && ready then some f else none
  | none => none

end Sys2Proof.Machine
end

