-- ==== Sys2Proof/Machine/Message.lean ====
section
/-! DEFINITION. Sys2Proof/Machine/Message.lean: active messages, port registers, the pigeonhole, MIGRATE and LWAKE (R100, R122-R126, R209, R297-R305, R423). -/

namespace Sys2Proof.Machine

/-! ### Free values (log 9) -/

/-- The next `n` free bytes as a number, and the state after they are drawn. -/
def State.freeNat (s : State) (n : Nat) : Nat × State :=
  (leNat ((List.range n).map fun i => Config.freeByte (s.free + i)), { s with free := s.free + n })

/-- A trap whose EADDR the spec does not state (log 9). -/
def trapFree (t : State) (cause : Nat) : Ret :=
  let (x, u) := t.freeNat 8
  .trap u cause (word x)

/-! ### Headers and lost property (R100, R126) -/

/-- Its entry in the lost-property queue: the header, then the first 48 payload bytes (R126). -/
def Flight.lostEntry (f : Flight) : Entry :=
  BitVec.ofNat 512 (f.header + at_ 128 (leNat (f.image.take 48)))

/-- A message becomes lost property of a core (R126): the oldest of 16 entries gives way, and a NAK of reason 1 answers a
request. -/
def State.lose (s : State) (c : Coord) (f : Flight) : State :=
  let t := s.modCore c fun x =>
    { x with msg := { x.msg with
        lpq := (if x.msg.lpq.length < 16 then x.msg.lpq else x.msg.lpq.tail) ++ [f.lostEntry]
        lpqCount := min (x.msg.lpqCount + 1) 65535 } }
  if f.rq then t.post { dst := f.src, src := c, op := 0x43, tag := f.tag, pay := .reason 1 } else t

/-! ### Message words and coordinates (R297, R302) -/

/-- The checks of a message word that raise illegal operand (R297). -/
def wordBad (x : Nat) (isX : Bool) : Bool :=
  bits x 63 48 != 0 || bit x 22 || (!isX && bits x 47 40 != 0) || (!bit x 24 && bits x 39 25 != 0) ||
  (bit x 24 && bits x 29 25 == 0)

/-- The check of a destination core (R98, R297): the cause. -/
def destFault (s : State) (dst : Coord) : Option Nat :=
  if !coreExists dst || tier dst != tier s.core then some 0x09
  else if !s.dieLive dst.die then some 0x10
  else none

/-- The message info and the ACTIVE message of a message word (R297). -/
def activeOf (s : State) (w : Nat) (isX : Bool) (args : List Byte) : Flight :=
  let info := bits w 21 16 + at_ 8 (b2n isX) + at_ 16 (bits w 47 40) + at_ 32 ((s.cr.owner.getD 0) % 2 ^ 32)
  let th := bit w 24
  let l := leBytes 8 info ++ args
  { dst := BitVec.ofNat 16 w, src := s.core, op := 0x06, th, rq := bit w 23
    slot := if th then bits w 29 25 else s.slot
    gen := if th then BitVec.ofNat 10 (bits w 39 30) else s.sl.gen
    bc := args.length - 1, pay := .bytes l, via := s.via }

/-- A message that wants no reply enters the send queue: the instruction retires, a thread stalls while the queue is
full, and a handler takes send-queue full (R116, R298). -/
def State.sendOff (s : State) (f : Flight) : Ret :=
  if s.sendRoom false then .done (s.post f)
  else if s.inHandler then .trap s 0x0D (word f.dst.toNat)
  else .stay (s.awaiting .stalled .room)

/-- A message that wants a reply (R298): handler wait in the handler slot. -/
def State.sendAsk (s : State) (f : Flight) (fin : Completion) : Ret :=
  if s.inHandler then .trap s 0x0E 0
  else
    match freeTag s.cr.msg with
    | none => .stay (s.awaiting .stalled .room)
    | some tag =>
      if !s.sendRoom false then .stay (s.awaiting .stalled .room)
      else
        let t := s.modCr fun x => { x with msg := { x.msg with tags := tag :: x.msg.tags } }
        let p : Pending := { pieces := [{ tag, addr := 0, runs := [(0, 0, 256)] }], len := 4, fin }
        .stay ((t.modSl fun x => { x with st := .stalled, await := .none, pend := some p }).post { f with tag })

/-- SEND or SENDX with RQ = 0: once the message is in the queue the send status is OUT 0 (R298). -/
def State.sendPlain (s : State) (f : Flight) (d : GReg) : Ret :=
  match s.sendOff f with
  | .done t p => .done (t.writeInt d 0) p
  | r => r

/-- The end of SEND and SENDX, with the arguments at hand and the register of the send status (R297, R298). -/
def State.sendWord (s : State) (w : Nat) (isX : Bool) (args : List Byte) (fin : Completion) (d : GReg) : Ret :=
  let f := activeOf s w isX args
  match destFault s f.dst with
  | some cause => trapFree s cause
  | none => if f.rq then s.sendAsk f fin else s.sendPlain f d

/-- The four registers from `b` on. -/
def four (b : GReg) : List GReg := (List.range 4).map fun i => b + BitVec.ofNat 5 i

/-- The value a g register has once every result whose window is closed has landed (R220). -/
def State.landedG (s : State) (r : GReg) : Word := ((s.landAll (s.sl.haz.filter fun p => p.rem == 0 && !p.pk)).g r).addr

/-- SEND (R298). -/
def execSend (d a b : GReg) (s : State) : Answer :=
  let asks := bit (s.landedG a).toNat 23
  issuePre s 4 { usesG (d :: if asks then four b else []) (a :: four b) with bad := b.toNat % 4 != 0 }
    (fun t => if wordBad (t.ga a).toNat false then some 0x02 else none) fun t =>
    t.sendWord (t.ga a).toNat false ((four b).flatMap fun r => leBytes 8 (t.ga r).toNat) (.send b d) d

/-- The parts of a SENDX buffer and what it needs: it must lie in LOCAL (R298). -/
def sendxNeed (t : State) (b : GReg) (isStore : Bool) : Need :=
  { l := !isStore, s := isStore, badFormat := region (t.ga b).toNat != 0 }

/-- SENDX (R298): every check is made before anything is sent. -/
def execSendx (d a b : GReg) (s : State) : Answer :=
  issuePre s 4 (usesG [d] [a, b]) (fun t => if wordBad (t.ga a).toNat true then some 0x02 else none) fun t =>
    let w := (t.ga a).toNat
    let x : Int := (t.ga b).toNat
    let n := bits w 47 40 + 1
    match destFault t (BitVec.ofNat 16 w) with
    | some cause => trapFree t cause
    | none =>
      match checkParts t t.sl.priv t.jobNo (t.g b) (sendxNeed t b false) (partsOf t.core x n 0) with
      | (.ok _, l) =>
        let (check, l') := if bit w 23 then
            checkParts t t.sl.priv t.jobNo (t.g b) (sendxNeed t b true) (partsOf t.core x 256 0)
          else (.ok (.key 0), [])
        match check, l' with
        | .ok _, _ => (l.foldl (fun u (p, r) => u.poolReads u.localClient r.place p.n) t).sendWord w true
          (l.flatMap fun (p, r) => t.readBytes r.place p.n) (.sendx b d) d
        | bad, (p, _) :: _ => t.refuse p bad
        | _, [] => .done t
      | (bad, (p, _) :: _) => t.refuse p bad
      | (_, []) => .done t

/-- The v registers that HRET reads (R300). -/
def hretRegs (a : GReg) (v : BitVec 1) (m : BitVec 4) : List (Nat × Nat) :=
  if v = 0 then [] else (List.range ((m.toNat + 1) / 2)).map fun i => (a.toNat + i, 1)

/-- The reply bytes of HRET (R300). -/
def hretBytes (t : State) (a : GReg) (v : BitVec 1) (m : BitVec 4) : List Byte :=
  if v = 0 then (four a).flatMap fun r => leBytes 8 (t.ga r).toNat
  else ((List.range 4).flatMap fun i => leBytes 64 (look 0 t.sl.v (a.toNat + i)).toNat).take (32 * m.toNat)

/-- The words of v registers that the reply is read from. -/
def hretWords (a : GReg) (v : BitVec 1) (m : BitVec 4) : List (Nat × Nat) :=
  if v = 0 then [] else (List.range (2 * m.toNat)).map fun i => (a.toNat + i / 4, i % 4)

/-- HRET (R300): the reply, or ACK for m = 0, and the end of the handler. -/
def execHret (a : GReg) (v : BitVec 1) (m : BitVec 4) (s : State) : Answer :=
  let words := if v = 0 then (if m = 0 then [a] else four a) else []
  issue s 4 { usesG [] words with
      vr := hretRegs a v m
      bad := !s.inHandler || (v == 0 && (a.toNat % 4 != 0 || 1 < m.toNat)) } fun t =>
    match t.cr.msg.handling with
    | some f =>
      if !f.rq then .gone (t.endHandler t.core)
      else if !t.sendRoom true then .trap t 0x0D (word f.src.toNat)
      else
        let r : Flight := { dst := f.src, src := t.core, op := 0x41, tag := f.tag, via := .handler }
        let r := if m = 0 then r else { r with op := 0x44, bc := 32 * m.toNat - 1, pay := .bytes (hretBytes t a v m) }
        t.reading (hretWords a v m) (.gone (((t.fileReads (hretWords a v m)).post r).endHandler t.core))
    | none => .gone (t.endHandler t.core)

/-! ### Port registers (R209, R301, R302) -/

/-- A saved unit with a thread of this kind enters the resume list of its die (R413). -/
def State.markSaved (s : State) (p : SavedThread → Bool) : State :=
  { s with dies := s.dies.map fun (d, x) =>
      (d, { x with saved := x.saved.map fun u => if u.threads.any p then { u with marked := true } else u }) }

/-- The saved thread awaits an entry of a port of its core. -/
def savedAtPort (c : Coord) (p : Nat) (x : SavedThread) : Bool := x.core == c && x.slot.await == .port p

/-- A value stored in an empty mailbox (R209, R302). -/
def State.fillMailbox (s : State) (c : Coord) (p : Nat) (v : Entry) : State :=
  let t := (s.modCore c fun x => x.setPort p { (x.port p) with q := [v] }).markSaved (savedAtPort c p)
  (t.wakeWaits c).wakeReader c p

/-- The mailbox of port `p` is full, so that a value for it waits (R302). -/
def mailboxBusy (x : Core) (p : Nat) : Bool := (x.port p).bind == .mailbox && x.portUse p != 0

/-- A PUTREG value delivered under the binding the port holds (R302). -/
def State.deliverPort (s : State) (c : Coord) (f : Flight) (p : Nat) (v : Entry) : State :=
  if ((s.coreAt c).port p).bind == .mailbox then s.fillMailbox c p v else s.lose c f

/-- PUTREG and PUTREG.V (R302): `words` are the words of v registers that the value is read from. -/
def putOp (u : Uses) (words : List (Nat × Nat)) (value : State → Entry) (a : GReg) (p : BitVec 5) (s : State) : Answer :=
  issuePre s 4 u (fun t => if bits (t.ga a).toNat 63 16 != 0 then some 0x02 else none) fun t => t.reading words <|
    let dst := BitVec.ofNat 16 (t.ga a).toNat
    let f : Flight := { dst, src := t.core, op := 0x07, slot := t.slot, gen := t.sl.gen, bc := 63
                        pay := .port p.toNat (value t), via := t.via }
    match destFault t dst with
    | some cause => trapFree t cause
    | none =>
      if dst ≠ t.core then (t.fileReads words).sendOff f
      else if mailboxBusy t.cr p.toNat then .stay (t.awaiting .stalled .room)
      else .done ((t.fileReads words).deliverPort t.core f p.toNat (value t))

/-- PUTREG (R302): the address field, then zeros. -/
def execPutreg (a b : GReg) (p : BitVec 5) (s : State) : Answer :=
  putOp (usesG [] [a, b]) [] (fun t => BitVec.ofNat 512 (t.ga b).toNat) a p s

/-- PUTREG.V (R302): the leader's part of v[rb]. -/
def execPutregV (a b : GReg) (p : BitVec 5) (s : State) : Answer :=
  putOp { usesG [] [a] with vr := [(b.toNat, 1)] } (wholeVec 1 b.toNat) (fun t => look 0 t.sl.v b.toNat) a p s

/-- Entries have left ports of a core: slots that wait for room, for a mailbox to empty among them, try again (R113, R302). -/
def State.portChanged (s : State) (c : Coord) (l : List Nat) : State :=
  (s.modCore c fun x => l.foldl (fun y p => y.roomNow (8 + p) s.ts) x).wakeRoom c

/-- BIND.MBX (R301). -/
def execBindMbx (d : GReg) (s : State) : Answer :=
  issuePre s 4 { ownOnly := true } (fun t => if (t.cr.port d.toNat).bind != .unbound then some 0x02 else none) fun t =>
    .done (t.modCr fun x => x.setPort d.toNat { bind := .mailbox })

/-- The stream is bound to a port of the core already (R301). -/
def streamBound (x : Core) (n : Nat) : Bool := x.ports.any fun (_, p) => p.bind == .stream n

/-- BIND.STR (R301). -/
def execBindStr (d a : GReg) (s : State) : Answer :=
  issuePre s 4 { usesG [] [a] with ownOnly := true } (fun t =>
      let n := (t.ga a).toNat
      if (t.cr.port d.toNat).bind != .unbound || 16 ≤ n || streamBound t.cr n then some 0x02 else none) fun t =>
    .done (t.modCr fun x => x.setPort d.toNat { bind := .stream (t.ga a).toNat })

/-- The threads that wait on a port take illegal operand at their instruction (R301). -/
def State.failReaders (s : State) (c : Coord) (p : Nat) : State :=
  let t := (List.range (slotCount c)).foldl (fun (t : State) i =>
    let x := t.slotAt c i
    if x.st == .waiting && x.await == .port p then
      let u : State := { t with core := c, slot := i }
      u.takeTrap 0x02 u.sl.pc.addr 0
    else t) s
  { t with core := s.core, slot := s.slot }

/-- A port is unbound and its entries are discarded, those too that an instruction which awaits replies would give back. -/
def Core.unbind (x : Core) (p : Nat) : Core :=
  { x.setPort p {} with slots := x.slots.map fun (i, y) =>
      (i, { y with pend := y.pend.map fun d => { d with taken := d.taken.filter (·.1 != p) } }) }

/-- UNBIND (R301): its readers wake and trap, the saved ones when they have resumed (R413). -/
def execUnbind (d : GReg) (s : State) : Answer :=
  issue s 4 { ownOnly := true } fun t =>
    let u := (t.modCr fun x => x.unbind d.toNat).markSaved (savedAtPort t.core d.toNat)
    .done ((u.failReaders u.core d.toNat).portChanged u.core [d.toNat])

/-! ### The pigeonhole (R122-R124, R303, R423) -/

/-- The summary of an entry (R303). -/
def entrySummary (e : Entry) : Word :=
  word (at_ 40 (bits e.toNat 511 488) + at_ 39 (bits e.toNat 480 480) + bits e.toNat 351 320)

/-- The cause and the address of an entry (R124). -/
def entryCause (e : Entry) : Nat := bits e.toNat 495 488
def entryAddr (e : Entry) : Word := word (bits e.toNat 415 352)

/-- What follows the removal of an entry: a fault entry raises engine job fault at the next instruction (R423). -/
def taken (t : State) (e : Entry) : Ret :=
  if entryCause e = 0 then .done t else .trapNext t 0x12 (entryAddr e) true

/-- A read of the oldest entry that removes it; empty, the thread waits, and a handler takes handler wait (R303). -/
def pgetOp (u : Uses) (write : State → Entry → State) (s : State) : Answer :=
  issue s 4 u fun t =>
    match t.cr.msg.pigeonhole with
    | [] => if t.inHandler then .trap t 0x0E 0 else .stay (t.awaiting .waiting .pigeonhole)
    | e :: r => taken (write (t.modCr fun x => { x with msg := { x.msg with pigeonhole := r } }) e) e

/-- A read of the oldest entry that leaves it; zero when there is none (R303). -/
def ppeekOp (u : Uses) (write : State → Entry → State) (s : State) : Answer :=
  issue s 4 u fun t => .done (write t (t.cr.msg.pigeonhole.headD 0))

/-- The .V form writes the leader's lanes only (R303). -/
def State.writeEntry (s : State) (d : GReg) (e : Entry) : State :=
  (s.modSl fun x => { x with v := put x.v d.toNat e }).scrubVec 1 d.toNat []

/-- PGET (R303). -/
def execPget (d : GReg) (s : State) : Answer := pgetOp (usesG [d] []) (fun t e => t.writeInt d (entrySummary e)) s

/-- PGET.V (R303). -/
def execPgetV (d : GReg) (s : State) : Answer := pgetOp { vw := [(d.toNat, 1)] } (fun t e => t.writeEntry d e) s

/-- PPEEK (R303). -/
def execPpeek (d : GReg) (s : State) : Answer := ppeekOp (usesG [d] []) (fun t e => t.writeInt d (entrySummary e)) s

/-- PPEEK.V (R303). -/
def execPpeekV (d : GReg) (s : State) : Answer := ppeekOp { vw := [(d.toNat, 1)] } (fun t e => t.writeEntry d e) s

/-! ### MIGRATE and LWAKE (R304, R305) -/

/-- MIGRATE (R304). -/
def execMigrate (d a : GReg) (s : State) : Answer :=
  issuePre s 4 (usesG [d] [a])
    (fun t => if !t.sl.wayfarer || bits (t.ga a).toNat 63 16 != 0 then some 0x02 else none) fun t =>
    let dst := BitVec.ofNat 16 (t.ga a).toNat
    match destFault t dst with
    | some cause => trapFree t cause
    | none =>
      if dst = t.core then .done (t.writeInt d 2)
      else if t.sl.mpol = 0 ∨ t.sl.inUser ∨ t.sl.inSystem then .done (t.writeInt d 0)
      else if !t.mayDepart then .stay (t.awaiting .stalled .room)
      else
        .stay (t.depart dst 4 (.migrate d) (t.sl.pc.addr + 4) fun x => { x with g := put x.g d.toNat (Cap.ofWord 1) })

/-- The stair links of a core begin their return to full (R305). -/
def State.wakeStairs (s : State) (c : Coord) : State :=
  (List.range (childCount c)).foldl (fun t i => t.beginWake (childOf c i).die (stairLink (childOf c i)))
    (s.beginWake c.die (stairLink c))

/-- LWAKE (R121, R305): the links of the route begin their return to full; the instruction does not wait for them. -/
def execLwake (a : GReg) (z : BitVec 1) (s : State) : Answer :=
  issuePre s 4 (usesG [] [a]) (fun t =>
      let e := BitVec.ofNat 16 (t.ga a).toNat
      if bits (t.ga a).toNat 63 16 != 0 || !(coreExists e || (t.sl.priv && fixedEndpoint e)) then some 0x02 else none) fun t =>
    let u := t.wakeRoute t.core (BitVec.ofNat 16 (t.ga a).toNat)
    .done (if z = 1 then u.wakeStairs u.core else u)

end Sys2Proof.Machine
end

