-- ==== Sys2Proof/Machine/Pools.lean ====
section
/-! DEFINITION. Sys2Proof/Machine/Pools.lean: the partition of a core's pool and its changes (R51-R57, R352, R361, R435). -/

namespace Sys2Proof.Machine

/-- The areas of a partition as first stripe and size: VRS, ACS, SHS, SPS (R53). -/
def areasOf (p : Word) : List (Nat × Nat) := [(0, vrs p), (vrs p, acs p), (vrs p + acs p, shs p), (sb p, sps p)]

/-- Stripes of a pool cleared to zero with their tags (R49, R56): a stripe is 31 words of 16 bytes. -/
def State.clearStripes (s : State) (c : Coord) (first n : Nat) : State := s.clear (poolKey c (496 * first)) (496 * n)

/-- The barrier objects of a core's pool are gone: the BARWAITs that its home has deferred for them try again (R312). -/
def State.dropWatchers (s : State) (c : Coord) : State :=
  let here (w : Watcher) : Bool := poolKey c 0 ≤ w.obj && w.obj < poolKey c 0 + 2 ^ 24
  let t := s.modCore c fun x => { x with watch := x.watch.filter fun w => !here w }
  ((s.coreAt c).watch.filter here).foldl (fun u w => u.post { w.reply with op := 0x41 }) t

/-- The areas whose first stripe or size differs are cleared, and the fallow stripes; the others keep their contents
(R56). The handler's frame goes with the vector-register area (R57). -/
def State.setPartition (s : State) (c : Coord) (new : Word) : State :=
  let old := (s.coreAt c).partw
  let t := ((areasOf new).zip (areasOf old)).foldl (fun t (a, b) => if a = b then t else t.clearStripes c a.1 a.2) s
  let t := t.clearStripes c (sb new + sps new) (stripes c - (sb new + sps new))
  let t := if vrs new = vrs old then t else t.modSlot c 0 fun x => { x with v := [] }
  let t := if (sb new, sps new) = (sb old, sps old) then t else t.dropWatchers c
  t.modCore c fun x => { x with partw := new, partPending := none }

/-! ### The words of a pool (R48-R50, R57, R58, R67) -/

/-- The part of a v register that stands in word `w` of a core's pool, in a frame or in a mirror copy (R57, R58). -/
def State.heldWord (s : State) (c : Coord) (w : Nat) : Option Nat :=
  (List.range (slotCount c)).findSome? fun i =>
    let y := s.slotAt c i
    (y.frameAt i).bind fun f => (List.range y.quota).findSome? fun j =>
      ((frameWord f j).zipIdx ++ (y.mirrorWord f j).zipIdx).findSome? fun (x, part) =>
        if x = w then some (bits (look 0 y.v j).toNat (128 * part + 127) (128 * part)) else none

/-- Word `w` of a core's pool: bank w mod 31, row w / 31 (R49). The v registers stand in their frames (R57). -/
def State.poolWord (s : State) (c : Coord) (w : Nat) : Nat := (s.heldWord c w).getD (s.readNat (poolKey c (16 * w)) 16)

/-- The word of parity bank `g` at a row: the XOR of its group's words (R48, R63). -/
def State.parityWord (s : State) (c : Coord) (row g : Nat) : Nat := xorAll ((groupBanks g).map fun b => s.poolWord c (31 * row + b))

/-- The rebuild of the word of bank `b` at a row from the rest of its group (R61). -/
def State.rebuiltWord (s : State) (c : Coord) (row b : Nat) : Nat :=
  xorAll (s.parityWord c row (b / 8) :: ((groupBanks (b / 8)).filter (· != b)).map fun x => s.poolWord c (31 * row + x))

/-! ### The request queue (R60-R66) -/

/-- A word is the object of some operation that a request still has to make. -/
def PoolRequest.touches (q : PoolRequest) (w : Nat) : Bool :=
  q.reads.contains w || q.updates.any fun u => u.row == w / 31 && u.banks.contains (w % 31)

/-- The requests that enter in one cycle, at most one of each client, in the sequence of the clients (R60). -/
def admitted : Nat → List PoolRequest → List PoolRequest × List PoolRequest
  | _, [] => ([], [])
  | n, q :: r => if n ≤ q.client then ((q :: (admitted (q.client + 1) r).1), (admitted (q.client + 1) r).2) else ([], q :: r)

/-- The banks granted in a cycle: 0-30 data, 31 + g parity (R61), and the words that requests started earlier still operate on. -/
structure Grants where
  banks : List Nat := []
  rebuilt : List Nat := []

/-- The copies of mirrored registers that a request reads in a cycle: those whose four banks are free, where the originals' are
not (R58). -/
def PoolRequest.choose (q : PoolRequest) (g : Grants) : List Nat :=
  let free (b : Nat) : Bool := (List.range 4).all fun i => !g.banks.contains ((b + i) % 31)
  q.reads.map fun w =>
    match q.copies.find? fun c => c.1 == w / 4 with
    | some (b, c) => if !free (4 * b) && free c then c + w % 4 else w
    | none => w

/-- The direct reads of a request (R62): in each bank its next word, when the bank is free and no request started earlier has
still to operate on the word (R65). -/
def directReads (earlier : List PoolRequest) : List Nat → List Nat → Grants → List Nat × Grants
  | [], _, g => ([], g)
  | w :: r, seen, g =>
    let b := w % 31
    if seen.contains b || g.banks.contains b || earlier.any (·.touches w) then
      let (l, h) := directReads earlier r (b :: seen) g
      (w :: l, h)
    else directReads earlier r (b :: seen) { g with banks := b :: g.banks }

/-- The rebuilds of a request (R61, R62): in each group at most one, of the next word of a busy bank, when the group's other
banks and its parity bank are free and no request started earlier has still to operate on a word of the group at the row (R65). -/
def rebuildReads (earlier : List PoolRequest) : List Nat → List Nat → Grants → List Nat × Grants
  | [], _, g => ([], g)
  | w :: r, seen, g =>
    let b := w % 31
    let others := (31 + b / 8) :: (groupBanks (b / 8)).filter (· != b)
    if seen.contains b || !g.banks.contains b || g.rebuilt.contains (b / 8) || others.any g.banks.contains ||
        ((groupBanks (b / 8)).any fun x => earlier.any (·.touches (31 * (w / 31) + x))) then
      let (l, h) := rebuildReads earlier r (b :: seen) g
      (w :: l, h)
    else rebuildReads earlier r (b :: seen) { banks := others ++ g.banks, rebuilt := (b / 8) :: g.rebuilt }

/-- The row updates of a request (R63): one in each group; a full-group update ends, and any other takes a second cycle. -/
def updateRows (earlier : List PoolRequest) : List RowUpdate → List Nat → Grants → List RowUpdate × Grants
  | [], _, g => ([], g)
  | u :: r, seen, g =>
    let need := (31 + u.group) :: if u.full then groupBanks u.group else u.banks
    let blocked := u.banks.any fun b => earlier.any fun q => q.touches (31 * u.row + b)
    if seen.contains u.group || need.any g.banks.contains || blocked then
      let (l, h) := updateRows earlier r (u.group :: seen) g
      (u :: l, h)
    else
      let (l, h) := updateRows earlier r (u.group :: seen) { g with banks := need ++ g.banks }
      (if u.full || u.half then l else { u with half := true } :: l, h)

/-- What a request does in a cycle, with the banks already granted. -/
def PoolRequest.serve (earlier : List PoolRequest) (q : PoolRequest) (g : Grants) : PoolRequest × Grants :=
  let (reads, g) := directReads earlier (q.choose g) [] g
  let (reads, g) := rebuildReads earlier reads [] g
  let (updates, g) := updateRows earlier q.updates [] g
  ({ q with reads, updates }, g)

/-- The banks of updates whose second cycle this is: the two cycles are consecutive (R63). -/
def halfBanks (l : List PoolRequest) : List Nat :=
  l.flatMap fun q => q.updates.flatMap fun u => if u.half then (31 + u.group) :: u.banks else []

/-- The second cycles of updates made (R63). -/
def PoolRequest.finish (q : PoolRequest) : PoolRequest := { q with updates := q.updates.filter fun u => !u.half }

/-- The order in which requests are granted (R64): those that have waited 8 cycles, then RF, then the other clients from
the head of the rotation on; by their numbers in the queue. -/
def grantOrder (l : List PoolRequest) (rotation : Nat) : List Nat :=
  let all := l.zipIdx
  let old := all.filter fun (q, _) => 8 ≤ q.age
  let young := all.filter fun (q, _) => q.age < 8
  let turn (n : Nat) : List (PoolRequest × Nat) := young.filter fun (q, _) => q.client == n
  (old ++ turn 0 ++ (List.range 6).flatMap fun i => turn ((rotation + i) % 6 + 1)).map (·.2)

/-- One cycle of a pool (R61-R65). -/
def Pool.cycle (x : Pool) : Pool :=
  let first : Grants := { banks := halfBanks x.queue }
  let start := x.queue.map PoolRequest.finish
  let (l, _) := (grantOrder x.queue x.rotation).foldl (fun (l, g) n =>
    match l[n]? with
    | some q => let (p, h) := q.serve (l.take n) g; (l.set n p, h)
    | none => (l, g)) (start, first)
  let left := (l.filter fun q => !(q.reads.isEmpty && q.updates.isEmpty)).map fun q => { q with age := q.age + 1, fresh := false }
  { queue := left ++ (admitted 0 x.next).1, next := (admitted 0 x.next).2, rotation := (x.rotation + 1) % 6 }

/-- No request stands in the pool's queue or is to enter it. -/
def Pool.idle (x : Pool) : Bool := x.queue.isEmpty && x.next.isEmpty

/-- A capability names a partition through LOCAL or CLUSTER, from core `from_` (R56). -/
def namesPartition (from_ c : Coord) (k : Cap) : Bool :=
  k.tag && ((bits k.addr.toNat 59 56 == 0 && from_ == c) ||
    (bits k.addr.toNat 59 56 == 1 && memberOf (clusterOf from_) (bits k.addr.toNat 55 53) == some c))

/-- A follower slot of a gang whose leader stands in its slot: registers of a live thread are in its frame (R170). -/
def State.followsLive (s : State) (i : Nat) (y : Slot) : Bool :=
  match y.gang.leader with
  | some l => (s.slotAt l i).st != .empty
  | none => false

/-- The conditions of R56 under which PARTW may change. -/
def State.quiet (s : State) (c : Coord) : Bool :=
  let x := s.coreAt c
  (s.poolAt c).idle &&
  !(x.slots.any fun (i, y) => i != 0 && (y.st != .empty || s.followsLive i y)) && x.eng.jobs.isEmpty &&
  !((clusterCores (clusterOf c)).any fun m => (s.coreAt m).eng.jobs.any fun j =>
      (j.kind == 1 || j.kind == 2) && j.ops.any (namesPartition m c))

/-- Curve tables, weight tables and the bank selector at their reset values (R245, R435). -/
def resetEngines (e : Engines) : Engines := { e with curves := [], weights := [], bank := false }

/-- A core takes on a job (R407, R435): every pool area is cleared, whatever the two partitions are, curve and weight
tables, port bindings and the bank selector return to their reset values, and the job's PARTW is installed. -/
def State.takeOver (s : State) (c : Coord) (job : Nat) : State :=
  let pw := look 0 (s.jobAt job).pw (tier c)
  let t := (s.clearStripes c 0 (stripes c)).dropWatchers c
  let t := t.modSlot c 0 fun x => { x with v := [] }
  t.modCore c fun x =>
    { x with owner := some job, partw := pw, partPending := none, resident := none, ports := []
             eng := resetEngines x.eng }

/-- The swap of accumulator and shadow areas that keeps the outgoing job's accumulators resident (R361, R435): only the
other areas are cleared. -/
def State.takeOverResident (s : State) (c : Coord) (job : Nat) : State :=
  let x := s.coreAt c
  let p := x.partw
  let back := x.resident == some job
  let t := (s.clearStripes c 0 (vrs p)).clearStripes c (sb p) (stripes c - sb p)
  let first := if x.eng.bank then vrs p else vrs p + acs p
  let t := (if back then t else t.clearStripes c first (acs p)).dropWatchers c
  let t := t.modSlot c 0 fun y => { y with v := [] }
  t.modCore c fun y =>
    { y with owner := some job, partPending := none, resident := y.owner, ports := []
             eng := { resetEngines y.eng with bank := !x.eng.bank } }

end Sys2Proof.Machine
end

