-- ==== Sys2Proof/Machine/Engine.lean ====
section
/-! DEFINITION. Sys2Proof/Machine/Engine.lean: what the engine commands have in common: tile descriptors, the checks at issue, acceptance, the accesses of a running job, and its DONE entry (R70-R74, R124, R147, R223, R351-R356, R362, R370-R372). -/

namespace Sys2Proof.Machine

/-! ### Tile shape words (R50, R70, R71) -/

def shapeRot (w : Word) : Nat := bits w.toNat 63 59
def shapeTilePitch (w : Word) : Nat := bits w.toNat 55 38
def shapeRowPitch (w : Word) : Nat := bits w.toNat 37 20
/-- Rows of a tile and words of a row. -/
def shapeRows (w : Word) : Nat := bits w.toNat 19 12 + 1
def shapeWords (w : Word) : Nat := bits w.toNat 11 4 + 1

/-- A reserved bit is set. -/
def shapeBad (w : Word) : Bool := bits w.toNat 58 56 != 0 || bits w.toNat 3 0 != 0

/-- W_t (R71): BankOf is the residue modulo 31 (R50). -/
def tileStart (w : Word) (u0 t : Nat) : Nat :=
  let u := u0 + t * shapeTilePitch w
  if shapeRot w = 0 then u else u + (shapeRot w - 1 + 31 - u % 31) % 31

/-- The first word of row `i` of tile `t` (R71). -/
def rowWord (w : Word) (u0 t i : Nat) : Nat := tileStart w u0 t + i * shapeRowPitch w

/-- A region of the pools (R374). -/
def poolSide (c : Cap) : Bool := let r := region c.addr.toNat; r == 0 || r == 1 || r == 3

/-- The bits of an address that give the byte offset within a scratchpad (R14). -/
def offsetBits (va : Nat) : Nat := match region va with | 0 => 56 | 1 => 53 | _ => 40

/-- The byte offset within its scratchpad that a pool address names. -/
def poolOffset (va : Nat) : Nat := va % 2 ^ offsetBits va

/-- The address of the first byte of row `i` of tile `t` of a side (R374). -/
def rowAddress (c : Cap) (w : Word) (t i : Nat) : Nat :=
  let a := c.addr.toNat
  if poolSide c then a / 2 ^ offsetBits a * 2 ^ offsetBits a + 16 * rowWord w (poolOffset a / 16) t i
  else (a + 16 * (t * shapeTilePitch w + i * shapeRowPitch w)) % 2 ^ 64

/-! ### The checks at issue (R47, R72, R354) -/

/-- The issuing thread as one that makes an access. -/
def State.self (t : State) : Who := { core := t.core, priv := t.sl.priv, job := t.jobNo }

/-- The core whose scratchpad a LOCAL or CLUSTER address names. -/
def poolCore (core : Coord) (va : Nat) : Coord :=
  if region va = 1 then (memberOf (clusterOf core) (bits va 55 53)).getD core else core

/-- The addresses of the first bytes of the rows of a descriptor. -/
def rowAddresses (c : Cap) (w : Word) (nt rows : Nat) : List Nat :=
  (List.range nt).flatMap fun t => (List.range rows).map fun i => rowAddress c w t i

/-- The lowest byte of the rows, of `n` bytes each, that lies outside the bounds. -/
def rowsOutside (c : Cap) (n : Nat) (l : List Nat) : Option Nat :=
  let (base, top) := c.bounds
  least (l.filterMap fun (x : Nat) =>
    if (x : Int) < base then some x else if top < ((x + n : Nat) : Int) then some (max x top.toNat) else none)

/-- The lowest byte of the rows, of `n` bytes each, at or beyond the scratchpad size. -/
def rowsBeyond (size n : Nat) (l : List Nat) : Option Nat :=
  least (l.filterMap fun x =>
    let o := poolOffset x
    if size < o + n then some (x - o + max o size) else none)

/-- The checks of R72, in their order: `bytes` of each of `rows` rows of `nt` tiles are moved. POOLX is accepted only by
the porter, and its partition size is checked later. DESIGN CHOICE (log 30): the capability checks on the base are checks 1 to 7
of R47 on its first byte, so home lost is met by the job; and bytes of a later row outside the bounds raise bounds (0x06) after
the offset check and before the size check, for a LOCAL or CLUSTER base. A command that names the partition of a core whose PARTW
is about to change waits for the change (R56). -/
def descCheck (t : State) (c : Cap) (w : Word) (nt rows bytes : Nat) (need : Need) (poolx : Bool) : Option Ret :=
  let x := c.addr.toNat
  if shapeBad w then some (.trap t 0x02 0)
  else
    match earlyChecks t t.self c { need with anySize := true } x 1 x 1 with
    | some (cause, ea) => some (.trap t cause ea)
    | none =>
      if !(region x ≤ 1 || (poolx && region x == 3)) then some (.trap t 0x0A c.addr)
      else if poolOffset x % 16 ≠ 0 then some (.trap t 0x0A c.addr)
      else if region x = 3 then none
      else
        let l := rowAddresses c w nt rows
        match rowsOutside c bytes l with
        | some a => some (.trap t 0x06 (word a))
        | none =>
          if !t.sizeKnown t.core (poolCore t.core x) then some (.stay (t.awaiting .stalled .room))
          else
          match rowsBeyond (scratchSize (t.coreAt (poolCore t.core x)).partw) (16 * shapeWords w) l with
          | some a => some (.trap t 0x09 (word a))
          | none => none

/-- The checks of R47 on [x, x + n) for a capability that is no descriptor; a word that cannot be read is met by the job (R369,
log 30). -/
def rangeCheck (t : State) (c : Cap) (x : Int) (n : Nat) (need : Need) : Option Ret :=
  if n = 0 then none
  else
    match checkParts t t.sl.priv t.jobNo c { need with element := true, later := true } (partsOf t.core x n 0) with
    | (.ok _, _) => none
    | (bad, (p, _) :: _) => some (t.refuse p bad)
    | (_, []) => none

/-- A condition that raises attribute at the capability's address, or illegal operand. -/
def attributeIf (t : State) (c : Cap) (p : Bool) : Option Ret := if p then some (.trap t 0x0A c.addr) else none
def operandIf (t : State) (p : Bool) : Option Ret := if p then some (.trap t 0x02 0) else none

/-! ### Acceptance (R354, R370) -/

/-- Kinds of R124. -/
def kindPorter : Nat := 1
def kindMatrix : Nat := 2
def kindRing : Nat := 3
def kindStair : Nat := 4

/-- Matrix-engine jobs have their own counter; the other kinds share the copy counter (R354, R370). -/
def sameCounter (a b : Nat) : Bool := (a == kindMatrix) == (b == kindMatrix)

/-- KIND, JOB and PART of an entry (R124). -/
def entryKind (e : Entry) : Nat := bits e.toNat 511 504
def entryJob (e : Entry) : Nat := bits e.toNat 503 496
def entryPart (e : Entry) : Bool := bit e.toNat 480

/-- An entry of a job of these ids. -/
def entryIs (kind id : Nat) (e : Entry) : Bool := sameCounter (entryKind e) kind && entryJob e == id

/-- The job is outstanding on the core (R354). -/
def Core.outstanding (x : Core) (kind id : Nat) : Bool :=
  x.eng.jobs.any fun j => sameCounter j.kind kind && j.id == id && !j.told

/-- A job of that id is outstanding, or is parked on the core and waits for the save of its thread (R428). -/
def Core.holdsId (x : Core) (kind id : Nat) : Bool := x.eng.jobs.any fun j => sameCounter j.kind kind && j.id == id

/-- The next id of a counter whose job is not outstanding and has no DONE entry standing (R354). -/
def Core.nextId (x : Core) (kind : Nat) : Option Nat :=
  let first := if kind = kindMatrix then x.eng.matrixCounter else x.eng.copyCounter
  (findBelow 256 fun i =>
    let id := (first + i) % 256
    !x.holdsId kind id && !x.msg.pigeonhole.any (entryIs kind id)).map fun i => (first + i) % 256

/-- The engine's queue holds all it can: 16 commands, 8 of the stair unit. The queue of a port's sequencer has no stated size. -/
def State.engineFull (t : State) (kind : Nat) : Bool :=
  if kind = kindMatrix then 16 ≤ (t.clusterAt t.core).matrixQueue.length
  else if kind = kindPorter then 16 ≤ (t.clusterAt t.core).porterQueue.length
  else if kind = kindStair then 8 ≤ t.cr.eng.stairQueue.length
  else false

/-- The key of a ring: port and index (R383). -/
def ringKey (w : Word) : Nat := 256 * bits w.toNat 12 8 + bits w.toNat 7 0

/-- Operand `i` of a job: GA, GB, GC, GD, GD + 1, GD + 2, GD + 3. -/
def EngineJob.operand (j : EngineJob) (i : Nat) : Cap := nth {} j.ops i

/-- The ring that a ring job uses. -/
def EngineJob.ring (j : EngineJob) : Nat := ringKey (j.operand 2).addr

/-- The command enters its engine's queue. -/
def State.enqueueJob (t : State) (j : EngineJob) : State :=
  if j.kind = kindMatrix then
    let cl := t.clusterAt j.core
    t.setCluster j.core { cl with matrixQueue := cl.matrixQueue ++ [j] }
  else if j.kind = kindPorter then
    let cl := t.clusterAt j.core
    t.setCluster j.core { cl with porterQueue := cl.porterQueue ++ [j] }
  else if j.kind = kindStair then
    t.modCore j.seat fun x => { x with eng := { x.eng with stairQueue := x.eng.stairQueue ++ [j] } }
  else
    let q := look {} t.pkg.sequencers (j.ring / 256)
    { t with pkg := { t.pkg with sequencers := put t.pkg.sequencers (j.ring / 256) { q with queue := q.queue ++ [j] } } }

/-- The registers GA, GB, GC, GD, GD + 1, GD + 2 and GD + 3 as read at acceptance, zero for those not read (R433). -/
def operandsOf (t : State) (f : EForm) (sp : EngineSpec) (group : Bool) : List Cap :=
  let take (used : Bool) (r : GReg) : Cap := if used then t.g r else {}
  [take sp.ga f.ga, take sp.gb f.gb, take sp.gc f.gc, take sp.gd f.gd, take group (f.gd + 1), take group (f.gd + 2), {}]

/-- A command as it stands before its acceptance gives it an id. -/
def jobOf (t : State) (kind op : Nat) (f : EForm) (sp : EngineSpec) (group : Bool := false) : EngineJob :=
  { kind, op, f, core := t.core, slot := t.slot, gen := t.sl.gen, id := 0, job := t.jobNo, priv := t.sl.priv
    ops := operandsOf t f sp group, dim := t.sl.sys.sigdim.toNat, depth := t.sl.sys.sigdepth.toNat, bank := t.cr.eng.bank, seat := t.core }

/-- THE ACCEPTANCE of a checked command (R354): its id, its queue, its leases, and the id written to GJ by a producer that
does not park. With the queue full, or no id free, the thread is Stalled. -/
def State.accept (t : State) (j : EngineJob) : Ret :=
  match t.cr.nextId j.kind with
  | none => .stay (t.awaiting .stalled .room)
  | some id =>
    if t.engineFull j.kind then .stay (t.awaiting .stalled .room)
    else
      let j := { j with id }
      let u := t.modCr fun x =>
        { x with eng :=
            if j.kind = kindMatrix then { x.eng with matrixCounter := (id + 1) % 256, jobs := x.eng.jobs ++ [j] }
            else { x.eng with copyCounter := (id + 1) % 256, jobs := x.eng.jobs ++ [j] } }
      .done (u.enqueueJob j) (some { rem := j.f.la.toNat, pk := false, gs := [(j.f.gj.toNat, Cap.ofWord (word id))] })

/-- What an engine form names (R217, R224): the group GD to GD + 2 when `group` says so, which must begin at a multiple
of 4 (R375). -/
def engineUses (f : EForm) (sp : EngineSpec) (group : Bool := false) : Uses :=
  { gr := (if sp.ga then [f.ga.toNat] else []) ++ (if sp.gb then [f.gb.toNat] else []) ++
      (if sp.gc then [f.gc.toNat] else []) ++ (if sp.gd then [f.gd.toNat] else []) ++
      (if group then [f.gd.toNat + 1, f.gd.toNat + 2] else [])
    gw := [f.gj.toNat]
    bad := group && f.gd.toNat % 4 != 0
    prod := some (f.la.toNat, false) }

/-- An engine command: the decode checks, its own checks in their order, then its acceptance (R354). -/
def engineRun (u : Uses) (checks : State → List (Option Ret)) (job : State → EngineJob) (s : State) : Answer :=
  issue s 10 u fun t =>
    match (checks t).findSome? id with
    | some r => r
    | none => t.accept (job t)

/-! ### The accesses of a running job (R147, R355) -/

/-- What a step of a job waits for: a page that is not resident (R355), a bus that the tester holds (R85), a page lock or a
change of PARTW (R56, R401), a translation (R437), or a stair link that sleeps (R119). -/
inductive Hold where
  | page (job : Nat) (space : Space) (va : Nat)
  /-- the die's translation of a page (R436, R437) -/
  | walk (die job : Nat) (space : Space) (va : Nat)
  | bus (pa : Nat)
  | lock
  | link
deriving DecidableEq, Repr

/-- What a step of a job comes to: a value, a fault that ends the job, or a wait (R355, R382). -/
inductive Got (α : Type) where
  | ok (x : α)
  | bad (cause : Nat) (addr : Word)
  /-- home lost at a pool word that no address names (R67) -/
  | lost
  /-- the walk for an access of a core has failed, at a level (R438) -/
  | noPage (core : Coord) (addr : Word) (level : Nat) (malformed : Bool)
  | wait (h : Hold)
deriving DecidableEq, Repr

/-- One step after another. -/
def Got.bind {α β : Type} (a : Got α) (f : α → Got β) : Got β :=
  match a with
  | .ok x => f x
  | .bad c e => .bad c e
  | .lost => .lost
  | .noPage core ea level malformed => .noPage core ea level malformed
  | .wait h => .wait h

/-- What the check of a piece comes to for an engine of job `job`. -/
def Check.got (job : Nat) : Check → Got Route
  | .ok r => .ok r
  | .bad cause ea => .bad cause ea
  | .miss space va _ => .wait (.page job space va)
  | .locked => .wait .lock
  | .busy pa => .wait (.bus pa)

/-- What a job that waits asks for: a resident page, or the end of the test on a bus (R85, R438). -/
def State.holds (s : State) : Hold → State
  | .page job space va => s.askResident job space va
  | .walk die job space va => s.askWalk die job space va
  | .bus pa => s.demandBus pa
  | .lock => s
  | .link => s

/-- A step for each element of a list; the first that does not succeed ends it. -/
def Got.each {α β : Type} (f : α → Got β) : List α → Got (List β)
  | [] => .ok []
  | x :: r => (f x).bind fun y => (Got.each f r).bind fun l => .ok (y :: l)

/-- A state carried through the steps of a list. -/
def Got.fold {α σ : Type} (f : σ → α → Got σ) : σ → List α → Got σ
  | s, [] => .ok s
  | s, x :: r => (f s x).bind fun t => Got.fold f t r

/-- A job has met a fault: the first one ends it. -/
def EngineJob.fail (j : EngineJob) (f : Option (Nat × Word)) : EngineJob := { j with fault := j.fault.or f }

/-- The thread for which a job accesses memory. -/
def EngineJob.who (j : EngineJob) : Who := { core := j.core, priv := j.priv, job := j.job }

/-- A change of PARTW of a core waits for the job, which goes on meanwhile: it names the core's partition (R56). -/
def EngineJob.holdsPartition (j : EngineJob) (c : Coord) : Bool :=
  (j.kind == kindPorter || j.kind == kindMatrix) && j.ops.any (namesPartition j.core c)

/-- The place of a piece in the pool of a core, of which an engine is a client (R60, R68, log 14): it waits for a change of PARTW
that another core's pool is about to make, unless the change waits for the job, and is checked against the size there (R56, R69,
R401). -/
def State.poolPlace (s : State) (j : EngineJob) (dst : Coord) (off : Nat) (need : Need) (x : Int) (n : Nat) : Got Nat :=
  let p := (s.coreAt dst).partw
  let k := scratchKey dst p off
  if dst != j.core && (s.coreAt dst).partPending.isSome && !j.holdsPartition dst then .wait .lock
  else if scratchSize p < off + n then .bad 0x09 (wordI (x - (off : Int) + (max off (scratchSize p) : Nat)))
  else
    match s.lostWord need k n with
    | some g => .bad 0x10 (need.lostAddress k x.toNat g)
    | none => .ok k

/-- The checks of R47 on a piece of a job: an engine that misses a translation waits until its die's WALK has been answered, unless
the walk fails or ends at a page that is not resident, of which nothing is cached and which it meets at once (log 14); it waits for
such a page, and for one that is locked or whose bus is tested; a page on the poison list is lost (R355, R401, R436-R438). -/
def State.engineCheck (s : State) (j : EngineJob) (c : Cap) (need : Need) (x : Int) (n : Nat) : Got Route :=
  let need := { need with engine := true }
  match checkPart s j.who c need x n x n with
  | .miss space va ea =>
    let found (entry shift : Nat) : Got Route :=
      (pageChecks s j.who c need space va n
        { job := j.job, space, va := va / 2 ^ shift * 2 ^ shift, shift, entry, poisoned := s.pagePoisoned j.job space va shift }).got j.job
    match s.walk j.job space va with
    | .leaf _ _ => .wait (.walk j.core.die j.job space va)
    | .absent entry shift => if s.pagePoisoned j.job space va shift then found entry shift else .wait (.page j.job space va)
    | .fail level malformed => .noPage j.core ea level malformed
  | .locked =>
    let va := x.toNat
    if region va = 1 ∧ j.holdsPartition (poolCore j.core va) then
      (s.poolPlace j (poolCore j.core va) (bits va 52 0) need x n).bind fun k => .ok (.key k)
    else .wait .lock
  | .ok (.msg dst a) =>
    if bits a 47 44 = 15 ∧ clusterOf dst = clusterOf j.core then
      (s.poolPlace j dst (bits a 23 0) need x n).bind fun k => .ok (.key k)
    else .ok (.msg dst a)
  | r => r.got j.job

/-- The key at which an engine that reaches a place without messages finds it (log 14). -/
def State.engineKey (s : State) (j : EngineJob) (c : Cap) (need : Need) (x : Int) (n : Nat) : Got Nat :=
  (s.engineCheck j c need x n).bind fun r =>
    match r with
    | .msg dst a =>
      if bits a 47 44 = 15 then s.poolPlace j dst (bits a 23 0) need x n
      else if bits a 47 44 = 14 then .ok a
      else if s.busHeld a then .wait (.bus a)
      else if s.frameLocked a then .wait .lock
      else
        match s.lostWord need (s.memoryKey a) n x.toNat with
        | some g => .bad 0x10 (({ need with engine := true } : Need).lostAddress (s.memoryKey a) x.toNat g)
        | none => .ok (s.memoryKey a)
    | r => .ok r.place

/-- ENGC of a job (R124). -/
def EngineJob.engc (j : EngineJob) : Coord :=
  if j.kind = kindStair then j.seat
  else if j.kind = kindRing then fabricPort (j.ring / 256)
  else clusterOf j.core

/-- What names a job in the messages of its engine: the two counters' ids are independent (R370; layout log 12). -/
def EngineJob.token (j : EngineJob) : Nat := if j.kind = kindMatrix then 256 + j.id else j.id

/-- A message goes out through window `n`: its prefix holds both identities and the window's next number, and the port keeps it
until the peer acknowledges it (R441). -/
def State.prefixed (s : State) (n : Nat) (peer : BitVec 16) (f : Flight) : State :=
  let seq := match s.pkg.prefixes.find? (·.1 == n) with | some (_, _, _, q) => q + 1 | none => 0
  { s with pkg := { s.pkg with
      prefixes := put s.pkg.prefixes n (s.pkg.identity.getD 0, peer, seq)
      unacknowledged := s.pkg.unacknowledged ++ [(n, seq, f)] } }

/-- A request that its address takes through an imported window (R441, R443). -/
def State.sendThrough (s : State) (f : Flight) : State :=
  let n := bits f.addr 43 36
  if paKind f.addr = 2 then s.prefixed n (BitVec.ofNat 16 (bits (look 0 s.pkg.imported n).toNat 63 48)) f else s

/-- The client of a pool as which a job's engine works (R60): the matrix engine, the stair unit, or the porter, also for rings
(DESIGN CHOICE, log 16). -/
def EngineJob.client (j : EngineJob) : Nat := if j.kind = kindMatrix then 3 else if j.kind = kindStair then 6 else 4

/-- What an access of a job that is made at once asks of pools (R60), and sends through imported windows (R441, log 14). -/
def State.touched (s : State) (j : EngineJob) (c : Cap) (writes : Bool) (x : Int) (n : Nat) : State :=
  let need : Need := { l := !writes, s := writes, element := true }
  (partsOf j.core x n 0).foldl (fun t p =>
    let at_ (k : Nat) : State := if writes then t.poolWrites j.client k p.n else t.poolReads j.client k p.n
    match t.engineCheck j c need p.x p.n with
    | .ok (.msg dst a) =>
      if bits a 47 44 = 15 then (match t.engineKey j c need p.x p.n with | .ok k => at_ k | _ => t)
      else t.sendThrough { dst, src := j.engc, op := if writes then 0x70 else 0x71, bc := p.n - 1, addr := a }
    | .ok (.key k) => at_ k
    | _ => t) s

/-- Bytes read by a job. -/
def State.engineRead (s : State) (j : EngineJob) (c : Cap) (x : Int) (n : Nat) : Got (List Byte) :=
  (Got.each (fun p : Part => (s.engineKey j c { l := true, element := true } p.x p.n).bind fun k => .ok (s.readBytes k p.n))
    (partsOf j.core x n 0)).bind fun l => .ok l.flatten

/-- Bytes written by a job. -/
def State.engineWrite (s : State) (j : EngineJob) (c : Cap) (x : Int) (l : List Byte) : Got State :=
  let need : Need := { s := true, element := true }
  Got.fold (fun t (p : Part) =>
      (t.engineKey j c need p.x p.n).bind fun k =>
        .ok ((t.touched j c true p.x p.n).writeBytes k ((l.drop p.off).take p.n)))
    s (partsOf j.core x l.length 0)

/-- How a run of a job ends: it waits, or it leaves a state, DONEC, flags and a fault (R354, R355), or it goes on with writes to
make (R101, R147). -/
inductive Ran where
  | wait (h : Hold)
  | ended (t : State) (donec flags : Nat) (fault : Option (Nat × Word))
  | writes (j : EngineJob)

/-- The fault that a step ends a job with, and the state that it leaves: a failed walk sets PGSTAT of its core (R438), and the
address of a word without one is a free value (log 9). -/
def Got.fault {α : Type} (g : Got α) (t : State) : State × Option (Nat × Word) :=
  match g with
  | .bad cause addr => (t, some (cause, addr))
  | .lost => let (a, u) := t.freeNat 8; (u, some (0x10, word a))
  | .noPage core ea level malformed => (t.walkFailed core ea.toNat level malformed, some (0x09, ea))
  | _ => (t, none)

/-- The end of a run that has left state `t` and done `donec` units: a fault of its last step ends it there. -/
def Got.ran {α : Type} (g : Got α) (t : State) (donec : Nat) (f : α → State × Nat × Nat) : Ran :=
  match g with
  | .ok x => let (u, n, fl) := f x; .ended u n fl none
  | .wait h => .wait h
  | g => let (u, fault) := g.fault t; .ended u donec 0 fault

/-- The same run with the flags of the steps before its last one. -/
def Ran.flagged (r : Ran) (flags : Nat) : Ran :=
  match r with
  | .ended t n _ fault => .ended t n flags fault
  | .writes j => .writes j
  | .wait h => .wait h

/-- Bytes written at each address in turn, up to the first that fails: every write before it keeps its value (R148). -/
def State.engineWrites (s : State) (j : EngineJob) (c : Cap) : List (Int × List Byte) → State × Got Unit
  | [] => (s, .ok ())
  | (x, l) :: r =>
    match s.engineWrite j c x l with
    | .ok t => t.engineWrites j c r
    | g => (s, g.bind fun _ => .ok ())

/-- A run that ends with writes: `donec` units when all are made. -/
def State.storeAll (s : State) (j : EngineJob) (c : Cap) (donec flags : Nat) (l : List (Int × List Byte)) : Ran :=
  let (t, g) := s.engineWrites j c l
  g.ran t 0 fun _ => (t, donec, flags)

/-! ### Completion (R123, R124, R354, R356) -/

/-- The completion record of a job (R124). -/
def doneEntry (ts : Word) (j : EngineJob) (part : Bool) : Entry :=
  let (cause, addr) := j.fault.getD (0, 0)
  BitVec.ofNat 512 (at_ 504 j.kind + at_ 496 j.id + at_ 488 cause + at_ 480 (b2n part) + at_ 416 ts.toNat +
    at_ 352 addr.toNat + at_ 320 (j.done % 2 ^ 32) + at_ 304 j.engc.toNat + at_ 299 (j.slot % 32) + at_ 289 j.gen.toNat +
    (if j.kind = kindPorter then 0 else j.flags % 64))

/-- The DONE message of a job that has ended or stopped. -/
def State.postDone (s : State) (j : EngineJob) (part : Bool) : State :=
  s.post { dst := j.core, src := j.engc, op := 0x73, pay := .entry (doneEntry s.ts j part) }

/-- A job is the outstanding job `k`. -/
def EngineJob.same (j k : EngineJob) : Bool := j.core == k.core && sameCounter j.kind k.kind && j.id == k.id

/-- The outstanding copy of a job brought up to date. -/
def State.noteJob (s : State) (j : EngineJob) : State :=
  s.modCore j.core fun x => { x with eng := { x.eng with jobs := x.eng.jobs.map fun k => if k.same j then j else k } }

/-- The job stops at a boundary (R356, R371): a DONE entry with PART = 1, and its remaining command is parked. -/
def State.stopJob (s : State) (j : EngineJob) : State :=
  let k := { j with stopped := true, base := j.done }
  (s.noteJob k).postDone k true

/-- Units between the boundaries at which a job may stop; 0 when it may not (R356, R371). -/
def EngineJob.granule (j : EngineJob) : Nat := if j.f.sg = 0 then 0 else 2 ^ (j.f.sg.toNat - 1)

/-- The first of a queue whose core comes first in rotation order from `r`, and the rest (R354, R373). -/
def rotationPick (cl : Coord) (r : Nat) (q : List EngineJob) : Option (EngineJob × Nat) :=
  let n := clusterSize cl
  ((List.range n).findSome? fun i =>
    (q.find? fun j => indexIn j.core == (r + i) % n)).map fun j => (j, (indexIn j.core + 1) % n)

/-- Every core of a cluster tries its slots that wait for room. -/
def State.wakeCluster (s : State) (cl : Coord) : State := (clusterCores cl).foldl (fun t c => t.wakeRoom c) s

/-! ### The status of a job (R362, R372) -/

/-- A job id: bits [63:8] are zero. -/
def idCheck (a : GReg) (t : State) : Option Nat := if 256 ≤ (t.ga a).toNat then some 0x02 else none

/-- The status that MSTAT and CSTAT report: a job is outstanding until its DONE entry is written (R123). -/
def jobStatus (x : Core) (kind id : Nat) : Word :=
  if x.outstanding kind id then word (0xFF00000000000000 + at_ 48 id)
  else
    match x.msg.pigeonhole.find? (entryIs kind id) with
    | some e => entrySummary e
    | none => 0

/-- MSTAT and CSTAT (R362, R372). -/
def statOp (kind : Nat) (d a : GReg) (s : State) : Answer :=
  issuePre s 4 (usesG [d] [a]) (idCheck a) fun t => .done (t.writeInt d (jobStatus t.cr kind (t.ga a).toNat))

/-- MSTAT (R362). -/
def execMstat (d a : GReg) (s : State) : Answer := statOp kindMatrix d a s

/-- CSTAT (R372). -/
def execCstat (d a : GReg) (s : State) : Answer := statOp kindPorter d a s

/-- MWAIT (R362): it waits while the job is outstanding, and then takes its entry if it still stands. -/
def execMwait (d a : GReg) (s : State) : Answer :=
  issuePre s 4 (usesG [d] [a]) (idCheck a) fun t =>
    let id := (t.ga a).toNat
    if t.inHandler then .trap t 0x0E 0
    else if t.cr.outstanding kindMatrix id then .stay (t.awaiting .waiting (.job id))
    else
      match t.cr.msg.pigeonhole.find? (entryIs kindMatrix id) with
      | none => .done (t.writeInt d 0)
      | some e =>
        let u := t.modCr fun x => { x with msg := { x.msg with pigeonhole := dropFirst (entryIs kindMatrix id) x.msg.pigeonhole } }
        taken (u.writeInt d (entrySummary e)) e

end Sys2Proof.Machine
end

