-- ==== Sys2Proof/Machine/Flags.lean ====
section
/-! DEFINITION. Sys2Proof/Machine/Flags.lean: the flags of FPSTAT and the running maximum AMX, as an instruction leaves them when it retires (R231, R244, R253, R330). -/

namespace Sys2Proof.Machine

/-- The flags of several results put together. -/
def orAll (l : List Nat) : Nat := l.foldl orFlags 0

/-- Flags ORed into the FPSTAT of the issuing thread, the leader's in a gang (R244, R330, R349). -/
def State.raiseFlags (s : State) (f : Nat) : State :=
  s.modSl fun x => { x with sys := { x.sys with fpstat := word (orFlags x.sys.fpstat.toNat f) } }

/-- One element's part in AmxUpdate (R253). -/
def amxStep (amx : Nat) (x : Num) : Nat :=
  if x.isNaN then orFlags amx (2 ^ 32)
  else at_ 32 (bits amx 32 32) + max (bits amx 31 0) (roundUpF32 x)

/-- AmxUpdate over the source elements of the active lanes (R253). -/
def State.updateAmx (s : State) (l : List Num) : State :=
  s.modSl fun x => { x with sys := { x.sys with amx := word (l.foldl amxStep x.sys.amx.toNat) } }

/-- The vector rounding mode (R240). -/
def State.rounding (s : State) : Nat := bits s.sl.sys.fpctl.toNat 1 0

end Sys2Proof.Machine
end

