-- ==== Sys2Proof/Machine/Vector.lean ====
section
/-! DEFINITION. Sys2Proof/Machine/Vector.lean: the element-wise vector instructions, the reductions and the data movement, and what every scheduled instruction does with its operand fields (R207, R216, R220, R222, R327-R336, R341-R343, R349). -/

namespace Sys2Proof.Machine

/-! ### Operand fields -/

/-- A register field of a scheduled form: its value, its use, and its port-select, fresh and keep bits (R216). -/
structure Named where
  reg : Nat
  use : Field
  port : Bool
  fresh : Bool
  keep : Bool
deriving DecidableEq, Repr

/-- The four register fields. -/
def namedFields (f : SForm) (sp : SchedSpec) : List Named :=
  [⟨f.vd.toNat, sp.vd, false, f.fr.getLsbD 3, false⟩,
   ⟨f.va.toNat, sp.va, f.ps.getLsbD 2, f.fr.getLsbD 2, f.keep.getLsbD 2⟩,
   ⟨f.vb.toNat, sp.vb, f.ps.getLsbD 1, f.fr.getLsbD 1, f.keep.getLsbD 1⟩,
   ⟨f.vc.toNat, sp.vc, f.ps.getLsbD 0, f.fr.getLsbD 0, f.keep.getLsbD 0⟩]

/-- The register group a field reads. -/
def Named.reads (x : Named) (kind : RegKind) : Option (Nat × Nat) :=
  match x.use with
  | .src q n => if q = kind ∧ !x.port then some (x.reg, n) else none
  | _ => none

/-- The register group a field writes. -/
def Named.writes (x : Named) (kind : RegKind) : Option (Nat × Nat) :=
  match x.use with
  | .dst q n => if q = kind then some (x.reg, n) else none
  | _ => none

/-- The fresh reads of a field (R220). -/
def Named.freshReads (x : Named) : List (RegKind × Nat × Nat) :=
  match x.use with
  | .src q n => if x.fresh && !x.port then [(q, x.reg, n)] else []
  | _ => []

/-- The registers a field keeps (R222). -/
def Named.kept (x : Named) : List (Bool × Nat) :=
  match x.use with
  | .src .v n => if x.keep && !x.port then (List.range n).map fun i => (true, x.reg + i) else []
  | .src .g _ => if x.keep then [(false, x.reg)] else []
  | _ => []

/-- A k field of 8 or above (R327). -/
def Named.badPredicate (x : Named) : Bool :=
  match x.use with
  | .src .k _ => 8 ≤ x.reg
  | .dst .k _ => 8 ≤ x.reg
  | _ => false

/-- What a scheduled instruction names; a wayfarer may issue none (R164, R327). -/
def vecUses (f : SForm) (sp : SchedSpec) : Uses :=
  let l := namedFields f sp
  { gr := (l.filterMap (·.reads .g)).map (·.1)
    gw := (l.filterMap (·.writes .g)).map (·.1)
    vr := l.filterMap (·.reads .v)
    vw := l.filterMap (·.writes .v)
    kr := (l.filterMap (·.reads .k)).map (·.1) ++ if sp.pred then [f.pred.toNat] else []
    kw := (l.filterMap (·.writes .k)).map (·.1)
    noWayfarer := true
    prod := if sp.produces then some (f.la.toNat, f.pk == 1) else none
    fresh := l.flatMap (·.freshReads)
    keep := l.flatMap (·.kept)
    bad := l.any (·.badPredicate) }

/-! ### Port sources (R209, R331) -/

/-- The ports a form names, each once. -/
def portsNamed (f : SForm) (sp : SchedSpec) : List Nat := (((namedFields f sp).filter (·.port)).map (·.reg)).eraseDups

/-- One entry is taken from each of some ports. -/
def State.takeEntries (t : State) (l : List Nat) : State :=
  if l.isEmpty then t
  else
    (l.foldl (fun u p => u.modCr fun x => x.setPort p { (x.port p) with q := (x.port p).q.tail }) t).portChanged t.core l

/-- Why the ports of an instruction cannot be read now: one is unbound; one is empty, so that the thread waits and a
handler takes handler wait (R184, R209). -/
def State.portsFail (t : State) (l : List Nat) : Option Ret :=
  if l.any fun p => (t.cr.port p).bind == .unbound then some (.trap t 0x02 0)
  else
    match l.find? fun p => (t.cr.port p).q.isEmpty with
    | some p => some (if t.inHandler then .trap t 0x0E 0 else .stay (t.awaiting .waiting (.port p)))
    | none => none

/-! ### Elements (R207, R327, R328) -/

/-- The operands of a vector instruction: the form, the gang's size, PRED's bits, the rounding mode, the source values
and the value vd holds, each across the gang. -/
structure Vx where
  f : SForm
  g : Nat
  mask : Nat
  rm : Nat
  a : Nat
  b : Nat
  c : Nat
  d : Nat
deriving DecidableEq, Repr

/-- The value of a field: a port's head entry, a v register or a k register. -/
def State.operand (t : State) (x : Named) : Nat :=
  if x.port then ((t.cr.port x.reg).q.headD 0).toNat
  else
    match x.use with
    | .src .k _ => t.pred x.reg
    | .dst .k _ => t.pred x.reg
    | .src .v _ => t.vec x.reg
    | .dst .v _ => t.vec x.reg
    | _ => 0

/-- The operands as they stand at issue. -/
def State.operands (t : State) (f : SForm) (sp : SchedSpec) : Vx :=
  let v (i : Nat) : Nat := t.operand (nth ⟨0, .none, false, false, false⟩ (namedFields f sp) i)
  { f, g := t.sl.gang.size, mask := t.pred f.pred.toNat, rm := t.rounding, a := v 1, b := v 2, c := v 3, d := v 0 }

/-- Element `e` of a value, `w` bits wide. -/
def elem (w x e : Nat) : Nat := x / 2 ^ (w * e) % 2 ^ w

def Vx.t (x : Vx) : Nat := x.f.t.toNat
def Vx.w (x : Vx) : Nat := typeBits x.t

/-- n = 64G/s. -/
def Vx.n (x : Vx) : Nat := 128 * x.g / typeHalves x.t

/-- The lane that holds the lowest byte of element `e`, for elements of `halves` half bytes. -/
def laneOf (halves e : Nat) : Nat := halves * e / 8

/-- Element `e` is active (R328). -/
def Vx.active (x : Vx) (e : Nat) : Bool := bit x.mask (laneOf (typeHalves x.t) e)

/-- The active elements, ascending. -/
def Vx.actives (x : Vx) : List Nat := (List.range x.n).filter x.active

/-- vd with its active elements replaced. -/
def Vx.map (x : Vx) (r : Nat → Nat) : Nat :=
  joinBits x.w ((List.range x.n).map fun e => if x.active e then r e else elem x.w x.d e)

/-- kd with the bits of the lanes of active elements replaced (R328, R335). -/
def Vx.test (x : Vx) (old : Nat) (p : Nat → Bool) : Nat :=
  joinBits 1 ((List.range (16 * x.g)).map fun j =>
    let e := 32 * j / x.w
    if x.active e then b2n (p e) else bits old j j)

/-- The producer of an instruction (R219). -/
def Vx.producer (x : Vx) (vs : List (Nat × Nat)) (gs : List (Nat × Word)) (ks : List (Nat × Nat)) : Producer :=
  { rem := x.f.la.toNat, pk := x.f.pk == 1
    vs := vs.map fun (r, v) => (r, vecParts x.g v)
    gs := gs.map fun (r, w) => (r, Cap.ofWord w)
    ks := ks.map fun (r, v) => (r, predParts x.g v) }

/-- It retires with a value for vd and the flags of its active elements (R330). -/
def Vx.done (x : Vx) (t : State) (v flags : Nat) : Ret :=
  .done (t.raiseFlags flags) (some (x.producer [(x.f.vd.toNat, v)] [] []))

/-- An instruction that traps, or that stalls before it has begun, has taken no port entry (R331); one that awaits replies may
still trap, and keeps the entries by it. -/
def holdPorts (ports : Sparse Port) (entries : List (Nat × Entry)) : Ret → Ret
  | .trap u cause eaddr => .trap (u.modCr fun x => { x with ports }) cause eaddr
  | .stay u => .stay (match u.sl.pend with
      | some p => u.modSl fun x => { x with pend := some { p with taken := entries } }
      | none => u.modCr fun x => { x with ports })
  | r => r

/-- The entries that an instruction takes from its ports. -/
def Core.headEntries (x : Core) (l : List Nat) : List (Nat × Entry) := l.map fun p => (p, (x.port p).q.headD 0)

/-! ### The fields of a conversion (R337, R338) -/

/-- CE, IE, C and PART. -/
def convCompand (f : SForm) : Bool := f.fs.getLsbD 16
def convInverse (f : SForm) : Bool := f.fs.getLsbD 15
def convCurve (f : SForm) : Nat := bits f.fs.toNat 14 13
def convPart (f : SForm) : Nat := bits f.fs.toNat 3 0

/-- GIV and the block length B of VSCL. -/
def sclGiven (f : SForm) : Bool := f.fs.getLsbD 7
def sclBlock (f : SForm) : Nat := 2 ^ (bits f.fs.toNat 6 4 + 3)

/-- The sides of a conversion: destination and source type, and the part number. -/
structure Sides where
  dst : Nat
  src : Nat
  part : Nat
deriving DecidableEq, Repr

def sidesOf (f : SForm) : Sides := { dst := f.t.toNat, src := f.md.toNat, part := convPart f }

/-- Half bytes of the wide side. -/
def Sides.wide (d : Sides) : Nat := max (typeHalves d.dst) (typeHalves d.src)

/-- n = 64G/w. -/
def Sides.n (d : Sides) (g : Nat) : Nat := 128 * g / d.wide

/-- The element of a side's register that converted element `e` is. -/
def Sides.index (d : Sides) (g t e : Nat) : Nat := if typeHalves t < d.wide then d.part * d.n g + e else e

/-! ### The words that an instruction reads and writes (R57, R67, R328) -/

/-- The elements of v registers that an instruction reads and those that it writes. -/
structure Reach where
  reads : List Span := []
  writes : List Span := []

/-- Elements of the instruction's type in register `r`. -/
def Vx.span (x : Vx) (r : Nat) (on : Nat → Bool) : Span := { reg := r, halves := typeHalves x.t, on }

/-- What most instructions reach: the active elements of every v register that they name (R328). -/
def plainReach (u : Uses) (x : Vx) : Reach :=
  { reads := (spread u.vr).map (x.span · x.active), writes := (spread u.vw).map (x.span · x.active) }

/-- The spans of a source, none where it is a port: PS bit 2, 1 or 0 for va, vb or vc (R216). -/
def Vx.source (x : Vx) (ps : Nat) (l : List Span) : List Span := if x.f.ps.getLsbD ps then [] else l

/-- The element that FS names. -/
def Vx.indexed (x : Vx) (e : Nat) : Bool := e == x.f.fs.toNat % 512

/-- The elements that a selector's bits name, ascending (R343). -/
def Vx.selected (x : Vx) : List Nat := (List.range x.n).filter fun e => bit x.b (laneOf (typeHalves x.t) e)

/-- The elements of a side's register, of type `t`, whose conversion is active (R337). -/
def Sides.span (d : Sides) (x : Vx) (t r : Nat) : Span :=
  let first := d.index x.g t 0
  { reg := r, halves := typeHalves t
    on := fun i => first ≤ i && i < first + d.n x.g && bit x.mask (laneOf d.wide (i - first)) }

/-- What a conversion reaches beside VSCL's scales. -/
def convertReach (x : Vx) : Reach :=
  let d := sidesOf x.f
  { reads := x.source 2 [d.span x d.src x.f.va.toNat], writes := [d.span x d.dst x.f.vd.toNat] }

/-- VSCL's scale bytes: those of the blocks with an active element, read, or all of them, written (R338). -/
def scaleReach (x : Vx) : Reach :=
  let d := sidesOf x.f
  let b := sclBlock x.f
  let bytes (on : Nat → Bool) : Span := { reg := x.f.vb.toNat, halves := 2, on }
  let r := convertReach x
  if sclGiven x.f then
    { r with reads := r.reads ++ x.source 1 [bytes fun i =>
        (List.range b).any fun k => i * b + k < d.n x.g && bit x.mask (laneOf d.wide (i * b + k))] }
  else { r with writes := r.writes ++ [bytes fun i => i * b < d.n x.g] }

/-- The v registers of a position on `dim` axes, and the lanes of VKEY's parameters on them (R345, R348). -/
def axisReach (x : Vx) (dim r : Nat) : List Span := (List.range dim).map fun a => x.span (r + a) x.active
def paramReach (x : Vx) (dim : Nat) : Span :=
  { reg := x.f.vb.toNat, halves := 8, on := fun i => i < 9 && i % 3 < dim && !x.actives.isEmpty }

/-- VPAIR reads the positions on its axes, and the particles' numbers only under .X (R348). -/
def pairReach (_ : Uses) (x : Vx) : Reach :=
  let l := List.range (x.f.md.toNat % 4) ++ if x.f.md.getLsbD 2 then [3] else []
  { reads := l.flatMap fun a => [x.span (x.f.va.toNat + a) x.active, x.span (x.f.vb.toNat + a) x.active] }

/-- THE WORDS THAT A SCHEDULED INSTRUCTION REACHES: its description says where they are not those of the active elements
(R337-R340, R342, R343, R345); VPAIR has its own, and a vector access reaches its active elements. -/
def reachOf (i : Instr) (u : Uses) (x : Vx) : Reach :=
  let plain := plainReach u x
  let every (r h : Nat) (on : Nat → Bool := fun _ => true) : Span := { reg := r, halves := h, on }
  match i with
  | .vperm f =>
    let named := x.actives.map fun e => elem x.w x.b e
    let l := (if f.md = 1 then named.filter (· < x.n) else named).map (· % x.n)
    { plain with reads := x.source 2 [x.span f.va.toNat l.contains] ++ x.source 1 [x.span f.vb.toNat x.active] }
  | .vbcastE f => { plain with reads := x.source 2 [x.span f.va.toNat fun e => x.indexed e && !x.actives.isEmpty] }
  | .vmovgG f => { plain with reads := x.source 2 [x.span f.va.toNat x.indexed] }
  | .vmovgV f => { plain with writes := [x.span f.vd.toNat fun e => x.indexed e && x.active e] }
  | .vcomp f =>
    let l := x.selected.zipIdx.filterMap fun (e, i) => if x.active i then some e else none
    { plain with reads := x.source 2 [x.span f.va.toNat l.contains] }
  | .vexpd f =>
    let l := x.selected.zipIdx.filter fun (e, _) => x.active e
    { reads := x.source 2 [x.span f.va.toNat (l.map (·.2)).contains], writes := [x.span f.vd.toNat (l.map (·.1)).contains] }
  | .vcvt _ => convertReach x
  | .vscl _ => scaleReach x
  | .vpack f =>
    { reads := [every f.va.toNat 2, every (f.va.toNat + 1) 2 (· < 2)]
      writes := [every f.vd.toNat 2, every (f.vd.toNat + 1) 2] }
  | .vunpk f => { writes := [every f.vd.toNat 2, every (f.vd.toNat + 1) 2] }
  | .vkey f =>
    let dim := f.md.toNat % 4
    { plain with reads := axisReach x dim f.va.toNat ++ x.source 1 [paramReach x dim] }
  | _ => plain

/-- The words of which a reach reads an element, of registers that the keep buffer does not hold (R222). -/
def Reach.sources (r : Reach) (g : Nat) (keep : List (Bool × Nat)) : List (Nat × Nat) :=
  (r.reads.filter fun x => !keep.contains (true, x.reg)).flatMap (Span.touched g ·)

/-- The words that a reach writes in part. -/
def Reach.part (r : Reach) (g : Nat) : List (Nat × Nat) := r.writes.flatMap fun x => (x.touched g).filter (x.bare g).contains

/-- The words that a reach needs of the pool: its sources, and those that it writes in part, with which its bytes are merged (R63;
DEDUCED, log 16). -/
def Reach.pool (r : Reach) (g : Nat) (keep : List (Bool × Nat)) : List (Nat × Nat) := r.sources g keep ++ r.part g

/-- An instruction that has retired leaves the words of its v destinations that it does not write whole, and those of them that it
writes in part. -/
def Ret.wrote (g : Nat) (r : Reach) : Ret → Ret
  | .done t (some p) => .done t (some { p with bare := r.writes.flatMap (Span.bare g ·), part := r.part g })
  | r => r

/-- THE ISSUE OF A SCHEDULED INSTRUCTION: decode and issue checks, the port sources, the words that it reads, then its own
effect on the operands as read at issue. `pre` gives the operands that depend on the gang. -/
def vecRun (f : SForm) (sp : SchedSpec) (reach : Uses → Vx → Reach) (pre : State → Option Nat)
  (body : State → Vx → Ret) (s : State) : Answer :=
  issuePre s 10 (vecUses f sp) (fun t => if f.ps != 0 && t.sl.gang.size != 1 then some 0x02 else pre t) fun t =>
    match t.portsFail (portsNamed f sp) with
    | some r => r
    | none =>
      let x := t.operands f sp
      let r := reach (vecUses f sp) x
      t.reading (r.pool x.g t.sl.keep) <|
        holdPorts t.cr.ports (t.cr.headEntries (portsNamed f sp)) <|
          (body ((t.takeEntries (portsNamed f sp)).fileReads (r.sources x.g t.sl.keep)) x).wrote x.g r

/-- The same with the operand kinds taken from `schedSpec`. -/
def vecOp (i : Instr) (pre : State → Option Nat) (body : State → Vx → Ret) (s : State) : Answer :=
  match schedSpec i with
  | some (f, sp) => vecRun f sp (reachOf i) pre body s
  | none => .next s

/-- An element-wise instruction: type, rounding mode and the elements of va, vb and vc give the value and the
flags. -/
def elementOp (i : Instr) (op : Nat → Nat → Nat → Nat → Nat → Nat × Nat) (s : State) : Answer :=
  vecOp i noPre (fun t x =>
    let r (e : Nat) : Nat × Nat := op x.t x.rm (elem x.w x.a e) (elem x.w x.b e) (elem x.w x.c e)
    x.done t (x.map fun e => (r e).1) (orAll (x.actives.map fun e => (r e).2))) s

/-! ### Floating-point arithmetic (R329, R332) -/

/-- -x + c and x - c on codes. -/
def opFma (negProduct negAddend : Bool) (t rm a b c : Nat) : Nat × Nat :=
  let x := decodeNum t a
  let z := decodeNum t c
  finish t rm (Num.fma rm (if negProduct then x.neg else x) (decodeNum t b) (if negAddend then z.neg else z))

def opSub (t rm a b _c : Nat) : Nat × Nat := finish t rm ((decodeNum t a).add rm (decodeNum t b).neg)
def opDiv (t rm a b _c : Nat) : Nat × Nat := finish t rm ((decodeNum t a).div (decodeNum t b))
def opSqrt (t rm a _b _c : Nat) : Nat × Nat := finish t rm (decodeNum t a).sqrt

/-- VADD (R332). -/
def execVadd (f : SForm) (s : State) : Answer := elementOp (.vadd f) (fun t rm a b _ => fpAdd t rm a b) s

/-- VSUB (R332). -/
def execVsub (f : SForm) (s : State) : Answer := elementOp (.vsub f) opSub s

/-- VMUL (R332). -/
def execVmul (f : SForm) (s : State) : Answer := elementOp (.vmul f) (fun t rm a b _ => fpMul t rm a b) s

/-- VFMA (R332). -/
def execVfma (f : SForm) (s : State) : Answer := elementOp (.vfma f) (opFma false false) s

/-- VFMS (R332). -/
def execVfms (f : SForm) (s : State) : Answer := elementOp (.vfms f) (opFma false true) s

/-- VFNMA (R332). -/
def execVfnma (f : SForm) (s : State) : Answer := elementOp (.vfnma f) (opFma true false) s

/-- VDIV (R332). -/
def execVdiv (f : SForm) (s : State) : Answer := elementOp (.vdiv f) opDiv s

/-- VSQRT (R332). -/
def execVsqrt (f : SForm) (s : State) : Answer := elementOp (.vsqrt f) opSqrt s

/-! ### Minimum, maximum, magnitude and sign (R333) -/

/-- NV for a signalling NaN. -/
def signallingFlag (x : Num) : Nat := if x.isSignalling then fNV else 0

/-- x is below y, -0 being below +0. -/
def below (x y : Num) : Bool := x.lt y || (x.eqv y && x.isNeg && !y.isNeg)

/-- The smaller or the larger of two float codes. -/
def fpPick (larger : Bool) (t a b : Nat) : Nat × Nat :=
  let x := decodeNum t a
  let y := decodeNum t b
  let v := if x.isNaN && y.isNaN then canonicalNaN t
    else if x.isNaN then b
    else if y.isNaN then a
    else if (if larger then below x y else below y x) then b else a
  (v, orFlags (signallingFlag x) (signallingFlag y))

/-- The smaller or the larger of two elements. -/
def opPick (larger : Bool) (t _rm a b _c : Nat) : Nat × Nat :=
  if isFloat4 t then fpPick larger t a b
  else (if (if larger then intOf t a < intOf t b else intOf t b < intOf t a) then b else a, 0)

/-- A float element with its sign changed; a NaN becomes the canonical NaN. -/
def fpSign (t a : Nat) (sign : Nat → Nat) : Nat × Nat :=
  let x := decodeNum t a
  let w := typeBits t
  if x.isNaN then (canonicalNaN t, signallingFlag x)
  else (a % 2 ^ (w - 1) + at_ (w - 1) (sign (bits a (w - 1) (w - 1))), 0)

def opAbs (t _rm a _b _c : Nat) : Nat × Nat :=
  if isFloat4 t then fpSign t a (fun _ => 0) else (wrap (intOf t a).natAbs (typeBits t), 0)

def opNeg (t _rm a _b _c : Nat) : Nat × Nat :=
  if isFloat4 t then fpSign t a (1 - ·) else (wrap (-intOf t a) (typeBits t), 0)

/-- VMIN (R333). -/
def execVmin (f : SForm) (s : State) : Answer := elementOp (.vmin f) (opPick false) s

/-- VMAX (R333). -/
def execVmax (f : SForm) (s : State) : Answer := elementOp (.vmax f) (opPick true) s

/-- VABS (R333). -/
def execVabs (f : SForm) (s : State) : Answer := elementOp (.vabs f) opAbs s

/-- VNEG (R333). -/
def execVneg (f : SForm) (s : State) : Answer := elementOp (.vneg f) opNeg s

/-! ### Integer arithmetic (R334) -/

/-- An exact integer result, wrapped, or saturated with SAT. -/
def intResult (sat : Bool) (t : Nat) (i : Int) : Nat × Nat :=
  if sat then let (v, out) := saturate t i; (v, if out then fSAT else 0)
  else (wrap i (typeBits t), 0)

/-- VIMUL by MOD: low half, low half saturated, high half. -/
def opImul (md t _rm a b _c : Nat) : Nat × Nat :=
  let p := intOf t a * intOf t b
  if md = 2 then (wrap (p / (2 ^ typeBits t : Int)) (typeBits t), 0) else intResult (md == 1) t p

/-- VIADD (R334). -/
def execViadd (f : SForm) (s : State) : Answer :=
  elementOp (.viadd f) (fun t _ a b _ => intResult (f.md == 1) t (intOf t a + intOf t b)) s

/-- VISUB (R334). -/
def execVisub (f : SForm) (s : State) : Answer :=
  elementOp (.visub f) (fun t _ a b _ => intResult (f.md == 1) t (intOf t a - intOf t b)) s

/-- VIMUL (R334). -/
def execVimul (f : SForm) (s : State) : Answer := elementOp (.vimul f) (opImul f.md.toNat) s

/-! ### Comparison (R335) -/

/-- cond of float codes by MOD. -/
def fpCond (md t a b : Nat) : Bool :=
  let x := decodeNum t a
  let y := decodeNum t b
  let nan := x.isNaN || y.isNaN
  match md with
  | 0 => x.eqv y
  | 1 => !x.eqv y
  | 2 => x.lt y
  | 3 => x.lt y || x.eqv y
  | 4 => y.lt x
  | 5 => y.lt x || x.eqv y
  | 6 => nan
  | _ => !nan

/-- cond of integers by MOD. -/
def intCond (md : Nat) (a b : Int) : Bool :=
  match md with
  | 0 => a == b
  | 1 => a != b
  | 2 => a < b
  | 3 => a ≤ b
  | 4 => b < a
  | _ => b ≤ a

/-- VCMP (R335). -/
def execVcmp (f : SForm) (s : State) : Answer :=
  vecOp (.vcmp f) noPre (fun t x =>
    let md := f.md.toNat
    let p (e : Nat) : Bool :=
      let a := elem x.w x.a e
      let b := elem x.w x.b e
      if isFloat4 x.t then fpCond md x.t a b else intCond md (intOf x.t a) (intOf x.t b)
    let flags (e : Nat) : Nat :=
      if isFloat4 x.t then
        orFlags (signallingFlag (decodeNum x.t (elem x.w x.a e))) (signallingFlag (decodeNum x.t (elem x.w x.b e)))
      else 0
    .done (t.raiseFlags (orAll (x.actives.map flags)))
      (some (x.producer [] [] [(f.vd.toNat, x.test x.d p)]))) s

/-! ### Selection, bitwise operations and shifts (R336) -/

/-- VSEL (R336). -/
def execVsel (f : SForm) (s : State) : Answer :=
  vecOp (.vsel f) noPre (fun t x =>
    x.done t (x.map fun e => elem x.w (if bit x.c (laneOf (typeHalves x.t) e) then x.a else x.b) e) 0) s

/-- VAND (R336). -/
def execVand (f : SForm) (s : State) : Answer := elementOp (.vand f) (fun _ _ a b _ => (a &&& b, 0)) s

/-- VOR (R336). -/
def execVor (f : SForm) (s : State) : Answer := elementOp (.vor f) (fun _ _ a b _ => (a ||| b, 0)) s

/-- VXOR (R336). -/
def execVxor (f : SForm) (s : State) : Answer := elementOp (.vxor f) (fun _ _ a b _ => (a ^^^ b, 0)) s

/-- VNOT (R336). -/
def execVnot (f : SForm) (s : State) : Answer :=
  elementOp (.vnot f) (fun t _ a _ _ => (2 ^ typeBits t - 1 - a, 0)) s

/-- The shift count: FS[5:0], or the element of vb modulo the width. -/
def shiftCount (f : SForm) (t b : Nat) : Nat := if f.md = 1 then f.fs.toNat % 64 else b % typeBits t

/-- VSHL (R336). -/
def execVshl (f : SForm) (s : State) : Answer :=
  elementOp (.vshl f) (fun t _ a b _ => (a * 2 ^ shiftCount f t b % 2 ^ typeBits t, 0)) s

/-- VSHR (R336). -/
def execVshr (f : SForm) (s : State) : Answer := elementOp (.vshr f) (fun t _ a b _ => (a / 2 ^ shiftCount f t b, 0)) s

/-- VSAR (R336): copies of the element's top bit enter, whatever the type. -/
def execVsar (f : SForm) (s : State) : Answer :=
  elementOp (.vsar f) (fun t _ a b _ =>
    (wrap (signed a (typeBits t) / (2 ^ shiftCount f t b : Int)) (typeBits t), 0)) s

/-! ### Reductions (R256, R341) -/

/-- The operation of VRED and VSCAN by MOD. -/
def reduceOp (md t rm a b : Nat) : Nat × Nat :=
  match md with
  | 0 => if isFloat4 t then fpAdd t rm a b else (wrap (intOf t a + intOf t b) (typeBits t), 0)
  | 1 => opPick false t rm a b 0
  | 2 => opPick true t rm a b 0
  | 3 => (a &&& b, 0)
  | 4 => (a ||| b, 0)
  | _ => (a ^^^ b, 0)

/-- Combine, with Empty as `none`. -/
def combine (op : Nat → Nat → Nat × Nat) (a b : Option Nat) : Option Nat × Nat :=
  match a, b with
  | none, b => (b, 0)
  | a, none => (a, 0)
  | some x, some y => (some (op x y).1, (op x y).2)

/-- One level of the tree: the results and the flags. -/
def reduceLevel (op : Nat → Nat → Nat × Nat) : List (Option Nat) → List (Option Nat) × Nat
  | a :: b :: r =>
    let (v, f) := combine op a b
    let (l, f') := reduceLevel op r
    (v :: l, orFlags f f')
  | l => (l, 0)

/-- Levels until one value remains; `fuel` bounds their number. -/
def reduceTree (op : Nat → Nat → Nat × Nat) : Nat → List (Option Nat) → Option Nat × Nat
  | 0, l => (l.headD none, 0)
  | fuel + 1, l =>
    if l.length ≤ 1 then (l.headD none, 0)
    else
      let (l', f) := reduceLevel op l
      let (v, f') := reduceTree op fuel l'
      (v, orFlags f f')

/-- The elements, Empty where inactive. -/
def Vx.entries (x : Vx) : List (Option Nat) :=
  (List.range x.n).map fun e => if x.active e then some (elem x.w x.a e) else none

/-- VRED (R341). -/
def execVred (f : SForm) (s : State) : Answer :=
  vecOp (.vred f) noPre (fun t x =>
    let (v, flags) := reduceTree (reduceOp f.md.toNat x.t x.rm) 11 x.entries
    x.done t (x.map fun _ => v.getD 0) flags) s

/-- The prefixes of a list of entries, after `prev`, with the flags. -/
def scanFrom (op : Nat → Nat → Nat × Nat) : Option Nat → List (Option Nat) → List (Option Nat) × Nat
  | _, [] => ([], 0)
  | prev, none :: r => let (l, f) := scanFrom op prev r; (none :: l, f)
  | prev, some y :: r =>
    let (v, f) := combine op prev (some y)
    let (l, f') := scanFrom op v r
    (v :: l, orFlags f f')

/-- VSCAN (R341). -/
def execVscan (f : SForm) (s : State) : Answer :=
  vecOp (.vscan f) noPre (fun t x =>
    let (l, flags) := scanFrom (reduceOp f.md.toNat x.t x.rm) none x.entries
    x.done t (x.map fun e => (nth none l e).getD 0) flags) s

/-! ### Data movement (R342, R343) -/

/-- The immediate index reaches the element count (R342). -/
def indexCheck (f : SForm) (t : State) : Option Nat :=
  if 128 * t.sl.gang.size / typeHalves f.t.toNat ≤ f.fs.toNat % 512 then some 0x02 else none

/-- VPERM (R342). -/
def execVperm (f : SForm) (s : State) : Answer :=
  vecOp (.vperm f) noPre (fun t x =>
    x.done t (x.map fun e =>
      let i := elem x.w x.b e
      if f.md = 1 ∧ x.n ≤ i then 0 else elem x.w x.a (i % x.n)) 0) s

/-- VBCAST (R342). -/
def execVbcast (f : SForm) (s : State) : Answer :=
  vecOp (.vbcast f) noPre (fun t x => x.done t (x.map fun _ => (t.ga f.va).toNat % 2 ^ x.w) 0) s

/-- VBCAST.E (R342). -/
def execVbcastE (f : SForm) (s : State) : Answer :=
  vecOp (.vbcastE f) (indexCheck f) (fun t x => x.done t (x.map fun _ => elem x.w x.a (f.fs.toNat % 512)) 0) s

/-- VMOVG.G (R342): sign-extended for I types, zero-extended otherwise. -/
def execVmovgG (f : SForm) (s : State) : Answer :=
  vecOp (.vmovgG f) (indexCheck f) (fun t x =>
    let v := elem x.w x.a (f.fs.toNat % 512)
    .done t (some (x.producer [] [(f.vd.toNat, if isSignedType x.t then wordI (signed v x.w) else word v)] []))) s

/-- VMOVG.V (R342): the one element, if active. -/
def execVmovgV (f : SForm) (s : State) : Answer :=
  vecOp (.vmovgV f) (indexCheck f) (fun t x =>
    x.done t (x.map fun e => if e = f.fs.toNat % 512 then (t.ga f.va).toNat % 2 ^ x.w else elem x.w x.d e) 0) s

/-- VIDX (R342). -/
def execVidx (f : SForm) (s : State) : Answer :=
  vecOp (.vidx f) noPre (fun t x => x.done t (x.map fun e => wrap (f.fs.toInt + e) x.w) 0) s

/-- VCOMP (R343). -/
def execVcomp (f : SForm) (s : State) : Answer :=
  vecOp (.vcomp f) noPre (fun t x =>
    let l := x.selected.map (elem x.w x.a)
    .done t (some (x.producer [(f.vd.toNat, x.map fun e => nth 0 l e)] [(f.vc.toNat, word l.length)] []))) s

/-- VEXPD (R343). -/
def execVexpd (f : SForm) (s : State) : Answer :=
  vecOp (.vexpd f) noPre (fun t x =>
    let l := x.selected
    x.done t (x.map fun e =>
      if l.contains e then elem x.w x.a (l.idxOf e) else elem x.w x.d e) 0) s

end Sys2Proof.Machine
end

