-- ==== Sys2Proof/Machine/Convert.lean ====
section
/-! DEFINITION. Sys2Proof/Machine/Convert.lean: the conversions VCVT and VSCL, and the packed blocks of VPACK and VUNPK (R237-R239, R241-R253, R337-R340). -/

namespace Sys2Proof.Machine

/-! ### The sides of a conversion -/

/-- A curve table of the core (R245). -/
def Core.curve (x : Core) (c : Nat) : BitVec 1536 := look identityCurve x.eng.curves c

/-- The active converted elements, by the lane of the wide side. -/
def Sides.actives (d : Sides) (g mask : Nat) : List Nat :=
  (List.range (d.n g)).filter fun e => bit mask (laneOf d.wide e)

/-- Source element `e`. -/
def Sides.source (d : Sides) (g a e : Nat) : Nat := elem (typeBits d.src) a (d.index g d.src e)

/-- vd with the results of the active converted elements put in. -/
def Sides.write (d : Sides) (g mask old : Nat) (r : Nat → Nat) : Nat :=
  let w := typeBits d.dst
  let first := d.index g d.dst 0
  joinBits w ((List.range (128 * g / typeHalves d.dst)).map fun i =>
    if first ≤ i ∧ i < first + d.n g ∧ bit mask (laneOf d.wide (i - first)) then r (i - first) else elem w old i)

/-- A source element as a value (R235, R242). -/
def valueOf (t x : Nat) : Num :=
  if isIntType t then Num.ofInt (intOf t x) 0 false else decodeNum t x

/-- Convert (R241-R243). -/
def convert (src dst x : Nat) : Nat × Nat :=
  if isIntType dst then
    if isIntType src then let (v, out) := saturate dst (intOf src x); (v, if out then fSAT + fNX else 0)
    else toInt dst (decodeNum src x)
  else if isIntType src then roundNE dst (valueOf src x)
  else convertFp src dst (decodeNum src x)

/-- Inverse (R247): the curve's value narrowed to the destination. -/
def inverse (table : BitVec 1536) (s dst : Nat) (q : Num) : Nat × Nat :=
  let (x, f) := inverseCurve table s q
  let (v, f') := roundNE dst x
  (v, orFlags f f')

/-- One element of VCVT (R337). -/
def vcvtElement (f : SForm) (table : BitVec 1536) (x : Nat) : Nat × Nat :=
  let d := sidesOf f
  if convCompand f then compand table 127 d.dst (decodeNum d.src x)
  else if convInverse f then inverse table 127 d.dst (decodeNum d.src x)
  else convert d.src d.dst x

/-- VCVT (R337). DESIGN CHOICE (log 28): the curve table of the leader's core converts the elements of every member of a gang. -/
def execVcvt (f : SForm) (s : State) : Answer :=
  vecOp (.vcvt f) noPre (fun t x =>
    let d := sidesOf f
    let r (e : Nat) : Nat × Nat := vcvtElement f (t.cr.curve (convCurve f)) (d.source x.g x.a e)
    let act := d.actives x.g x.mask
    let u := t.updateAmx (act.map fun e => valueOf d.src (d.source x.g x.a e))
    x.done u (d.write x.g x.mask x.d fun e => (r e).1) (orAll (act.map fun e => (r e).2))) s

/-! ### VSCL (R237-R239, R338) -/

/-- The largest magnitude among finite values; `none` when there is none. -/
def largest : List Num → Option Num
  | [] => none
  | x :: r =>
    match x, largest r with
    | .fin _ m e, none => some (.fin false m e)
    | .fin _ m e, some y => some (if y.magLt (.fin false m e) then .fin false m e else y)
    | _, y => y

/-- The smallest integer k with m × 2^(-k) at most MaxFinite of a format, for a nonzero magnitude. -/
def scaleExponent (t man : Nat) (exp : Int) : Int :=
  match decodeNum t (formatOf t).maxCode with
  | .fin _ mm me =>
    let k := exp + (bitLength man : Int) - (me + (bitLength mm : Int))
    if (Num.fin false mm me).magLt (.fin false man (exp - k)) then k + 1 else k
  | _ => 0

/-- ChooseScale (R338). -/
def chooseScale (dst : Nat) (l : List Num) : Nat :=
  match largest l with
  | some (.fin _ m e) => if m = 0 then 127 else (min 254 (max 0 (127 + scaleExponent dst m e))).toNat
  | _ => 127

/-- The value of a scaled element (R238); in a NaN block every element is a quiet NaN (R237). -/
def scaledValue (s : Nat) (q : Num) : Num :=
  if s = 255 then .nan false else q.scale ((s : Int) - 127)

/-- A scaled value delivered in a float format: an infinity stays one (R238). -/
def deliver (dst : Nat) (x : Num) : Nat × Nat :=
  match x with
  | .inf neg => roundIeee dst 0 (.inf neg)
  | y => roundNE dst y

/-- One element of VSCL with its block's scale byte (R338). -/
def vsclElement (f : SForm) (table : BitVec 1536) (s x : Nat) : Nat × Nat :=
  let d := sidesOf f
  let q := decodeNum d.src x
  if isNarrowFloat d.src then
    if convInverse f then inverse table s d.dst (if s = 255 then .nan false else q)
    else deliver d.dst (scaledValue s q)
  else if convCompand f then compand table s d.dst q
  else roundNE d.dst (q.scale (127 - (s : Int)))

/-- The operands that VSCL refuses: a block length that does not divide the element count, and a choice of scales with a
scaled source or under a predicate (R338). -/
def vsclCheck (f : SForm) (t : State) : Option Nat :=
  let d := sidesOf f
  if d.n t.sl.gang.size % sclBlock f != 0 || (!sclGiven f && (isNarrowFloat d.src || f.pred != 0)) then some 0x02 else none

/-- The scale bytes of VSCL, one per block: read from vb, or chosen. -/
def vsclScales (f : SForm) (x : Vx) : List Nat :=
  let d := sidesOf f
  let blocks := d.n x.g / sclBlock f
  (List.range blocks).map fun j =>
    if sclGiven f then elem 8 x.b j
    else chooseScale d.dst ((List.range (sclBlock f)).map fun i => decodeNum d.src (d.source x.g x.a (j * sclBlock f + i)))

/-- VSCL (R338): scales that are chosen are written to vb's low bytes. DESIGN CHOICE (log 28): as in VCVT, the curve table is that
of the leader's core. -/
def execVscl (f : SForm) (s : State) : Answer :=
  vecOp (.vscl f) (vsclCheck f) (fun t x =>
    let d := sidesOf f
    let scales := vsclScales f x
    let scale (e : Nat) : Nat := nth 127 scales (e / sclBlock f)
    let r (e : Nat) : Nat × Nat := vsclElement f (t.cr.curve (convCurve f)) (scale e) (d.source x.g x.a e)
    let act := d.actives x.g x.mask
    let amx := act.map fun e =>
      let q := decodeNum d.src (d.source x.g x.a e)
      if isNarrowFloat d.src then scaledValue (scale e) q else q
    let u := (t.updateAmx amx).raiseFlags (orAll (act.map fun e => (r e).2))
    let v := d.write x.g x.mask x.d fun e => (r e).1
    let old := if f.vb = f.vd then v else x.b
    let k := scales.length
    let b := joinBits 8 scales + old / 2 ^ (8 * k) * 2 ^ (8 * k)
    .done u (some (x.producer ((f.vd.toNat, v) :: if sclGiven f then [] else [(f.vb.toNat, b)]) [] []))) s

/-! ### The CB8 block (R248-R251) -/

/-- The code length of d in a codebook (R249). -/
def codeLength (book d : Nat) : Nat :=
  match book with
  | 0 => nth 8 [1, 2, 3, 4, 6, 7] d
  | 1 => nth 7 [2, 2, 3, 3, 4, 4, 5, 5] d
  | 2 => 4
  | _ => nth 5 [3, 3, 3, 3, 4, 4, 4, 4] d

/-- The codes of a codebook from symbol `d` on: the next code, and the length it stands at (R249). In every codebook
the lengths do not fall as d rises. -/
def codesFrom (book : Nat) : Nat → Nat → Nat → Nat → List (Nat × Nat)
  | 0, _, _, _ => []
  | n + 1, d, code, len =>
    let l := codeLength book d
    let c := code * 2 ^ (l - len)
    (l, c) :: codesFrom book n (d + 1) (c + 1) l

/-- (length, code) of each d. -/
def codebook (book : Nat) : List (Nat × Nat) := codesFrom book 16 0 0 (codeLength book 0)

/-- The fields of an F8A byte: sign, E, M (R234). -/
def f8Sign (x : Nat) : Nat := bits x 7 7
def f8Exp (x : Nat) : Nat := bits x 6 3
def f8Man (x : Nat) : Nat := bits x 2 0

/-- Bits of a number, the highest first. -/
def bitsOf : Nat → Nat → List Nat
  | 0, _ => []
  | n + 1, x => x / 2 ^ n % 2 :: bitsOf n x

/-- The number of bits taken highest first. -/
def natOf (l : List Nat) : Nat := l.foldl (fun x b => 2 * x + b) 0

/-- The stream of 32 elements in a codebook. -/
def blockStream (book emax : Nat) (l : List Nat) : List Nat :=
  l.flatMap fun x =>
    let (len, code) := nth (0, 0) (codebook book) (emax - f8Exp x)
    bitsOf 1 (f8Sign x) ++ bitsOf 3 (f8Man x) ++ bitsOf len code

/-- The 16-bit words of a stream, padded with zeros. -/
def streamWords : Nat → List Nat → List Nat
  | 0, _ => []
  | n + 1, l => if l.isEmpty then [] else natOf ((l ++ List.replicate 16 0).take 16) :: streamWords n (l.drop 16)

/-- The codebook with the fewest stream bits, the lowest on a tie (R250). -/
def bestBook (emax : Nat) (l : List Nat) : Nat :=
  (List.range 4).foldl (fun b c => if (blockStream c emax l).length < (blockStream b emax l).length then c else b) 0

/-- The words of an encoded block (R248, R250). -/
def encodeBlock (scale : Nat) (l : List Nat) : List Nat :=
  let emax := (l.map f8Exp).foldl max 0
  let book := bestBook emax l
  (at_ 8 scale + at_ 4 emax + at_ 2 book) :: streamWords 50 (blockStream book emax l)

/-- VPACK (R339). -/
def execVpack (f : SForm) (s : State) : Answer :=
  vecOp (.vpack f) (fun t => if t.sl.gang.size ≠ 1 then some 0x02 else none) (fun t x =>
    let scales := t.vec (f.va.toNat + 1)
    let half (h : Nat) : List Nat := (List.range 32).map fun i => elem 8 x.a (32 * h + i)
    let block (h : Nat) : List Nat := encodeBlock (elem 8 scales h) (half h)
    let len (h : Nat) : Nat := 2 * (block h).length
    let amx := (List.range 2).flatMap fun h => (half h).map fun q => scaledValue (elem 8 scales h) (decodeNum 4 q)
    .done (t.updateAmx amx) (some (x.producer
      [(f.vd.toNat, joinBits 16 (block 0)), (f.vd.toNat + 1, joinBits 16 (block 1))]
      [(f.vc.toNat, word (len 0 + 256 * len 1))] []))) s

/-- How a decoder stands after some words of a block. -/
inductive Decoded where
  /-- it needs the next word -/
  | more
  /-- the elements, the scale byte, and whether NV is set -/
  | block (codes : List Nat) (scale : Nat) (nv : Bool)
deriving DecidableEq, Repr

/-- The token at the head of a stream: d and the rest; `none` when the bits do not reach. -/
def takeToken (book : Nat) (l : List Nat) : Option (Nat × List Nat) :=
  match findBelow 16 fun d =>
      let (len, code) := nth (0, 0) (codebook book) d
      len ≤ l.length && natOf (l.take len) == code with
  | some d => some (d, l.drop (codeLength book d))
  | none => none

/-- The elements of a stream, `n` of them: `none` when the bits do not reach, and `some none` for a NaN block. -/
def takeElements (book emax : Nat) : Nat → List Nat → Option (Option (List Nat))
  | 0, _ => some (some [])
  | n + 1, l =>
    if l.length < 4 then none
    else
      match takeToken book (l.drop 4) with
      | none => none
      | some (d, r) =>
        if emax < d then some none
        else
          match takeElements book emax n r with
          | some (some t) => some (some ((at_ 7 (natOf (l.take 1)) + at_ 3 (emax - d) + natOf ((l.drop 1).take 3)) :: t))
          | other => other

/-- The decoding of a block from the words read so far (R248, R251). -/
def decodeBlock : List Nat → Decoded
  | [] => .more
  | w :: r =>
    let scale := bits w 15 8
    let nan (nv : Bool) : Decoded := .block (List.replicate 32 0x80) scale nv
    if bits w 1 0 ≠ 0 then nan true
    else if scale = 255 then nan false
    else
      match takeElements (bits w 3 2) (bits w 7 4) 32 (r.flatMap (bitsOf 16)) with
      | none => .more
      | some none => nan true
      | some (some l) => .block l scale false

/-! ### VUNPK (R252, R340) -/

/-- What VUNPK does next with the values it has read. -/
inductive Unpack where
  /-- it reads the offset table's entry of block h -/
  | entry (h : Nat)
  /-- it reads the word at this byte offset of the block data -/
  | word (off : Nat)
  /-- the entry of block h has bit 0 set -/
  | odd (h : Nat)
  | done (b0 b1 : List Nat × Nat × Bool)
deriving DecidableEq, Repr

/-- The block that begins a list of values read, after its offset: the next word's offset, or the block and the values
after it. -/
def unpackBlock (o : Nat) (done : List Nat) : List Nat → Nat ⊕ ((List Nat × Nat × Bool) × List Nat)
  | [] => .inl (o + 2 * done.length)
  | w :: r =>
    match decodeBlock (done ++ [w]) with
    | .block codes scale nv => .inr ((codes, scale, nv), r)
    | .more => unpackBlock o (done ++ [w]) r

/-- The next thing VUNPK does. -/
def unpackNext (got : List Nat) : Unpack :=
  match got with
  | [] => .entry 0
  | o0 :: r =>
    if o0 % 2 = 1 then .odd 0
    else
      match unpackBlock o0 [] r with
      | .inl off => .word off
      | .inr (_, []) => .entry 1
      | .inr (b0, o1 :: q) =>
        if o1 % 2 = 1 then .odd 1
        else
          match unpackBlock o1 [] q with
          | .inl off => .word off
          | .inr (b1, _) => .done b0 b1

/-- The operands of VUNPK: block data, offset table, block index (R340). -/
def unpackEntry (t : State) (f : SForm) (h : Nat) : Int :=
  (t.g f.vb).bounds.1 + 4 * (signed (t.ga f.vc).toNat 64 + h)

/-- What the read of an offset-table entry needs (R340). -/
def entryNeed (t : State) (f : SForm) : Need :=
  let c := t.g f.vb
  { l := true, element := true, badFormat := c.fmt != 0 && c.fmt != 6 }

/-- What the read of a word of block data needs (R32, R340). -/
def blockNeed (t : State) (f : SForm) : Need :=
  let c := t.g f.va
  { l := true, element := true, badFormat := c.fmt != 0x13 || c.bounds.1 % 16 != 0 }

/-- The result of VUNPK. -/
def unpackResult (t : State) (f : SForm) (b0 b1 : List Nat × Nat × Bool) : Ret :=
  let (c0, s0, n0) := b0
  let (c1, s1, n1) := b1
  .done (t.raiseFlags (if n0 || n1 || s0 == 255 || s1 == 255 then fNV else 0)) (some
    { rem := f.la.toNat, pk := f.pk == 1
      vs := [(f.vd.toNat, [BitVec.ofNat 512 (joinBits 8 (c0 ++ c1))]), (f.vd.toNat + 1, [BitVec.ofNat 512 (s0 + 256 * s1)])] })

/-- VUNPK from the values read so far: its plain loads in order, each checked, then its result; `fuel` bounds the
reads (R340). -/
def unpackRun : Nat → State → SForm → List Nat → Ret
  | 0, t, _, _ => .done t
  | fuel + 1, t, f, got =>
    let next (x : Int) (n : Nat) (c : Cap) (need : Need) : Ret :=
      t.access 10 c need .load (.unpack f got) (partsOf t.core x n 0) .stalled .none fun u p =>
        match p.fault with
        | some (_, cause, addr) => .trap u cause addr
        | none => unpackRun fuel u f (got ++ [bufNat p.buf 0 n])
    match unpackNext got with
    | .entry h => next (unpackEntry t f h) 4 (t.g f.vb) (entryNeed t f)
    | .word off => next ((t.g f.va).bounds.1 + off) 2 (t.g f.va) (blockNeed t f)
    | .odd h => .trap t 0x0A (wordI (unpackEntry t f h))
    | .done b0 b1 => unpackResult t f b0 b1

/-- More reads than two blocks of at most 25 words take. -/
def unpackFuel : Nat := 64

/-- The continuation when a read's replies have come (R104). -/
def concludeUnpack (f : SForm) (got : List Nat) (t : State) (p : Pending) : Ret :=
  match p.fault with
  | some (_, cause, addr) => .trap t cause addr
  | none => unpackRun unpackFuel t f (got ++ [bufNat p.buf 0 (match unpackNext got with | .entry _ => 4 | _ => 2)])

/-- VUNPK (R340). -/
def execVunpk (f : SForm) (s : State) : Answer :=
  vecOp (.vunpk f) (fun t => if t.sl.gang.size ≠ 1 then some 0x02 else none) (fun t _ => unpackRun unpackFuel t f []) s

end Sys2Proof.Machine
end

