-- ==== Sys2Proof/Machine/VecMem.lean ====
section
/-! DEFINITION. Sys2Proof/Machine/VecMem.lean: the vector accesses (R32, R292-R294). -/

namespace Sys2Proof.Machine

/-- The size in half bytes of an element of FMT 0x01-0x0F (R31). -/
def fmtHalves (fmt : Nat) : Nat := nth 0 [2, 2, 2, 4, 4, 8, 8, 16, 16, 16, 8, 4, 4, 2, 2, 1] fmt

/-- The type code that a scaled format holds (R292). -/
def scaledType (fmt : Nat) : Option Nat := match fmt with | 0x10 => some 4 | 0x11 => some 5 | 0x12 => some 6 | _ => none

/-- The half byte at which element `i` of a scaled format stands after the base (R32). -/
def scaledPlace (blk halves : Nat) (i : Int) : Int :=
  let elems : Int := 2 ^ (blk + 3)
  let bytes : Int := 2 ^ (blk + 3) * halves / 2
  let j := i / elems
  2 * (j / 16 * (16 + 16 * bytes) + 16 + j % 16 * bytes) + i % elems * halves

/-- ElementAddress in half bytes, exact (R292). -/
def elementPlace (c : Cap) (t : Nat) (i : Int) : Int :=
  2 * c.bounds.1 + if scaledType c.fmt = some t then scaledPlace c.blk (typeHalves t) i else i * typeHalves t

/-- The capability's format faults with attribute at check 10 (R32, R292). -/
def formatBad (c : Cap) (t : Nat) : Bool :=
  if scaledType c.fmt = some t then c.bounds.1 % 16 != 0
  else 0x0F < c.fmt || (c.fmt != 0 && fmtHalves c.fmt != typeHalves t)

/-- What a vector access adds to its form: the index of element 0 and of element e, and the value it stores. -/
structure VecAccess where
  x : Vx
  c : Cap
  index : Nat → Int
  isStore : Bool

/-- Bytes of an element, 1 for a nibble. -/
def Vx.bytes (x : Vx) : Nat := max 1 (typeHalves x.t / 2)

/-- The place of an element in the register image, in bytes. -/
def Vx.place (x : Vx) (e : Nat) : Nat := typeHalves x.t * e / 2

/-- The active elements, the second nibble of a byte left out where the first is active. -/
def Vx.accessed (x : Vx) : List Nat :=
  x.actives.filter fun e => !(typeHalves x.t == 1 && e % 2 == 1 && x.active (e - 1))

/-- The parts of some elements, each made by the member that holds it (R292, R294). -/
def VecAccess.parts (a : VecAccess) (core : Coord) (l : List Nat) : List Part :=
  l.flatMap fun e =>
    partsOf (gangMember core (a.x.place e / 64)) (elementPlace a.c a.x.t (a.index e) / 2) a.x.bytes (a.x.place e)

/-- The 16-byte blocks that a store writes whole: the load-store unit merges its elements (R294). -/
def VecAccess.whole (a : VecAccess) : List Nat :=
  let byte (e : Nat) : List Int := (List.range a.x.bytes).map fun (i : Nat) => elementPlace a.c a.x.t (a.index e) / 2 + (i : Int)
  let full (e : Nat) : Bool := typeHalves a.x.t != 1 || (e % 2 == 0 && a.x.active (e + 1))
  let l := ((a.x.actives.filter full).flatMap byte).filterMap fun i => if i < 0 then none else some i.toNat
  (l.map (· / 16)).filter fun b => (List.range 16).all fun i => l.contains (16 * b + i)

/-- What the access needs. -/
def VecAccess.need (s : State) (a : VecAccess) : Need :=
  { l := !a.isStore, s := a.isStore, element := true, badFormat := formatBad a.c a.x.t
    whole := if a.isStore && !(s.poison.isEmpty && s.doubleErrors.isEmpty) then a.whole else [] }

/-- The member whose lanes hold element `e` (R171). -/
def Vx.member (x : Vx) (e : Nat) : Nat := x.place e / 64

/-- A higher-numbered active element of another member names half byte `h` of element `e` too; in LOCAL each member has its own
bytes (R20, R294). -/
def VecAccess.merged (a : VecAccess) (e h : Nat) : Bool :=
  let p := elementPlace a.c a.x.t (a.index e) + (h : Int)
  region a.c.addr.toNat != 0 && a.x.actives.any fun k =>
    let q := elementPlace a.c a.x.t (a.index k)
    e < k && a.x.member e != a.x.member k && q ≤ p && p < q + (typeHalves a.x.t : Int)

/-- The enabled bits of each byte of the register image: the half bytes of the active elements, those left out that a
higher-numbered element of another member names too, so that the elements are merged before they are sent (R294). -/
def VecAccess.byteMask (a : VecAccess) : List Byte :=
  let n := typeHalves a.x.t
  let on (i : Nat) : Bool := a.x.active (i / n) && !(1 < a.x.g && a.merged (i / n) (i % n))
  (List.range (64 * a.x.g)).map fun i => (if on (2 * i) then 0x0F else 0) ||| (if on (2 * i + 1) then 0xF0 else 0)

/-- What the owner is asked. -/
def VecAccess.ask (a : VecAccess) : Ask :=
  if a.isStore then .store ((splitBits 8 (64 * a.x.g) a.x.d).map (BitVec.ofNat 8)) a.byteMask else .load

/-- What it does when every reply has come. -/
def VecAccess.fin (a : VecAccess) : Completion :=
  if a.isStore then .store
  else .vload a.x.f.vd.toNat (typeHalves a.x.t) a.x.f.la.toNat (a.x.f.pk == 1) a.x.actives

/-- The first check of an odd first index that fails before check 10 (R293). -/
def State.oddCheck (t : State) (a : VecAccess) : List Part → Option (Part × Check)
  | [] => none
  | p :: r =>
    match checkPart t { core := p.core, priv := t.sl.priv, job := t.jobNo } a.c { a.need t with badFormat := false } p.x0 p.n0 p.x p.n with
    | .ok _ => t.oddCheck a r
    | .bad cause ea => if cause = 0x0A ∨ cause = 0x10 then t.oddCheck a r else some (p, .bad cause ea)
    | other => some (p, other)

/-- An F4 access whose first index is odd: attribute, after checks 1 to 9 of every active element (R293). -/
def State.oddAccess (t : State) (a : VecAccess) (l : List Part) : Ret :=
  match t.oddCheck a l, l with
  | some (p, bad), _ => t.refuse p bad
  | none, p :: _ => t.refuse p (.bad 0x0A (wordI p.x))
  | none, [] => trapFree t 0x0A

/-- VectorAccess (R293). -/
def State.vecAccess (t : State) (a : VecAccess) : Ret :=
  if typeHalves a.x.t = 1 ∧ a.index 0 % 2 ≠ 0 then t.oddAccess a (a.parts t.core a.x.actives)
  else t.access 10 a.c (a.need t) a.ask a.fin (a.parts t.core a.x.accessed)

/-- The signed displacement FS. -/
def vecDisp (f : SForm) : Int := f.fs.toInt

/-- LDV and STV: element e has index g[vb] + f + e. -/
def rowAccess (f : SForm) (sp : SchedSpec) (isStore : Bool) (s : State) : Answer :=
  vecRun f sp plainReach noPre (fun t x =>
    t.vecAccess { x, c := t.g f.va, index := fun e => (t.ga f.vb).toInt + vecDisp f + e, isStore }) s

/-- LDVS and STVS: the stride is g[vc]. -/
def stridedAccess (f : SForm) (sp : SchedSpec) (isStore : Bool) (s : State) : Answer :=
  vecRun f sp plainReach noPre (fun t x =>
    t.vecAccess { x, c := t.g f.va, index := fun e => (t.ga f.vb).toInt + vecDisp f + e * (t.ga f.vc).toInt, isStore }) s

/-- LDVX and STVX: the index vector is v[vb] or a port entry. -/
def indexedAccess (f : SForm) (sp : SchedSpec) (isStore : Bool) (s : State) : Answer :=
  vecRun f sp plainReach noPre (fun t x =>
    t.vecAccess { x, c := t.g f.va, index := fun e => (t.ga f.vc).toInt + vecDisp f + signed (elem x.w x.b e) x.w, isStore }) s

/-- LDV (R293). -/
def execLdv (f : SForm) (s : State) : Answer := rowAccess f (specLdv f) false s

/-- STV (R293). -/
def execStv (f : SForm) (s : State) : Answer := rowAccess f (specStv f) true s

/-- LDVS (R293). -/
def execLdvs (f : SForm) (s : State) : Answer := stridedAccess f (specLdvs f) false s

/-- STVS (R293). -/
def execStvs (f : SForm) (s : State) : Answer := stridedAccess f (specStvs f) true s

/-- LDVX (R293). -/
def execLdvx (f : SForm) (s : State) : Answer := indexedAccess f (specLdvx f) false s

/-- STVX (R293). -/
def execStvx (f : SForm) (s : State) : Answer := indexedAccess f (specStvx f) true s

end Sys2Proof.Machine
end

