-- ==== Sys2Proof/Machine/Matrix.lean ====
section
/-! DEFINITION. Sys2Proof/Machine/Matrix.lean: accumulator tiles and the matrix commands MMA, MLD, MST, MZERO, MSWAP and MCVT, at issue and as the engine runs them (R254, R255, R351-R361). -/

namespace Sys2Proof.Machine

/-! ### Accumulator tiles (R351, R352) -/

/-- Tile `a` exists on a core. -/
def tileExists (p : Word) (a : Nat) : Bool := 1024 * (a + 1) ≤ 31 * acs p

/-- The key of tile `a`: in the accumulator area, or in the shadow area when the bank selector is 1. -/
def tileKey (c : Coord) (p : Word) (bank : Bool) (a : Nat) : Nat :=
  poolKey c (16 * (31 * (vrs p + if bank then acs p else 0) + 1024 * a))

/-- The key of tile `a` as a job names it. -/
def State.jobTile (s : State) (j : EngineJob) (a : Nat) : Nat := tileKey j.core (s.coreAt j.core).partw j.bank a

/-- The key of C(i, j) of the tile at a key. -/
def cellKey (k i j : Nat) : Nat := k + 256 * i + 4 * j


/-- Tile `a` as a job reads its first `n` elements of `m` rows: home lost where a word of them is poisoned (R67). -/
def State.tileAt (s : State) (j : EngineJob) (a m n : Nat) : Got Nat :=
  let k := s.jobTile j a
  if (List.range m).any fun i => s.poisonedAt (cellKey k i 0) (4 * n) then .lost else .ok k

/-- The engine's reads and writes of the first `n` elements of `m` rows of the tile at a key (R60). -/
def State.tileReads (s : State) (k m n : Nat) : State := (List.range m).foldl (fun t i => t.poolReads 3 (cellKey k i 0) (4 * n)) s
def State.tileWrites (s : State) (k m n : Nat) : State := (List.range m).foldl (fun t i => t.poolWrites 3 (cellKey k i 0) (4 * n)) s

/-- ES fields of the tile commands (R357, R360). -/
def tileNo (f : EForm) : Nat := esBits f 31 26
def tileM (f : EForm) : Nat := esBits f 25 20 + 1
def tileN (f : EForm) : Nat := esBits f 19 14 + 1

/-! ### MMA at issue (R357, R358) -/

/-- The side of an MMA: whether it is in v registers, its capability and shape, its rows, and its element type. -/
structure MatSide where
  inV : Bool
  reg : Nat
  cap : Cap
  shape : Word
  rows : Nat
  t : Nat
  /-- the curve the side is read through -/
  curve : Option Nat
deriving DecidableEq, Repr

/-- The element type of A and of B: CB8 names F8A elements. -/
def mmaType (f : EForm) : Nat := if f.t = 7 then 4 else f.t.toNat

/-- B is a CB8 stream. -/
def mmaCb8 (f : EForm) : Bool := f.t == 7

/-- K-tiles. -/
def mmaTiles (f : EForm) : Nat := esBits f 13 8 + 1

/-- Side A, from operands GA and GB. -/
def mmaA (f : EForm) (cap shape : Cap) : MatSide :=
  { inV := esBits f 7 7 == 1, reg := f.ga.toNat, cap, shape := shape.addr, rows := tileM f, t := mmaType f
    curve := if esBits f 5 5 = 1 then some (esBits f 3 2) else none }

/-- Side B, from operands GC and GD. -/
def mmaB (f : EForm) (cap shape : Cap) : MatSide :=
  { inV := esBits f 6 6 == 1, reg := f.gc.toNat, cap, shape := shape.addr, rows := tileN f, t := mmaType f
    curve := if esBits f 4 4 = 1 then some (esBits f 1 0) else none }

/-- The smallest of 2, 4, 8 and 16 that holds the rows; 16 for more. -/
def MatSide.group (x : MatSide) : Nat := if x.rows ≤ 2 then 2 else if x.rows ≤ 4 then 4 else if x.rows ≤ 8 then 8 else 16

/-- A side's data has block scales. -/
def MatSide.scaled (x : MatSide) : Bool := !x.inV && scaledType x.cap.fmt == some x.t

/-- Elements of a block. -/
def MatSide.block (x : MatSide) : Nat := 2 ^ (x.cap.blk + 3)

/-- Words of a scale group: a word of scales and B·s words of blocks. -/
def MatSide.groupWords (x : MatSide) : Nat := 1 + x.block * typeHalves x.t / 2

/-- Elements of a K-tile; `none` when the words of a row are no whole number of scale groups (R358). -/
def MatSide.kTile (x : MatSide) : Option Nat :=
  let nw := shapeWords x.shape
  if x.inV then some (128 / typeHalves x.t)
  else if x.scaled then
    if nw % x.groupWords = 0 then some (16 * x.block * nw / x.groupWords) else none
  else some (32 * nw / typeHalves x.t)

/-- The FMT a side's capability may have. -/
def MatSide.formatOk (x : MatSide) : Bool := x.inV || x.cap.fmt == 0 || x.cap.fmt == 9 + x.t || x.scaled

/-- A side breaks its limits: rows beyond the descriptor's, or a register operand of more than 16 rows or one K-tile. -/
def MatSide.overLimit (x : MatSide) (tiles : Nat) : Bool :=
  if x.inV then 16 < x.rows || tiles != 1 else shapeRows x.shape < x.rows

/-- R72 on a side that is a descriptor. -/
def MatSide.check (x : MatSide) (t : State) (tiles : Nat) : Option Ret :=
  if x.inV then none else descCheck t x.cap x.shape tiles x.rows (16 * shapeWords x.shape) { l := true } false

/-- A capability that must lie in LOCAL or CLUSTER raises attribute elsewhere (R70, R358). -/
def poolOnly (t : State) (c : Cap) : Option Ret := attributeIf t c (!(region c.addr.toNat ≤ 1))

/-- The operands of a CB8 B: the block data at its base, and the offset table over its entries (R252, R358). -/
def cb8Check (t : State) (data table : Cap) (blocks : Nat) : List (Option Ret) :=
  [rangeCheck t data data.bounds.1 1 { l := true }, poolOnly t data,
   rangeCheck t table table.bounds.1 (4 * blocks) { l := true }, poolOnly t table,
   attributeIf t data (data.fmt != 0x13 || data.bounds.1 % 16 != 0), attributeIf t table (table.fmt != 0 && table.fmt != 6)]

/-- The checks of MMA (R354, R358). -/
def mmaChecks (f : EForm) (t : State) : List (Option Ret) :=
  let a := mmaA f (t.g f.ga) (t.g f.gb)
  let b := mmaB f (t.g f.gc) (t.g f.gd)
  let n := mmaTiles f
  let k := n * a.kTile.getD 0
  let late := [operandIf t (a.kTile.isNone || a.overLimit n || !tileExists t.cr.partw (tileNo f))]
  if mmaCb8 f then
    a.check t n :: cb8Check t (t.g f.gc) (t.g f.gd) (tileN f * (k / 32)) ++
      [attributeIf t a.cap (!a.formatOk), operandIf t (k % 32 != 0)] ++ late
  else
    [a.check t n, b.check t n, attributeIf t a.cap (!a.formatOk), attributeIf t b.cap (!b.formatOk),
     operandIf t (b.kTile.isNone || b.overLimit n || a.kTile != b.kTile)] ++ late

/-- The v groups that an MMA reads and leases (R358, R208). -/
def mmaGroups (f : EForm) : List (Nat × Nat) :=
  (if esBits f 7 7 = 1 then [(f.ga.toNat, (mmaA f {} {}).group)] else []) ++
  (if esBits f 6 6 = 1 then [(f.gc.toNat, (mmaB f {} {}).group)] else [])

/-- The fields of an MMA that are g registers. -/
def mmaFields (f : EForm) : EngineSpec :=
  { specMma f with ga := esBits f 7 7 == 0, gc := esBits f 6 6 == 0 }

/-- MMA (R357, R358). -/
def execMma (f : EForm) (s : State) : Answer :=
  let groups := mmaGroups f
  let regs := spread groups
  engineRun { engineUses f (mmaFields f) with vr := groups, leaseV := regs, leaseT := [tileNo f] } (mmaChecks f)
    (fun t =>
      { jobOf t kindMatrix 0x80 f (mmaFields f) with
        vals := regs.map fun r => look 0 t.sl.v r
        curves := (List.range 4).map t.cr.curve
        leasedV := regs, leasedT := [tileNo f] }) s

/-! ### MMA as the engine runs it (R254, R255, R358) -/

/-- Element `k` of a K-tile row: its code and its block's scale byte. -/
def MatSide.element (x : MatSide) (row k : Nat) : Nat × Nat :=
  let w := typeBits x.t
  if x.scaled then
    let g := k / (16 * x.block)
    let e := k % (16 * x.block)
    let at_ := 128 * x.groupWords * g
    (row / 2 ^ (at_ + 128 + w * e) % 2 ^ w, elem 8 (row / 2 ^ at_) (e / x.block))
  else (elem w row k, 127)

/-- Val of an element with its scale (R247, R358): the value, and the flags of its curve. -/
def operandValue (t : Nat) (curve : Option (BitVec 1536)) (code scale : Nat) : Num × Nat :=
  let q := decodeNum t code
  match curve with
  | none => (scaledValue scale q, 0)
  | some table =>
    let (v, fl) := inverse table scale 1 (if scale = 255 then .nan false else q)
    (decodeNum 1 v, fl)

/-- The values of the rows of a K-tile of a side, each with a flag for a signalling NaN and those of its curve. -/
def MatSide.values (x : MatSide) (j : EngineJob) (kt row : Nat) : List (Num × Nat) :=
  (List.range kt).map fun k =>
    let (code, scale) := x.element row k
    operandValue x.t (x.curve.map (nth identityCurve j.curves)) code scale

/-- The bytes of row `i` of K-tile `τ` of a side, as a number: a leased register is read in the leader's frame, where a word
that cannot be read is home lost (R67, R368). -/
def State.sideRow (s : State) (j : EngineJob) (x : MatSide) (first τ i : Nat) : Got Nat :=
  if x.inV then
    if (s.vecWords j.core j.slot (x.reg + i)).any s.wordLost then .lost else .ok (nth 0 j.vals (first + i)).toNat
  else (s.engineRead j x.cap (rowAddress x.cap x.shape τ i : Nat) (16 * shapeWords x.shape)).bind fun l => .ok (leNat l)

/-- The engine's reads of the rows of a side over some K-tiles (R60). -/
def State.sideReads (s : State) (j : EngineJob) (x : MatSide) (tiles : List Nat) : State :=
  (List.range x.rows).foldl (fun t i =>
    if x.inV then ((t.vecWords j.core j.slot (x.reg + i)).head?.map fun g => t.poolReads 3 (16 * g) 64).getD t
    else tiles.foldl (fun t τ => t.touched j x.cap false (rowAddress x.cap x.shape τ i : Nat) (16 * shapeWords x.shape)) t) s

/-- The rows of a side over some K-tiles. -/
def State.sideValues (s : State) (j : EngineJob) (x : MatSide) (first : Nat) (tiles : List Nat) : Got (List (List (Num × Nat))) :=
  Got.each (fun i => (Got.each (fun τ => (s.sideRow j x first τ i).bind fun r => .ok (x.values j (x.kTile.getD 0) r)) tiles).bind
    fun l => .ok l.flatten) (List.range x.rows)

/-- A CB8 block read word by word (R251, R252); `fuel` bounds its words. -/
def State.readBlock (s : State) (j : EngineJob) (data : Cap) (off : Nat) : Nat → List Nat → Got (List Nat × Nat × Bool)
  | 0, _ => .ok ([], 255, true)
  | fuel + 1, done =>
    (s.engineRead j data (data.bounds.1 + (off + 2 * done.length : Nat)) 2).bind fun l =>
      let words := done ++ [leNat l]
      match decodeBlock words with
      | .block codes scale nv => .ok (codes, scale, nv)
      | .more => s.readBlock j data off fuel words

/-- The words of a block that `readBlock` reads. -/
def blockWords (s : State) (j : EngineJob) (data : Cap) (off : Nat) : Nat → List Nat → Nat
  | 0, done => done.length
  | fuel + 1, done =>
    match s.engineRead j data (data.bounds.1 + (off + 2 * done.length : Nat)) 2 with
    | .ok l =>
      match decodeBlock (done ++ [leNat l]) with
      | .block _ _ _ => done.length + 1
      | .more => blockWords s j data off fuel (done ++ [leNat l])
    | _ => done.length

/-- Block `b` of the CB8 operand: its values, with NV for the second and third cases of R251. -/
def State.cb8Block (s : State) (j : EngineJob) (b : Nat) : Got (List (Num × Nat)) :=
  let data := j.operand 2
  let table := j.operand 3
  let x := table.bounds.1 + (4 * b : Nat)
  (s.engineRead j table x 4).bind fun l =>
    if leNat l % 2 = 1 then .bad 0x0A (wordI x)
    else
      (s.readBlock j data (leNat l) 26 []).bind fun (codes, scale, nv) =>
        .ok (codes.map fun c => (scaledValue scale (decodeNum 4 c), if nv then fNV else 0))

/-- The rows of a CB8 operand over the blocks of some K-tiles, which start and end at whole blocks. -/
def State.cb8Values (s : State) (j : EngineJob) (n k lo hi : Nat) : Got (List (List (Num × Nat))) :=
  Got.each (fun r => (Got.each (fun c => s.cb8Block j (r * (k / 32) + lo / 32 + c)) (List.range (ceilDiv hi 32 - lo / 32))).bind
    fun l => .ok l.flatten) (List.range n)

/-- The engine's reads of CB8 blocks: their table words, and the words of each (R60, R251). -/
def State.cb8Reads (s : State) (j : EngineJob) (n k lo hi : Nat) : State :=
  (List.range n).foldl (fun t r => (List.range (ceilDiv hi 32 - lo / 32)).foldl (fun t c =>
    let data := j.operand 2
    let at_ := (j.operand 3).bounds.1 + (4 * (r * (k / 32) + lo / 32 + c) : Nat)
    match t.engineRead j (j.operand 3) at_ 4 with
    | .ok l =>
      let n := blockWords t j data (leNat l) 26 []
      (t.touched j (j.operand 3) false at_ 4).touched j data false (data.bounds.1 + (leNat l : Nat)) (2 * n)
    | _ => t) t) s

/-- A value and whether it is an infinity of a sign. -/
def isInf (neg : Bool) : Num → Bool
  | .inf n => n == neg
  | _ => false

/-- The exact sum of products (R254, R255): the value and the flags of its operands. -/
def exactSum (l : List ((Num × Nat) × (Num × Nat))) : Num × Nat :=
  let prods := l.map fun (a, b) => a.1.mul b.1
  let sum := match prods with
    | [] => .fin false 0 0
    | p :: r => (r.map (·.1)).foldl (fun x y => (x.add 0 y).1) p.1
  let conflict := prods.any (fun p => isInf false p.1) && prods.any fun p => isInf true p.1
  (sum, orAll (l.map (fun (a, b) => orFlags a.2 b.2) ++ prods.map (·.2) ++ [if conflict then fNV else 0]))

/-- One chunk added to an accumulator (R254): two roundings of binary32. A NaN that the accumulator holds sets no flag. -/
def addChunk (acc : Nat × Nat) (l : List ((Num × Nat) × (Num × Nat))) : Nat × Nat :=
  let (sum, f) := exactSum l
  let (c, f1) := roundIeee 1 0 sum
  let (r, f2) := add32 acc.1 c
  (r, orAll [acc.2, f, f1, if (decodeNum 1 acc.1).isNaN then 0 else f2])

/-- The chunks of 32 of a list of products, in ascending order; `fuel` is at least their number. -/
def addChunks : Nat → Nat × Nat → List ((Num × Nat) × (Num × Nat)) → Nat × Nat
  | 0, acc, _ => acc
  | n + 1, acc, l => if l.isEmpty then acc else addChunks n (addChunk acc (l.take 32)) (l.drop 32)

/-- The elements of a tile written, with the flags raised. -/
def writeCells (s : State) (k : Nat) (l : List (Nat × Nat × (Nat × Nat))) : State × Nat :=
  l.foldl (fun (t, fl) (i, j, v) => (t.writeNat (cellKey k i j) 4 v.1, orFlags fl v.2)) (s, 0)

/-- Every (i, j) with i < m and j < n, in ascending order. -/
def cells (m n : Nat) : List (Nat × Nat) := (List.range m).flatMap fun i => (List.range n).map fun j => (i, j)

/-- MMA from the K-tiles done up to `hi` (R356, R358). -/
def mmaRun (s : State) (j : EngineJob) (hi : Nat) : Ran :=
  let f := j.f
  let a := mmaA f (j.operand 0) (j.operand 1)
  let b := mmaB f (j.operand 2) (j.operand 3)
  let kt := a.kTile.getD 0
  let tiles := (List.range (hi - j.done)).map (j.done + ·)
  let bRows := if mmaCb8 f then s.cb8Values j b.rows (mmaTiles f * kt) (j.done * kt) (hi * kt)
    else s.sideValues j b (if a.inV then a.group else 0) tiles
  let got := (s.tileAt j (tileNo f) (tileM f) (tileN f)).bind fun k =>
    (s.sideValues j a 0 tiles).bind fun av => bRows.bind fun bv => .ok (k, av, bv)
  got.ran s j.done fun (k, av, bv) =>
    let value (i c : Nat) : Nat × Nat :=
      let l := (nth [] av i).zip (nth [] bv c)
      addChunks l.length (s.readNat (cellKey k i c) 4, 0) l
    let u := (s.tileReads k (tileM f) (tileN f)).sideReads j a tiles
    let u := if mmaCb8 f then u.cb8Reads j b.rows (mmaTiles f * kt) (j.done * kt) (hi * kt) else u.sideReads j b tiles
    let (t, fl) := writeCells (u.tileWrites k (tileM f) (tileN f)) k ((cells a.rows b.rows).map fun (i, c) => (i, c, value i c))
    (t, hi, fl)

/-! ### Tile movement (R360) and MSWAP (R361) -/

/-- The checks of MLD, MST and MCVT: `t` is the type of the elements in memory. -/
def moveChecks (f : EForm) (t : Nat) (need : Need) (whole : Bool) (extra : Bool) (s : State) : List (Option Ret) :=
  let c := s.g f.ga
  let w := (s.g f.gb).addr
  let halves := typeHalves t * tileN f
  let bytes := (halves + 1) / 2
  [descCheck s c w 1 (tileM f) (if 16 * shapeWords w < bytes then 16 * shapeWords w else bytes) need false,
   attributeIf s c (c.fmt != 0 && c.fmt != 9 + t),
   operandIf s (shapeRows w < tileM f || 32 * shapeWords w < halves || (whole && halves % 32 != 0) || extra ||
     !tileExists s.cr.partw (tileNo f))]

/-- A tile command that names one tile. -/
def tileOp (op : Nat) (f : EForm) (sp : EngineSpec) (checks : State → List (Option Ret)) (s : State) : Answer :=
  engineRun { engineUses f sp with leaseT := [tileNo f] } checks
    (fun t => { jobOf t kindMatrix op f sp with leasedT := [tileNo f], curves := (List.range 4).map t.cr.curve }) s

/-- MLD (R360). -/
def execMld (f : EForm) (s : State) : Answer := tileOp 0x81 f (specTile f) (moveChecks f 1 { l := true } false false) s

/-- MST (R360). -/
def execMst (f : EForm) (s : State) : Answer := tileOp 0x82 f (specTile f) (moveChecks f 1 { s := true } true false) s

/-- SC, CE and C of MCVT. -/
def mcvtScale (f : EForm) : Nat := esBits f 10 3
def mcvtCompand (f : EForm) : Bool := esBits f 13 13 == 1
def mcvtCurve (f : EForm) : Nat := esBits f 12 11

/-- MCVT (R360). -/
def execMcvt (f : EForm) (s : State) : Answer :=
  tileOp 0x85 f (specMcvt f) (moveChecks f f.t.toNat { s := true } true (mcvtScale f == 255)) s

/-- The tiles of an MZERO. -/
def zeroTiles (f : EForm) : List Nat := (List.range (tileM f)).map (tileNo f + ·)

/-- MZERO (R360). -/
def execMzero (f : EForm) (s : State) : Answer :=
  engineRun { engineUses f (specMzero f) with leaseT := zeroTiles f }
    (fun t => [operandIf t (!(zeroTiles f).all (tileExists t.cr.partw))])
    (fun t => { jobOf t kindMatrix 0x83 f (specMzero f) with leasedT := zeroTiles f }) s

/-- MSWAP (R361): it waits until no matrix-engine job of the core is outstanding, and inverts the bank selector. -/
def execMswap (f : EForm) (s : State) : Answer :=
  issue s 10 { engineUses f (specMswap f) with sysOnly := true } fun t =>
    let p := t.cr.partw
    if shs p != acs p || acs p == 0 then .trap t 0x02 0
    else if t.cr.eng.jobs.any (·.kind == kindMatrix) then .stay (t.awaiting .stalled .room)
    else
      match t.accept (jobOf t kindMatrix 0x84 f (specMswap f)) with
      | .done u q => .done (u.modCr fun x => { x with eng := { x.eng with bank := !x.eng.bank } }) q
      | r => r

/-- The bytes of a row of codes of a type. -/
def rowBytes (t : Nat) (l : List Nat) : List Byte :=
  leBytes (typeHalves t * l.length / 2) (joinBits (typeBits t) l)

/-- A run that reads a tile and writes the rows of a descriptor: `q` gives element codes of type `t`. -/
def storeRows (s : State) (j : EngineJob) (t : Nat) (q : Nat → Nat × Nat) : Ran :=
  let f := j.f
  let c := j.operand 0
  let w := (j.operand 1).addr
  match s.tileAt j (tileNo f) (tileM f) (tileN f) with
  | .ok k =>
    let rows := (List.range (tileM f)).map fun i => (List.range (tileN f)).map fun n => q (s.readNat (cellKey k i n) 4)
    let fl := orAll (rows.flatMap fun r => r.map (·.2))
    (s.tileReads k (tileM f) (tileN f)).storeAll j c (tileM f) fl
      (rows.zipIdx.map fun (r, i) => ((rowAddress c w 0 i : Nat), rowBytes t (r.map (·.1))))
  | g => g.ran s 0 fun _ => (s, 0, 0)

/-- MLD run. -/
def mldRun (s : State) (j : EngineJob) : Ran :=
  let f := j.f
  let c := j.operand 0
  let w := (j.operand 1).addr
  let k := s.jobTile j (tileNo f)
  (Got.each (fun i => s.engineRead j c (rowAddress c w 0 i : Nat) (4 * tileN f)) (List.range (tileM f))).ran s 0
    fun rows =>
      let u := (List.range (tileM f)).foldl (fun t i => t.touched j c false (rowAddress c w 0 i : Nat) (4 * tileN f)) s
      (rows.zipIdx.foldl (fun t (r, i) => t.writeBytes (cellKey k i 0) r) (u.tileWrites k (tileM f) (tileN f)), tileM f, 0)

/-- MST run. -/
def mstRun (s : State) (j : EngineJob) : Ran := storeRows s j 1 fun x => (x, 0)

/-- Q of MCVT. -/
def mcvtValue (f : EForm) (table : BitVec 1536) (x : Nat) : Nat × Nat :=
  let v := decodeNum 1 x
  if mcvtCompand f then compand table (mcvtScale f) f.t.toNat v
  else roundNE f.t.toNat (v.scale (127 - (mcvtScale f : Int)))

/-- MCVT run. -/
def mcvtRun (s : State) (j : EngineJob) : Ran :=
  storeRows s j j.f.t.toNat (mcvtValue j.f (nth identityCurve j.curves (mcvtCurve j.f)))

/-- MZERO run: the tiles' words are written with zeros, which clears the poison of each (R67). -/
def mzeroRun (s : State) (j : EngineJob) : Ran :=
  .ended ((zeroTiles j.f).foldl (fun t a => (t.poolWrites 3 (t.jobTile j a) 16384).clear (t.jobTile j a) 16384) s)
    (zeroTiles j.f).length 0 none

end Sys2Proof.Machine
end

