-- ==== Sys2Proof/Machine/Signature.lean ====
section
/-! DEFINITION. Sys2Proof/Machine/Signature.lean: the signature commands, at issue and as the engine runs them (R356, R363-R367). -/

namespace Sys2Proof.Machine

/-! ### Pairs of tiles (R363) -/

/-- d + d² + … + d^(k-1): the entry at which level `k` begins. -/
def levelStart (d : Nat) : Nat → Nat
  | 0 => 0
  | 1 => 0
  | k + 1 => levelStart d k + d ^ k

/-- Pairs a and b. -/
def pairA (f : EForm) : Nat := esBits f 31 26
def pairB (f : EForm) : Nat := esBits f 25 20

/-- A pair index is even and names two tiles that exist. -/
def pairOk (p : Word) (a : Nat) : Bool := a % 2 == 0 && tileExists p (a + 1)

/-- The key of entry `n` of pair `a`: the 8,192 entries of a pair follow each other. -/
def State.entryKey (s : State) (j : EngineJob) (a n : Nat) : Nat := s.jobTile j a + 4 * n

/-- The entries of a pair. -/
def State.pairEntries (s : State) (j : EngineJob) (a n : Nat) : Got (Array Nat) :=
  if s.poisonedAt (s.jobTile j a) (4 * n) then .lost
  else .ok ((List.range n).map fun i => s.readNat (s.entryKey j a i) 4).toArray

/-- The bytes of entries as they are written: every NaN is the canonical one (R363). -/
def entryBytes (l : List Nat) : List Byte := l.flatMap fun x => leBytes 4 (if 0x7F800000 < x % 2 ^ 31 then canonicalNaN 1 else x)

/-- Entries written from entry 0 on. -/
def State.setEntries (s : State) (j : EngineJob) (a : Nat) (l : List Nat) : State :=
  (s.poolWrites j.client (s.jobTile j a) (4 * l.length)).writeBytes (s.jobTile j a) (entryBytes l)

/-- The reads of the entries of pairs. -/
def State.tupleReads (s : State) (j : EngineJob) (l : List Nat) : State :=
  l.foldl (fun t a => t.poolReads j.client (t.jobTile j a) (4 * levelStart j.dim (j.depth + 1))) s

/-! ### The commands at issue (R364) -/

/-- The conditions on the pairs, d and D: `two` says that the command names pair b. -/
def pairsBad (f : EForm) (two : Bool) (t : State) : Bool :=
  let d := t.sl.sys.sigdim.toNat
  let depth := t.sl.sys.sigdepth.toNat
  !pairOk t.cr.partw (pairA f) || (two && (!pairOk t.cr.partw (pairB f) || pairA f == pairB f)) ||
  8192 < levelStart d (depth + 1)

/-- Entries of a signature: O_(D+1). -/
def entryCount (t : State) : Nat := levelStart t.sl.sys.sigdim.toNat (t.sl.sys.sigdepth.toNat + 1)

/-- The tiles of the pairs named. -/
def pairTiles (f : EForm) (two : Bool) : List Nat :=
  [pairA f, pairA f + 1] ++ if two then [pairB f, pairB f + 1] else []

/-- What an element-indexed F32 operand of an engine needs: FMT 0x00 or 0x0A, and no SYSTEM region (R364, R386). -/
def elementNeed (c : Cap) (need : Need) (x : Int) : Need :=
  { need with badFormat := (c.fmt != 0 && c.fmt != 0x0A) || region x.toNat == 15 }

/-- The address of F32 element `i` (R292). -/
def f32Address (c : Cap) (i : Int) : Int := c.bounds.1 + 4 * i

/-- The check of elements `i` to `i + n - 1` of an operand over their whole range. -/
def elementCheck (t : State) (c : Cap) (need : Need) (i : Int) (n : Nat) : Option Ret :=
  rangeCheck t c (f32Address c i) (4 * n) (elementNeed c need (f32Address c i))

/-- The format condition of such an operand, which holds for an empty range too (R354, R364, R387). -/
def formatIf (t : State) (c : Cap) (i : Int) : Option Ret := attributeIf t c (elementNeed c {} (f32Address c i)).badFormat

/-- A signature command. -/
def sigOp (op : Nat) (f : EForm) (sp : EngineSpec) (two : Bool) (checks : State → List (Option Ret)) (s : State) : Answer :=
  engineRun { engineUses f sp with leaseT := pairTiles f two } (fun t => checks t ++ [operandIf t (pairsBad f two t)])
    (fun t => { jobOf t kindMatrix op f sp with leasedT := pairTiles f two }) s

/-- SIGRST (R364). -/
def execSigrst (f : EForm) (s : State) : Answer := sigOp 0x88 f (specSigrst f) false (fun _ => []) s

/-- The operand check of SIGADV: a count above 65,536 is refused, and names no range that must be checked. -/
def sigadvCheck (f : EForm) (t : State) : Option Ret :=
  let d := t.sl.sys.sigdim.toNat
  let n := (t.ga f.gc).toNat
  if 65536 < n then none else elementCheck t (t.g f.ga) { l := true } (d * (t.ga f.gb).toInt) (d * n)

/-- SIGADV (R365). -/
def execSigadv (f : EForm) (s : State) : Answer :=
  sigOp 0x89 f (specSigadv f) false
    (fun t => [sigadvCheck f t, formatIf t (t.g f.ga) (t.sl.sys.sigdim.toNat * (t.ga f.gb).toInt),
      operandIf t (decide (65536 < (t.ga f.gc).toNat))]) s

/-- SIGJOIN (R366). -/
def execSigjoin (f : EForm) (s : State) : Answer := sigOp 0x8A f (specSigPair f) true (fun _ => []) s

/-- SIGLOG (R367). -/
def execSiglog (f : EForm) (s : State) : Answer := sigOp 0x8B f (specSigPair f) true (fun _ => []) s

/-- SIGLD (R364). -/
def execSigld (f : EForm) (s : State) : Answer :=
  sigOp 0x8C f (specSigMove f) false
    (fun t => [elementCheck t (t.g f.ga) { l := true } (t.ga f.gb).toInt (entryCount t)]) s

/-- SIGST (R364). -/
def execSigst (f : EForm) (s : State) : Answer :=
  sigOp 0x8D f (specSigMove f) false
    (fun t => [elementCheck t (t.g f.ga) { s := true } (t.ga f.gb).toInt (entryCount t)]) s

/-! ### The arithmetic (R363, R365-R367) -/

/-- A code and the flags raised so far. -/
abbrev Flagged := Nat × Nat

/-- Fma(a, b, s) with the flags put together. -/
def Flagged.fma (a b : Nat) (s : Flagged) : Flagged := let (r, f) := fma32 a b s.1; (r, orFlags s.2 f)

def one32 : Nat := 0x3F800000

/-- 1/j rounded to F32. -/
def inverse32 (j : Nat) : Nat := (finish 1 0 ((Num.fin false 1 0).div (.fin false j 0))).1

/-- The codes and the flags of a list. -/
def codesOf (l : List Flagged) : List Nat := l.map (·.1)
def flagsOf (l : List Flagged) : Nat := orAll (l.map (·.2))

/-- The indices of level `k`, in ascending order: digit 1 is the most significant, so the prefix of length p of an index u
is u / d^(k-p) and its suffix of length q is u mod d^q (R363). -/
def levelIndices (d k : Nat) : List Nat := List.range (d ^ k)

/-- Entry of level `k` and index `u` in a list of entries. -/
def entryAt (a : Array Nat) (d k u : Nat) : Nat := a.getD (levelStart d k + u) 0

/-- P[2] to P[D] of SigAdv after P[1] = Δ: each level's entries. -/
def powers (d : Nat) (delta : Array Nat) : Nat → Nat → List Nat → List (List Flagged)
  | 0, _, _ => []
  | n + 1, j, before =>
    let prev := before.toArray
    let level := (levelIndices d j).map fun u =>
      let (x, f) := mul32 (prev.getD (u / d) 0) (delta.getD (u % d) 0)
      let (y, g) := mul32 x (inverse32 j)
      (y, orFlags f g)
    level :: powers d delta n (j + 1) (codesOf level)

/-- One step of SigAdv: the new entries and the flags. -/
def sigStep (d depth : Nat) (s : Array Nat) (delta : List Nat) : List Flagged :=
  let ps := powers d delta.toArray (depth - 1) 2 delta
  let p : List (Array Nat) := delta.toArray :: ps.map fun l => (codesOf l).toArray
  let early := orAll (ps.map flagsOf)
  (List.range depth).flatMap fun k0 =>
    let k := k0 + 1
    (levelIndices d k).map fun u =>
      (List.range k).foldl (fun (acc : Flagged) j0 =>
        let j := j0 + 1
        let lo := if j = k then one32 else entryAt s d (k - j) (u / d ^ j)
        acc.fma lo ((nth #[] p j0).getD (u % d ^ j) 0)) (entryAt s d k u, early)

/-- SIGJOIN (R366). -/
def sigJoin (d depth : Nat) (a b : Array Nat) : List Flagged :=
  (List.range depth).flatMap fun k0 =>
    let k := k0 + 1
    (levelIndices d k).map fun u =>
      let r := (List.range (k - 1)).foldl (fun (acc : Flagged) j0 =>
        let j := j0 + 1
        acc.fma (entryAt a d (k - j) (u / d ^ j)) (entryAt b d j (u % d ^ j))) (entryAt a d k u, 0)
      r.fma one32 (entryAt b d k u)

/-- The levels of Q[n], from Q[n - 1], as arrays that begin at entry 0; entries of levels below n are zero. -/
def logPower (d depth n : Nat) (q x : Array Nat) : List Flagged :=
  (List.range depth).flatMap fun k0 =>
    let k := k0 + 1
    (levelIndices d k).map fun u =>
      if k < n then (0, 0)
      else
        (List.range (k - n + 1)).foldl (fun (acc : Flagged) j0 =>
          let j := j0 + 1
          acc.fma (entryAt q d (k - j) (u / d ^ j)) (entryAt x d j (u % d ^ j))) (0, 0)

/-- Q[n], Q[n + 1], …: `fuel` of them after `q`. -/
def logPowers (d depth : Nat) (x : Array Nat) : Nat → Nat → Array Nat → List (List Flagged)
  | 0, _, _ => []
  | fuel + 1, n, q =>
    let l := logPower d depth n q x
    l :: logPowers d depth x fuel (n + 1) (codesOf l).toArray

/-- c_n = (-1)^(n+1) × (1/n rounded to F32). -/
def logCoefficient (n : Nat) : Nat := inverse32 n + if n % 2 = 0 then 0x80000000 else 0

/-- SIGLOG (R367). -/
def sigLog (d depth : Nat) (x : Array Nat) : List Flagged :=
  let qs := logPowers d depth x (depth - 1) 2 x
  let q : List (Array Nat) := x :: qs.map fun l => (codesOf l).toArray
  let early := orAll (qs.map flagsOf)
  (List.range depth).flatMap fun k0 =>
    let k := k0 + 1
    (levelIndices d k).map fun u =>
      (List.range (k - 1)).foldl (fun (acc : Flagged) i =>
        acc.fma (logCoefficient (i + 2)) (entryAt (nth #[] q (i + 1)) d k u)) (entryAt x d k u, early)

/-! ### The runs -/

/-- Entries of a job's signatures. -/
def EngineJob.entries (j : EngineJob) : Nat := levelStart j.dim (j.depth + 1)

/-- SIGRST run: later entries are unchanged. -/
def sigrstRun (s : State) (j : EngineJob) : Ran :=
  .ended (s.setEntries j (pairA j.f) (List.replicate j.entries 0)) 1 0 none

/-- Increments up to `hi`, one after another. -/
def advance (s : State) (j : EngineJob) (r0 : Int) : Nat → Nat → Array Nat → Nat → Nat × Array Nat × Nat × Got Unit
  | 0, done, acc, fl => (done, acc, fl, .ok ())
  | n + 1, done, acc, fl =>
    let c := j.operand 0
    match s.engineRead j c (f32Address c (j.dim * (r0 + done))) (4 * j.dim) with
    | .ok l =>
      let delta := (List.range j.dim).map fun i => leNat ((l.drop (4 * i)).take 4)
      let out := sigStep j.dim j.depth acc delta
      advance s j r0 n (done + 1) (codesOf out).toArray (orFlags fl (flagsOf out))
    | g => (done, acc, fl, g.bind fun _ => .ok ())

/-- SIGADV from the increments done up to `hi` (R356, R365): a fault keeps the increments before it. -/
def sigadvRun (s : State) (j : EngineJob) (hi : Nat) : Ran :=
  match s.pairEntries j (pairA j.f) j.entries with
  | .ok a =>
    let (done, acc, fl, g) := advance s j (j.operand 1).addr.toInt (hi - j.done) j.done a 0
    let c := j.operand 0
    let t := (s.tupleReads j [pairA j.f]).touched j c false (f32Address c (j.dim * ((j.operand 1).addr.toInt + j.done)))
      (4 * j.dim * (done - j.done))
    let t := if done = j.done then t else t.setEntries j (pairA j.f) acc.toList
    (g.ran t done fun _ => (t, done, fl)).flagged fl
  | g => g.ran s j.done fun _ => (s, j.done, 0)

/-- SIGJOIN run. -/
def sigjoinRun (s : State) (j : EngineJob) : Ran :=
  ((s.pairEntries j (pairA j.f) j.entries).bind fun a => (s.pairEntries j (pairB j.f) j.entries).bind fun b => .ok (a, b)).ran s 0
    fun (a, b) =>
      let r := sigJoin j.dim j.depth a b
      ((s.tupleReads j [pairA j.f, pairB j.f]).setEntries j (pairA j.f) (codesOf r), 1, flagsOf r)

/-- SIGLOG run. -/
def siglogRun (s : State) (j : EngineJob) : Ran :=
  (s.pairEntries j (pairB j.f) j.entries).ran s 0 fun b =>
    let r := sigLog j.dim j.depth b
    ((s.tupleReads j [pairB j.f]).setEntries j (pairA j.f) (codesOf r), 1, flagsOf r)

/-- SIGLD run. -/
def sigldRun (s : State) (j : EngineJob) : Ran :=
  let c := j.operand 0
  (s.engineRead j c (f32Address c (j.operand 1).addr.toInt) (4 * j.entries)).ran s 0
    fun l =>
      ((s.touched j c false (f32Address c (j.operand 1).addr.toInt) (4 * j.entries)).setEntries j (pairA j.f)
        ((List.range j.entries).map fun i => leNat ((l.drop (4 * i)).take 4)), 1, 0)

/-- SIGST run: the entries' bytes are in the job's buffer, and it goes on with its writes as stage 2. -/
def sigstRun (s : State) (j : EngineJob) : Ran :=
  let c := j.operand 0
  match s.pairEntries j (pairA j.f) j.entries with
  | .ok a =>
    let l := entryBytes a.toList
    let todo := (partsOf j.core (f32Address c (j.operand 1).addr.toInt) l.length 0).map fun p => { off := p.off, x := p.x.toNat, n := p.n }
    .writes { j with stage := 2, todo, buf := l.zipIdx.map fun (b, i) => (i, b) }
  | g => g.ran s 0 fun _ => (s, 0, 0)

/-! ### Every matrix-engine job -/

/-- Units of a whole job: K-tiles, increments, or the command as one. -/
def EngineJob.total (j : EngineJob) : Nat :=
  if j.op = 0x80 then mmaTiles j.f else if j.op = 0x89 then (j.operand 2).addr.toNat else 1

/-- A run of a matrix-engine job up to unit `hi` (R358-R367). -/
def matrixRun (s : State) (j : EngineJob) (hi : Nat) : Ran :=
  match j.op with
  | 0x80 => mmaRun s j hi
  | 0x81 => mldRun s j
  | 0x82 => mstRun s j
  | 0x83 => mzeroRun s j
  | 0x84 => .ended s 1 0 none
  | 0x85 => mcvtRun s j
  | 0x88 => sigrstRun s j
  | 0x89 => sigadvRun s j hi
  | 0x8A => sigjoinRun s j
  | 0x8B => siglogRun s j
  | 0x8C => sigldRun s j
  | _ => sigstRun s j

end Sys2Proof.Machine
end

