-- ==== Sys2Proof/Machine/Collective.lean ====
section
/-! DEFINITION. Sys2Proof/Machine/Collective.lean: COLL, and the ring sequencers' part in a collective (R371, R383-R385). How chunks are numbered on the wire, and what an outside neighbour sends, is the model's own (log 21). -/

namespace Sys2Proof.Machine

/-! ### Fields and rings (R383) -/

/-- OP, ROOT and the count n. -/
def collOp (f : EForm) : Nat := esBits f 31 30
def collRoot (f : EForm) : Nat := esBits f 29 22

/-- The ring of a key; size 0 when none is installed. -/
def State.ringAt (s : State) (k : Nat) : Ring := look { job := 0, rank := 0, size := 0 } s.pkg.rings k
def State.setRing (s : State) (k : Nat) (r : Ring) : State := { s with pkg := { s.pkg with rings := put s.pkg.rings k r } }

/-- The sequencer of a port, and the command that it runs on a ring (R370). -/
def State.sequencer (s : State) (port : Nat) : Sequencer := look {} s.pkg.sequencers port
def State.setSequencer (s : State) (port : Nat) (q : Sequencer) : State :=
  { s with pkg := { s.pkg with sequencers := put s.pkg.sequencers port q } }
def State.ringRun (s : State) (k : Nat) : Option EngineJob := (s.sequencer (k / 256)).run.filter (·.ring == k)
def State.setRun (s : State) (k : Nat) (j : Option EngineJob) : State :=
  s.setSequencer (k / 256) { s.sequencer (k / 256) with run := j }

/-- The ring word names a ring that is installed for the job. -/
def ringInstalled (t : State) (w : Word) : Bool :=
  bits w.toNat 63 13 == 0 && bits w.toNat 12 8 < 24 && (t.ringAt (ringKey w)).size != 0 &&
  (t.ringAt (ringKey w)).job == t.jobNo

/-- Source and destination elements of a member (R384): broadcast reads its source at the root only. -/
def collSource (op n size : Nat) (isRoot : Bool) : Nat :=
  match op with | 1 => n * size | 3 => if isRoot then n else 0 | _ => n
def collDest (op n size : Nat) : Nat := if op = 2 then n * size else n

/-- Bytes of an element. -/
def collBytes (f : EForm) : Nat := typeHalves f.t.toNat / 2

/-- What an element-indexed operand of COLL needs (R292, R383). -/
def collNeed (f : EForm) (c : Cap) (need : Need) (x : Int) : Need :=
  { need with element := true, badFormat := (c.fmt != 0 && c.fmt != 9 + f.t.toNat) || region x.toNat == 15 }

/-- The checks of an operand (R383): over its elements those of R47; over no element, or over more than a good count has, those
that need no page (log 21). -/
def collRange (t : State) (f : EForm) (c : Cap) (n : Nat) (need : Need) : Option Ret :=
  let x := c.bounds.1
  let need := collNeed f c need x
  let trapOf (r : Option (Nat × Word)) : Option Ret := r.map fun (cause, ea) => .trap t cause ea
  if n = 0 then
    trapOf (if !c.tag then some (0x05, wordI x) else if c.isSealed || !permitted t.self c need x then some (0x07, wordI x)
      else if need.badFormat then some (0x0A, wordI x) else none)
  else if 2 ^ 36 < n then trapOf (earlyChecks t t.self c need x (n * collBytes f) x (n * collBytes f))
  else rangeCheck t c x (n * collBytes f) need

/-- The checks of COLL (R354, R383); a ring that is not installed has no members. -/
def collChecks (f : EForm) (t : State) : List (Option Ret) :=
  let w := t.ga f.gc
  let r := t.ringAt (ringKey w)
  let n := (t.ga f.gd).toNat
  let size := if ringInstalled t w then r.size else 0
  [collRange t f (t.g f.ga) (collSource (collOp f) n size (collRoot f == r.rank)) { l := true },
   collRange t f (t.g f.gb) (collDest (collOp f) n size) { s := true },
   operandIf t (!ringInstalled t w || n == 0 || 2 ^ 28 < n || (if collOp f = 3 then r.size ≤ collRoot f else collRoot f != 0))]

/-- COLL (R383). -/
def execColl (f : EForm) (s : State) : Answer :=
  engineRun (engineUses f (specColl f)) (collChecks f) (fun t => jobOf t kindRing 0x94 f (specColl f)) s

/-! ### Chunks (R371, R384) -/

def EngineJob.collN (j : EngineJob) : Nat := (j.operand 3).addr.toNat

/-- The command as members compare it: OP, type, n and ROOT (R385). -/
def EngineJob.command (j : EngineJob) : Nat :=
  at_ 44 (collOp j.f) + at_ 40 j.f.t.toNat + at_ 32 (collRoot j.f) + j.collN

/-- Elements of a chunk of 4,096 bytes. -/
def EngineJob.chunkElems (j : EngineJob) : Nat := 4096 / collBytes j.f

/-- Chunks of one block of n elements. -/
def EngineJob.blockChunks (j : EngineJob) : Nat := ceilDiv j.collN j.chunkElems

/-- The blocks that travel the ring: one, or one for each member in reduce-scatter and all-gather. -/
def EngineJob.blocks (j : EngineJob) (r : Ring) : Nat := if collOp j.f = 1 ∨ collOp j.f = 2 then r.size else 1

/-- All-reduce and reduce-scatter add; the others only forward. -/
def EngineJob.reduces (j : EngineJob) : Bool := collOp j.f < 2

/-- Every (block, number) of a collective in order. -/
def EngineJob.allChunks (j : EngineJob) (r : Ring) : List (Nat × Nat) :=
  (List.range (j.blocks r)).flatMap fun b => (List.range j.blockChunks).map fun i => (b, i)

/-- Elements of chunk `i` of a block. -/
def EngineJob.chunkLen (j : EngineJob) (i : Nat) : Nat := min j.chunkElems (j.collN - i * j.chunkElems)

/-- The member whose result begins its way round the ring with block `b`: the last rank of a reduction, the member that
holds the block, or the root. -/
def EngineJob.origin (j : EngineJob) (r : Ring) (b : Nat) : Nat :=
  if j.reduces then r.size - 1 else if collOp j.f = 2 then b else collRoot j.f

/-- The member writes block `b` of a result to its destination: at which block of it. -/
def EngineJob.destBlock (j : EngineJob) (r : Ring) (b : Nat) : Option Nat :=
  match collOp j.f with
  | 0 => some 0
  | 1 => if b = r.rank then some 0 else none
  | 2 => some b
  | _ => some 0

/-- A broadcast, in which a member's data do not show that every member has begun: the root sends an empty chunk round first, and
its elements when that has come back (R385; log 21). -/
def EngineJob.broadcasts (j : EngineJob) : Bool := collOp j.f == 3

/-- The chunks a member receives, in the order in which they come (log 21): partials, or a broadcast's empty chunk, then results. -/
def EngineJob.arrivals (j : EngineJob) (r : Ring) : List (Bool × Nat × Nat) :=
  (if j.broadcasts then [(false, 0, 0)] else if j.reduces && r.rank != 0 then (j.allChunks r).map fun c => (false, c) else []) ++
  ((j.allChunks r).filter fun c => j.origin r c.1 != r.rank).map fun c => (true, c)

/-- The member's own elements of a chunk. -/
def State.ownChunk (s : State) (j : EngineJob) (b i : Nat) : Got (State × List Byte) :=
  let c := j.operand 0
  let first := (if collOp j.f = 1 then b * j.collN else 0) + i * j.chunkElems
  let x := c.bounds.1 + (first * collBytes j.f : Nat)
  let n := j.chunkLen i * collBytes j.f
  (s.engineRead j c x n).bind fun l => .ok (s.touched j c false x n, l)

/-- A result written to the member's destination, when it takes the block. -/
def State.writeChunk (s : State) (j : EngineJob) (r : Ring) (b i : Nat) (data : List Byte) : Got State :=
  match j.destBlock r b with
  | none => .ok s
  | some d =>
    let c := j.operand 1
    let first := d * j.collN + i * j.chunkElems
    s.engineWrite j c (c.bounds.1 + (first * collBytes j.f : Nat)) data

/-- Elements of the destination (R384). -/
def EngineJob.destElems (j : EngineJob) (r : Ring) : Nat := collDest (collOp j.f) j.collN r.size

/-- Chunk `i` of block `b` has elements of the `u`th 4,096 bytes of the destination. -/
def EngineJob.inUnit (j : EngineJob) (r : Ring) (u : Nat) (c : Nat × Nat) : Bool :=
  match j.destBlock r c.1 with
  | none => false
  | some d =>
    let first := d * j.collN + c.2 * j.chunkElems
    u * j.chunkElems < first + j.chunkLen c.2 && first < (u + 1) * j.chunkElems

/-- DONEC (R370): the 4,096-byte chunks of the destination of which every element is written. -/
def EngineJob.unitsDone (j : EngineJob) (r : Ring) : Nat :=
  ((List.range (ceilDiv (j.destElems r) j.chunkElems)).filter fun u =>
    ((j.allChunks r).filter (j.inUnit r u)).all j.wrote.contains).length

/-- The elements of some bytes. -/
def chunkCodes (t : Nat) (l : List Byte) : List Nat := splitBits (typeBits t) (l.length * 2 / typeHalves t) (leNat l)

/-- Each element of a partial plus the member's own, rounded to the type (R241, R384). -/
def addChunks_ (t : Nat) (a b : List Byte) : List Byte × Nat :=
  let l := ((chunkCodes t a).zip (chunkCodes t b)).map fun (x, y) =>
    let (v, f) := (decodeNum t x).add 0 (decodeNum t y)
    let (c, g) := roundNE t v
    (c, orFlags f g)
  (leBytes a.length (joinBits (typeBits t) (l.map (·.1))), orAll (l.map (·.2)))

/-- The key of the ring of the next member, where that member is a port of this module: the same index, job and size. -/
def State.nextRing (s : State) (k : Nat) : Option Nat :=
  let r := s.ringAt k
  (s.pkg.rings.find? fun (i, x) =>
    i != k && i % 256 == k % 256 && x.size == r.size && x.job == r.job && x.rank == (r.rank + 1) % r.size).map (·.1)

/-- The member before this one is a port of this module. -/
def State.hasPrev (s : State) (k : Nat) : Bool :=
  let r := s.ringAt k
  s.pkg.rings.any fun (i, x) =>
    i != k && i % 256 == k % 256 && x.size == r.size && x.job == r.job && (x.rank + 1) % x.size == r.rank

/-- The parts of a chunk that messages carry, at most 256 bytes each: offset and bytes (R99, R100; log 12). -/
def chunkParts (data : List Byte) : List (Nat × List Byte) :=
  (List.range (max 1 (ceilDiv data.length 256))).map fun m => (256 * m, (data.drop (256 * m)).take 256)

/-- A part put behind those of its chunk that have come. -/
def joinChunk : Option Payload → Payload → Payload
  | some (.chunk _ _ _ _ _ _ _ _ before), .chunk ring seq command result b i off len data =>
    .chunk ring seq command result b i off len (if off = 0 then data else before ++ data)
  | _, p => p

/-- A chunk sent to the next member; to a member on another device it leaves the module. -/
def State.sendChunk (s : State) (k : Nat) (j : EngineJob) (result : Bool) (b i : Nat) (data : List Byte) : State :=
  match s.nextRing k with
  | none => s
  | some n =>
    (chunkParts data).foldl (fun t (off, l) =>
      t.post { dst := fabricPort (n / 256), src := fabricPort (k / 256), op := 0x74, bc := l.length - 1
               pay := .chunk (k % 256) (s.ringAt k).count j.command result b i off data.length l }) s

/-! ### The sequencer's run -/

/-- The chunks that a member sends of itself: all of them at rank 0 of a reduction, and otherwise the blocks it is the origin of. -/
def EngineJob.ownChunks (j : EngineJob) (r : Ring) : List (Nat × Nat) :=
  if j.reduces then (if r.rank = 0 then j.allChunks r else []) else (j.allChunks r).filter fun c => j.origin r c.1 == r.rank

/-- One such chunk (R384): rank 0 starts a reduction; an origin writes its block to its own destination as well. -/
def State.startChunk (s : State) (k : Nat) (j : EngineJob) (c : Nat × Nat) : Got State :=
  (s.ownChunk j c.1 c.2).bind fun (s, d) =>
    if j.reduces then .ok (s.sendChunk k j false c.1 c.2 d)
    else (s.writeChunk j (s.ringAt k) c.1 c.2 d).bind fun t => .ok (t.sendChunk k j true c.1 c.2 d)

/-- What a member sends of itself in turn: its own chunks, and before those of a broadcast the empty one. -/
def EngineJob.ownParts (j : EngineJob) (r : Ring) : List (Option (Nat × Nat)) :=
  (if j.broadcasts && collRoot j.f == r.rank then [none] else []) ++ (j.ownChunks r).map some

/-- The sequencer's send queue has room for the messages of a chunk (R111), where they go to a port of this module. -/
def State.chunkRoom (s : State) (k : Nat) (j : EngineJob) : Bool :=
  (s.nextRing k).isNone || s.engineRoom (fabricPort (k / 256)) (max 1 (ceilDiv (min j.collN j.chunkElems * collBytes j.f) 256))

/-- A broadcast's empty chunk has come: the root sends its elements from now on, another member passes the chunk on (R385). -/
def State.takeToken (s : State) (k : Nat) (j : EngineJob) : State :=
  if collRoot j.f = (s.ringAt k).rank then s else s.sendChunk k j false 0 0 []

/-- A chunk taken in: a partial is added to and passed on, or becomes the result at the last rank; a result is written,
and forwarded until it has reached the member before its origin (R384). The job keeps what is written, and the flags. -/
def State.takeChunk (s : State) (k : Nat) (j : EngineJob) (result : Bool) (b i : Nat) (data : List Byte) : Got (State × EngineJob) :=
  let r := s.ringAt k
  let finish (s : State) (d : List Byte) (fl : Nat) : Got (State × EngineJob) :=
    (s.writeChunk j r b i d).bind fun t =>
      .ok (if (r.rank + 1) % r.size = j.origin r b then t else t.sendChunk k j true b i d,
        { j with wrote := j.wrote ++ [(b, i)], flags := orFlags j.flags fl, outstanding := j.outstanding - 1 })
  if result then finish s data 0
  else
    (s.ownChunk j b i).bind fun (s, own) =>
      let (d, fl) := addChunks_ j.f.t.toNat data own
      if r.rank + 1 = r.size then finish s d fl
      else .ok (s.sendChunk k j false b i d, { j with flags := orFlags j.flags fl, outstanding := j.outstanding - 1 })

/-- The fields of a command that begins. -/
def EngineJob.begun (j : EngineJob) (r : Ring) : EngineJob := { j with stage := 1, outstanding := (j.arrivals r).length }

/-- What a sequencer's step leaves of its job. -/
def State.ringStep (t : State) (k : Nat) (j : EngineJob) : State := t.setRun k (some { j with done := j.unitsDone (t.ringAt k) })

/-- A step that does not succeed: the job waits, or has met a fault. -/
def State.ringEnd {α : Type} (s : State) (k : Nat) (j : EngineJob) (g : Got α) : State :=
  match g with
  | .wait h => s.holds h
  | g => let (u, f) := g.fault s; u.ringStep k (j.fail f)

/-- The members of a ring that are ports of this module: the same index, job and size. -/
def State.ringGroup (s : State) (k : Nat) : List Nat :=
  let r := s.ringAt k
  (s.pkg.rings.filter fun (i, x) => i % 256 == k % 256 && x.size == r.size && x.job == r.job).map (·.1)

/-- The command that runs on a ring ends with a fault (R385). -/
def State.failRing (s : State) (k : Nat) (fault : Nat × Word) : State :=
  match s.ringRun k with
  | some j => s.setRun k (some { j with fault := j.fault.or (some fault) })
  | none => s

/-- The members disagree on a collective (R385): it ends with illegal operand on every member, also on one that has not come to
it yet, or that has stopped in it. -/
def State.oddRing (s : State) (k : Nat) : State :=
  let n := (s.ringAt k).count
  (s.ringGroup k).foldl (fun t i =>
    let r := t.ringAt i
    if r.count < n || (r.count == n && r.held) then t.setRing i { r with odd := some n }
    else if r.count == n then t.failRing i (0x02, 0)
    else t) s

/-- The queued command that a sequencer begins next: the first whose ring no stopped command holds, or that is the stopped
command itself (log 21). -/
def State.nextCommand (s : State) (port : Nat) : Option EngineJob :=
  (s.sequencer port).queue.find? fun j => j.stage == 1 || !(s.ringAt j.ring).held

/-- The chunks of a sequencer are taken up where they were (R371, R430), or the command's own part of the traffic begins. -/
def State.ringStart (s : State) (j : EngineJob) : State :=
  let k := j.ring
  let r := s.ringAt k
  if j.stage = 1 then
    (s.setRing k { r with held := false, chunks := j.kept ++ r.chunks }).setRun k (some { j with kept := [] })
  else
    (s.setRing k { r with count := r.count + 1 }).setRun k (some (j.begun r))

/-- The next part of a command's own share of the traffic is sent (R384): a broadcast's elements follow its empty chunk when that
has come back. -/
def State.ringSend : Nat → State → Nat → State
  | 0, s, _ => s
  | n + 1, s, k =>
    let r := s.ringAt k
    match s.ringRun k with
    | none => s
    | some j =>
      if j.fault.isSome || !s.chunkRoom k j then s
      else
        match (j.ownParts r)[j.sent]? with
        | none => s
        | some none => State.ringSend n ((s.sendChunk k j false 0 0 []).ringStep k { j with sent := j.sent + 1 }) k
        | some (some c) =>
          if j.broadcasts && j.outstanding != 0 then s
          else
            match s.startChunk k j c with
            | .ok t =>
              State.ringSend n (t.ringStep k { j with sent := j.sent + 1, wrote := if j.reduces then j.wrote else j.wrote ++ [c] }) k
            | g => s.ringEnd k j g

/-- A command that has begun on a ring which a member has left, or on a collective on which the members disagree, ends (R385). -/
def State.ringDoom (s : State) (k : Nat) : State :=
  let r := s.ringAt k
  if r.lost then let (a, t) := s.freeNat 8; t.failRing k (0x10, word a)
  else if r.odd == some r.count then s.failRing k (0x02, 0)
  else s

/-- A sequencer that is free begins its next command (log 21). -/
def State.ringAdvance (s : State) (port : Nat) : State :=
  match (s.sequencer port).run, s.nextCommand port with
  | none, some j =>
    let q := s.sequencer port
    let t := (s.setSequencer port { q with queue := dropFirst (·.same j) q.queue }).ringStart j
    t.ringDoom j.ring
  | _, _ => s

/-- The first waiting chunk is taken in by the running command, when it is of its collective; what an earlier one has left over
is dropped. Members that disagree end with illegal operand (R385). -/
def State.ringTake (s : State) (k : Nat) : State :=
  let r := s.ringAt k
  match s.ringRun k, r.chunks with
  | some j, .chunk _ seq command result b i _ _ data :: rest =>
    let t := s.setRing k { r with chunks := rest }
    if seq < r.count then t
    else if j.fault.isSome || r.count < seq || !s.chunkRoom k j then s
    else if command ≠ j.command then t.oddRing k
    else if j.broadcasts && !result then
      (t.takeToken k j).ringStep k { j with outstanding := j.outstanding - 1 }
    else
      match t.takeChunk k j result b i data with
      | .ok (u, l) => u.ringStep k l
      | .wait h => s.holds h
      | g => t.ringEnd k j g
  | _, _ => s

/-- The chunk is of a ring's present collective. -/
def chunkOf (r : Ring) : Payload → Bool
  | .chunk _ seq _ _ _ _ _ _ _ => seq == r.count
  | _ => false

/-- The bytes of a chunk that an outside neighbour sends: free values (log 9, log 21). -/
def State.outsideChunk (s : State) (k : Nat) : Option (State × Payload) :=
  match s.ringRun k with
  | none => none
  | some j =>
    let r := s.ringAt k
    let l := j.arrivals r
    let here := r.chunks.countP (chunkOf r)
    match l[l.length - j.outstanding + here]? with
    | none => none
    | some (result, b, i) =>
      let n := if j.broadcasts && !result then 0 else j.chunkLen i * collBytes j.f
      let bytes := (List.range n).map fun x => Config.freeByte (s.free + x)
      some ({ s with free := s.free + n }, .chunk (k % 256) r.count j.command result b i 0 n bytes)

end Sys2Proof.Machine
end

