-- ==== Sys2Proof/Machine/Complete.lean ====
section
/-! DEFINITION. Sys2Proof/Machine/Complete.lean: completion counters and a thread's leaving its slot (R125, R170, R175, R176, R279, R308, R325). -/

namespace Sys2Proof.Machine

/-- The die of a counter handle (R320). -/
def counterDie (h : Nat) : Nat := bits h 23 20

def State.counterAt (s : State) (h : Nat) : Counter := look {} s.counters h
def State.setCounter (s : State) (h : Nat) (c : Counter) : State := { s with counters := put s.counters h c }

/-- A signal of a named event sent by a scheduler: no reply is wanted (R175, R315). -/
def State.signalFrom (s : State) (die name : Nat) : State :=
  s.post { dst := dieScheduler (name / 4096), src := dieScheduler die, op := 0xC1, pay := .event .sig name }

/-- What a completion raises: a named event, an interrupt to the control die, or both (R175). -/
def State.raise (s : State) (h : Nat) (event : Option Nat) (interrupt : Bool) : State :=
  let t := match event with
    | some name => s.signalFrom (counterDie h) name
    | none => s
  if interrupt then { t with pkg := { t.pkg with interrupts := t.pkg.interrupts + 1 } } else t

/-- The slots of a job's cores that stand Stalled, for a level task among others, try again (R181, R392). -/
def State.wakeJob (s : State) (job : Nat) : State :=
  s.cores.foldl (fun t (k, x) => if x.owner = some job then t.wakeRoom (BitVec.ofNat 16 k) else t) s

/-- The counter has completed: its last child has, or CPLSIG has closed it (R175, R325). -/
def Counter.over (c : Counter) : Bool := c.closed || c.count == 0

/-- One child of a counter completes; at zero the counter completes and its own parent is told (R175). A decrement
below zero is ignored and makes an error record (R325), and one of a counter that CPLSIG closed is ignored (R188). `fuel`
bounds the depth of the tree: team, band, task and job. -/
def State.decrement : Nat → State → Nat → State
  | 0, s, _ => s
  | fuel + 1, s, h =>
    let c := s.counterAt h
    if c.closed then s
    else if c.count = 0 then s.report (dieScheduler (counterDie h)) (errorRecord 0x0C (dieScheduler (counterDie h)) s.ts)
    else
      let t := s.setCounter h { c with count := c.count - 1 }
      if c.count = 1 then
        let u := (t.raise h c.event c.interrupt).wakeJob c.job
        match c.parent with
        | some p => State.decrement fuel u p
        | none => u
      else t

/-- A task is completed at once: its counter is closed and its parent told (R325). -/
def State.completeTask (s : State) (h : Nat) : State :=
  let c := s.counterAt h
  if c.over then s
  else
    let t := ((s.setCounter h { c with count := 0, closed := true }).raise h c.event c.interrupt).wakeJob c.job
    match c.parent with
    | some p => State.decrement 2 t p
    | none => t

/-- The cores of the follower slots that a thread reserves (R170). -/
def followersOf (c : Coord) (x : Slot) : List Coord :=
  ((List.range (x.gang.reserved - 1)).map fun i => gangMember c (i + 1)).filter (· != c)

/-- The follower slots that the thread in a slot reserves become free, or, with `held`, stay reserved for it and give up their
frames (R170, R188). -/
def State.leaveFollowers (s : State) (c : Coord) (i : Nat) (l : List Coord) (held : Bool) : State :=
  l.foldl (fun u m => u.setSlot m i { gen := (u.slotAt m i).gen, gang := { leader := if held then some c else none } }) s

/-- A slot becomes Empty: its generation advances, its frame is free, and a gang's reservation of follower slots ends unless it
is held (R125, R161, R170, R279). -/
def State.vacate (s : State) (c : Coord) (i : Nat) (held : Bool := false) : State :=
  let x := s.slotAt c i
  (s.leaveFollowers c i (followersOf c x) held).setSlot c i { gen := x.gen + 1 }

/-- The reservation of the follower slots that a saved leader still holds ends (R170). -/
def State.releaseFollowers (s : State) (x : SavedThread) : State :=
  s.leaveFollowers x.core x.idx ((followersOf x.core x.slot).filter fun m => (s.slotAt m x.idx).gang.leader == some x.core) false

/-- No register of the issuing thread's frame is leased (R279). -/
def State.unleased (s : State) : Bool :=
  !s.cr.eng.jobs.any fun j => j.slot == s.slot && j.gen == s.sl.gen && !j.leasedV.isEmpty

/-- RETIRE (R279): the unlanded results are discarded and the gang with its reservation ends; the thread is stalled while a
register of its frame is leased; then the slot is Empty and the thread's completion counts. -/
def State.endThread (s : State) : Ret :=
  if s.inHandler then .trap s 0x02 0
  else
    let t := (s.leaveFollowers s.core s.slot (followersOf s.core s.sl) false).modSl fun x => { x with haz := [], gang := {} }
    if !t.unleased then .stay (t.awaiting .stalled .room)
    else .gone (State.decrement 5 (t.vacate t.core t.slot) (t.sl.mem.team.getD t.sl.mem.ctr))

end Sys2Proof.Machine
end

