-- ==== Sys2Proof/Machine/Context.lean ====
section
/-! DEFINITION. Sys2Proof/Machine/Context.lean: the context image, CTXSAVE and CTXLOAD, and the save of a unit at its safe points (R280, R397, R427-R434). -/

namespace Sys2Proof.Machine

/-! ### The image, as doublewords (R431, R432) -/

/-- GS of a gang size. -/
def gangCode (n : Nat) : Nat := match n with | 2 => 1 | 4 => 2 | 8 => 3 | _ => 0

/-- Doublewords of a capability: address, then upper half. -/
def capDwords (c : Cap) : List Nat := [c.addr.toNat, c.hi.toNat]

/-- A trap state (R420). -/
def trapDwords (x : TrapState) : List Nat :=
  [x.hi.toNat, b2n x.priv + at_ 1 (b2n x.inUser) + at_ 8 (bits x.ecause.toNat 8 0), x.epc.toNat, x.eaddr.toNat]

/-- The members' parts of a v value, 64G bytes. -/
def vecDwords (g : Nat) (l : List VReg) : List Nat := (List.range g).flatMap fun i => splitBits 64 8 (nth 0 l i).toNat

/-- A k value, 16 bytes. -/
def predDwords (l : List (BitVec 16)) : List Nat := splitBits 64 2 (joinBits 16 (l.map (·.toNat)))

/-- The hazard entry of a producer (R432). DESIGN CHOICE (log 29): the records of a thread whose gang has disbanded are those of
its own lanes, also where a producer was issued by the whole gang; the followers' lanes of it are not kept. -/
def hazardDwords (g level seq : Nat) (p : Producer) : List Nat :=
  let v (i : Nat) : Nat := (nth (0, []) p.vs i).1
  let k := (nth (0, []) p.ks 0).1
  let gd := (nth (0, {}) p.gs 0).1
  [at_ 62 level + at_ 58 (p.rem % 16) + at_ 57 (b2n p.pk) + at_ 50 (seq % 32) + at_ 45 (v 0) + at_ 44 (b2n (0 < p.vs.length)) +
      at_ 39 (v 1) + at_ 38 (b2n (1 < p.vs.length)) + at_ 33 gd + at_ 32 (b2n (0 < p.gs.length)) + at_ 29 (k % 8) +
      at_ 28 (b2n (0 < p.ks.length)), 0] ++
    (p.vs.take 2).flatMap (fun (_, l) => vecDwords g l) ++ (p.gs.take 1).flatMap (fun (_, c) => [c.addr.toNat, 0]) ++
    (p.ks.take 1).flatMap fun (_, l) => predDwords l

/-- The entries of one level, oldest first. -/
def hazardLevel (g level : Nat) (l : List Producer) : List Nat :=
  l.zipIdx.flatMap fun (p, i) => hazardDwords g level i p

/-- What an image records (R431): KIND, HOME of a bound one, the live masks, the thread's slot and its lanes, member 0 first, its
job and EVEC, and the pigeonhole and engine blocks (R433). -/
structure ImageOf where
  kind : Nat := 0
  bound : Bool := false
  home : Coord := 0
  gmask : BitVec 32 := BitVec.allOnes 32
  vmask : BitVec 32 := BitVec.allOnes 32
  slot : Slot
  lanes : List Slot
  job : Nat
  evec : Word
  blocks : List Nat := [0, 0, 0, 0]

/-- THE IMAGE (R431, R432): registers outside the live masks are zero, and a wayfarer has no v, k or b registers. -/
def ImageOf.words (m : ImageOf) : List Nat :=
  let x := m.slot
  let g := x.gang.size
  let caps := (List.range 32).map fun r => if m.gmask.getLsbD r then look {} x.g r else {}
  let hazards := hazardLevel g 0 x.haz ++ hazardLevel g 1 x.trapUser.haz ++ hazardLevel g 2 x.trapSystem.haz
  let pred (r : Nat) : Nat := if r = 0 then 2 ^ (16 * g) - 1 else joinBits 16 (m.lanes.map fun y => (look 0 y.k r).toNat)
  let preds := if x.wayfarer then List.replicate 16 0 else (List.range 8).flatMap fun r => splitBits 64 2 (pred r)
  let views := if x.wayfarer then List.replicate 40 0 else (List.range 4).flatMap fun r => splitBits 64 10 (look 0 x.b r).toNat
  let vecs := (List.range x.quota).flatMap fun j =>
    m.lanes.flatMap fun y => splitBits 64 8 (if m.vmask.getLsbD j then (look 0 y.v j).toNat else 0)
  let size := 8 * (160 + vecs.length + 2 + hazards.length + m.blocks.length)
  let ctl := at_ 32 size + at_ 30 m.kind + at_ 29 (b2n m.bound) + at_ 28 (b2n x.priv) + at_ 27 (b2n x.inUser) +
    at_ 26 (b2n x.inSystem) + at_ 24 x.pri + at_ 22 (gangCode g) + at_ 21 (b2n x.wayfarer) + at_ 15 x.quota
  let count := x.haz.length + x.trapUser.haz.length + x.trapSystem.haz.length
  let first := [ctl, m.job % 2 ^ 32 + at_ 32 m.home.toNat, at_ 32 m.gmask.toNat + m.vmask.toNat, x.mirmask.toNat, x.sys.epc.toNat,
    x.sys.ecause.toNat, x.sys.eaddr.toNat, m.evec.toNat, x.sys.fpctl.toNat, x.sys.fpstat.toNat, x.sys.amx.toNat,
    bits x.sys.sigdepth.toNat 3 0 + at_ 8 (bits x.sys.sigdim.toNat 3 0), x.pc.addr.toNat, x.pc.hi.toNat,
    joinBits 1 (caps.map fun c => b2n c.tag)]
  let rest := trapDwords x.trapUser ++ trapDwords x.trapSystem ++ List.replicate 8 0 ++ caps.flatMap capDwords ++ preds ++
    views ++ List.replicate 8 0 ++ vecs ++ [count, 0] ++ hazards ++ m.blocks
  first ++ [xorAll (first ++ rest)] ++ rest

/-- The image of the issuing thread as CTXSAVE writes it: KIND 0, empty pigeonhole and engine blocks, gd as 1, the PC and
the windows as they stand after the CTXSAVE (R397, R431, R434). -/
def imageDwords (t : State) (d : GReg) : List Nat :=
  let x := t.sl
  let after := { x with
    g := put x.g d.toNat (Cap.ofWord 1), pc := { x.pc with addr := x.pc.addr + 4 }
    haz := x.haz.map fun p => { p with rem := p.rem - 1 } }
  { slot := after, lanes := t.members.map fun c => t.slotAt c t.slot, job := t.jobNo, evec := t.evec : ImageOf }.words

/-- Doublewords as bytes in memory. -/
def dwordBytes (l : List Nat) : List Byte := l.flatMap (leBytes 8)

/-! ### Reading an image (R434) -/

/-- What stands at a place of the image. -/
structure Image where
  d : List Nat
deriving DecidableEq, Repr

def Image.at (m : Image) (i : Nat) : Nat := nth 0 m.d i
def Image.field (m : Image) (i hi lo : Nat) : Nat := bits (m.at i) hi lo

/-- A trap state read back; its hazard state follows with the hazard block. -/
def Image.trapState (m : Image) (i : Nat) : TrapState :=
  { hi := word (m.at i), priv := bit (m.at (i + 1)) 0, inUser := bit (m.at (i + 1)) 1, ecause := word (m.field (i + 1) 16 8)
    epc := word (m.at (i + 2)), eaddr := word (m.at (i + 3)) }

/-- A v value read back. -/
def Image.vec (m : Image) (i g : Nat) : List VReg :=
  (List.range g).map fun j => BitVec.ofNat 512 (joinBits 64 ((List.range 8).map fun k => m.at (i + 8 * j + k)))

/-- A k value read back. -/
def Image.preds (m : Image) (i g : Nat) : List (BitVec 16) := predParts g (m.at i + at_ 64 (m.at (i + 1)))

/-- One hazard entry at a place: level, producer, and the place after it. -/
def Image.hazard (m : Image) (i g : Nat) : Nat × Producer × Nat :=
  let d := m.at i
  let a := i + 2
  let (vs, a) := if bit d 44 then ([(bits d 49 45, m.vec a g)], a + 8 * g) else ([], a)
  let (vs, a) := if bit d 38 then (vs ++ [(bits d 43 39, m.vec a g)], a + 8 * g) else (vs, a)
  let (gs, a) := if bit d 32 then ([(bits d 37 33, Cap.ofWord (word (m.at a)))], a + 2) else ([], a)
  let (ks, a) := if bit d 28 then ([(bits d 31 29, m.preds a g)], a + 2) else ([], a)
  (bits d 63 62, { rem := bits d 61 58, pk := bit d 57, vs, gs, ks }, a)

/-- The hazard entries from a place on: level, SEQ and producer; with the place after them. -/
def Image.hazards (m : Image) (g : Nat) : Nat → Nat → List (Nat × Nat × Producer) × Nat
  | 0, i => ([], i)
  | n + 1, i =>
    let (lvl, p, j) := m.hazard i g
    let (l, e) := m.hazards g n j
    ((lvl, m.field i 54 50, p) :: l, e)

/-- The producers of a level in the order of their ages (R432). -/
def Image.level (m : Image) (g : Nat) (lvl : Nat) : List Producer :=
  let h := 160 + 8 * g * m.field 0 20 15
  let l := (m.hazards g (m.at h) (h + 2)).1.filter fun e => e.1 == lvl
  (l.mergeSort fun a b => a.2.1 ≤ b.2.1).map fun e => e.2.2

/-- The reserved fields of the fixed part are zero, those of the system registers in it as R231 lays them out (R8, R431). -/
def Image.reservedZero (m : Image) (g : Nat) : Bool :=
  m.field 5 63 9 == 0 && m.field 8 63 2 == 0 && m.field 9 63 6 == 0 && m.field 10 63 33 == 0 &&
  m.field 0 14 0 == 0 && m.field 1 63 48 == 0 && m.field 3 63 32 == 0 && m.field 11 63 12 == 0 && m.field 11 7 4 == 0 &&
  m.field 14 63 32 == 0 && m.field 17 63 17 == 0 && m.field 17 7 2 == 0 && m.field 21 63 17 == 0 && m.field 21 7 2 == 0 &&
  (List.range 8).all (fun i => m.at (24 + i) == 0 && m.at (152 + i) == 0) &&
  (List.range 8).all (fun i => (m.at (96 + 2 * i) + at_ 64 (m.at (97 + 2 * i))) / 2 ^ (16 * g) == 0) &&
  (List.range 4).all fun i => m.at (112 + 10 * i + 9) == 0

/-- The reserved fields of the hazard entries are zero, and LVL is 0 to 2 (R432; a level beyond them is refused, log 29). -/
def Image.hazardsZero (m : Image) (g : Nat) : Nat → Nat → Bool
  | 0, _ => true
  | n + 1, i =>
    let (lvl, _, j) := m.hazard i g
    lvl != 3 && m.field i 56 55 == 0 && m.field i 27 0 == 0 && m.at (i + 1) == 0 && m.hazardsZero g n j

/-- The reserved fields of the records of parked commands, from a place on (R433): 18 doublewords and the replay bytes. -/
def Image.recordsZero (m : Image) : Nat → Nat → Bool
  | 0, _ => true
  | n + 1, i =>
    m.field (i + 1) 63 16 == 0 && m.field (i + 2) 47 32 == 0 && m.field (i + 3) 39 32 == 0 &&
      m.recordsZero n (i + 18 + 2 * ceilDiv (m.field (i + 2) 31 0) 16)

/-- The reserved fields of `n` pigeonhole entries from a place on are zero (R124). -/
def Image.entriesZero (m : Image) (n i : Nat) : Bool :=
  (List.range n).all fun e => m.field (i + 8 * e + 7) 39 33 == 0 && m.field (i + 8 * e + 4) 32 0 == 0

/-- The checks of R434 against the issuing thread. -/
def Image.good (m : Image) (t : State) (size : Nat) : Bool :=
  let x := t.sl
  let g := x.gang.size
  let h := 160 + 8 * g * x.quota
  let count := m.at h
  let after := (m.hazards g count (h + 2)).2
  m.field 0 31 30 == 0 && m.field 0 63 32 == size && xorAll m.d == 0 && m.field 1 31 0 == t.jobNo % 2 ^ 32 &&
  m.field 0 20 15 == x.quota && m.field 0 21 21 == b2n x.wayfarer && m.field 0 23 22 == gangCode g &&
  m.reservedZero g && count ≤ 69 && m.at (h + 1) == 0 && m.hazardsZero g count (h + 2) &&
  let engines := after + 2 + 8 * m.at after
  m.at after ≤ 64 && m.at (after + 1) == 0 && m.entriesZero (m.at after) (after + 2) &&
    m.at engines ≤ 48 && m.at (engines + 1) == 0 && m.recordsZero (m.at engines) (engines + 2)

/-- The slot an image gives back (R430, R431); registers outside the live masks read zero with tag 0. DESIGN CHOICE (log 29): the
tags of the g registers are those of the image, with no check that what they restore is a capability of R29 to R35, and a SIGDEPTH
or SIGDIM outside 1 to 8 is taken as it stands. No PC has bit 0 set (R212). -/
def Image.restore (m : Image) (x : Slot) : Slot :=
  let g := x.gang.size
  let cap (r : Nat) : Cap := { tag := bit (m.at 14) r, hi := word (m.at (33 + 2 * r)), addr := word (m.at (32 + 2 * r)) }
  { x with
    st := .ready, await := .none, pend := none, keep := [], noMigrate := false
    pc := { x.pc with hi := word (m.at 13), addr := word (m.at 12 / 2 * 2), tag := true }
    g := (List.range 32).map fun r => (r, if bit (m.at 2) (32 + r) then cap r else {})
    b := (List.range 4).map fun r =>
      (r, BitVec.ofNat 576 (joinBits 64 ((List.range 9).map fun i => m.at (112 + 10 * r + i))))
    mirmask := BitVec.ofNat 32 (m.at 3)
    priv := bit (m.at 0) 28, inUser := bit (m.at 0) 27, inSystem := bit (m.at 0) 26, pri := m.field 0 25 24
    sys := { fpctl := word (m.at 8), fpstat := word (m.at 9), amx := word (m.at 10), sigdepth := word (m.field 11 3 0)
             sigdim := word (m.field 11 11 8), epc := word (m.at 4), ecause := word (m.at 5), eaddr := word (m.at 6)
             evec := cleanEvec (word (m.at 7)) }
    trapUser := { m.trapState 16 with haz := m.level g 1 }
    trapSystem := { m.trapState 20 with haz := m.level g 2 }
    haz := m.level g 0 }

/-- The context replaced, with the lanes of every member (R397). -/
def Image.load (m : Image) (t : State) : State :=
  let x := t.sl
  let g := x.gang.size
  let u := t.setSl (m.restore x)
  if x.wayfarer then u
  else
    let u := (List.range x.quota).foldl (fun u j =>
      u.setVec j (if bit (m.at 2) j then m.vec (160 + 8 * g * j) g else List.replicate g 0)) u
    (List.range 7).foldl (fun u i => u.setPred (i + 1) (m.preds (96 + 2 * (i + 1)) g)) u

/-! ### CTXSAVE and CTXLOAD (R397) -/

/-- The capability lacks SY (R30, R397). -/
def lacksSystem (c : Cap) : Bool := c.tag && !c.isSystem

/-- CTXSAVE (R397): the image is stored once no register of the frame is leased. -/
def execCtxsave (d a : GReg) (s : State) : Answer :=
  issue s 4 { usesG [d] [a] with sysOnly := true } fun t =>
    if !t.unleased then .stay (t.awaiting .stalled .room)
    else if lacksSystem (t.g a) then .trap t 0x07 (t.ga a)
    else
      let l := dwordBytes (imageDwords t d)
      t.access 4 (t.g a) { s := true, align := 16 } (.store l (List.replicate l.length 0xFF)) (.saved d)
        (partsOf t.core (t.ga a).toNat l.length 0)

/-- What the reads of an image need. -/
def imageNeed : Need := { l := true, align := 16 }

/-- The image as read: it replaces the context, or raises illegal operand and changes nothing (R434). -/
def loadImage (t : State) (l : List Byte) : Ret :=
  let m : Image := { d := (List.range (l.length / 8)).map fun i => leNat ((l.drop (8 * i)).take 8) }
  if m.good t l.length then .gone (m.load t) else .trap t 0x02 0

/-- The image after the replies of a read (R104). -/
def concludeImage (n : Nat) (t : State) (p : Pending) : Ret :=
  match p.fault with
  | some (_, cause, addr) => .trap t cause addr
  | none => loadImage t ((List.range n).map fun i => look 0 p.buf i)

/-- The first doubleword gives the size; a size beyond the bounds raises illegal operand (R434). -/
def concludeHead (a : GReg) (t : State) (p : Pending) : Ret :=
  match p.fault with
  | some (_, cause, addr) => .trap t cause addr
  | none =>
    let n := bufNat p.buf 4 4
    if n % 16 ≠ 0 ∨ n < 0x530 ∨ (t.g a).bounds.2 < (t.ga a).toNat + n then .trap t 0x02 0
    else
      t.access 4 (t.g a) imageNeed .load (.image n) (partsOf t.core (t.ga a).toNat n 0) .stalled .none (concludeImage n)

/-- CTXLOAD writes every register of its thread (R220, R223, R397). -/
def ctxloadUses (x : Slot) (a : GReg) : Uses :=
  if x.wayfarer then { gr := [a.toNat], gw := List.range 16, sysOnly := true }
  else
    { gr := [a.toNat], gw := List.range 32, vw := [(0, x.quota)], kw := (List.range 7).map (· + 1), sysOnly := true }

/-- CTXLOAD (R397): it writes every register, so that one inside an open window is refused, and one over a leased register (R220,
R223). -/
def execCtxload (a : GReg) (s : State) : Answer :=
  issue s 4 (ctxloadUses s.sl a) fun t =>
    if lacksSystem (t.g a) then .trap t 0x07 (t.ga a)
    else
      t.access 4 (t.g a) imageNeed .load (.imageHead a) (partsOf t.core (t.ga a).toNat 16 0) .stalled .none (concludeHead a)

/-! ### Saving a unit (R427-R429) -/

/-- The slots that hold the threads of a unit. -/
def State.unitSlots (s : State) (die job unit : Nat) : List (Coord × Nat) :=
  s.cores.flatMap fun (k, x) =>
    let c : Coord := BitVec.ofNat 16 k
    if c.die ≠ die then []
    else ((List.range (slotCount c)).filter fun i =>
      let y := x.slotAt i
      i != 0 && y.st != .empty && y.mem.job == job && y.mem.unit == unit).map fun i => (c, i)

/-- The thread stands where it can be saved: at its safe point, Waiting, or stopped beyond its budget (R427). -/
def savePlace (x : Slot) : Bool :=
  x.st == .waiting || match x.await with | .safePoint _ _ => true | .forced => true | _ => false

/-- An engine job of the thread in slot `i`. -/
def EngineJob.ofThread (j : EngineJob) (i : Nat) (gen : BitVec 10) : Bool := j.slot == i && j.gen == gen

/-- Every engine job of a thread is settled (R428). -/
def Core.settled (x : Core) (i : Nat) : Bool :=
  x.eng.jobs.all fun j => !j.ofThread i (x.slotAt i).gen || j.told

/-- A pigeonhole entry that carries the thread's SLOT and GEN (R124). -/
def entryOf (i : Nat) (gen : BitVec 10) (e : Entry) : Bool := bits e.toNat 303 299 == i && bits e.toNat 298 289 == gen.toNat

/-- A wayfarer's image is its context of R165 and nothing more (R430). -/
def bareWayfarer (x : Slot) : Slot :=
  if x.wayfarer then
    { x with g := x.g.filter fun (r, _) => r < 16
             v := [], k := [], b := [], sys := {}, inUser := false, inSystem := false, trapUser := {}, trapSystem := {}, haz := [] }
  else x

/-- The slot as an image holds it: outside the live masks registers read zero (R280, R430). -/
def imageSlot (x : Slot) (gm vm : BitVec 32) : Slot :=
  { bareWayfarer x with
    g := (bareWayfarer x).g.filter fun (r, _) => gm.getLsbD r
    v := (bareWayfarer x).v.filter fun (r, _) => vm.getLsbD r
    keep := [], frame := none, mark := none
    await := match x.await with | .safePoint _ _ => .none | .forced => .none | w => w
    st := if x.st == .waiting then .waiting else .ready
    -- a thread saved at its safe point goes on after it
    pc := match x.await with | .safePoint _ _ => { x.pc with addr := x.pc.addr + 10 } | _ => x.pc }

/-- The live masks of a save. -/
def liveMasks (x : Slot) : BitVec 32 × BitVec 32 :=
  match x.await with | .safePoint gm vm => (gm, vm) | _ => (BitVec.allOnes 32, BitVec.allOnes 32)

/-- The entries and parked commands that leave the core with a thread (R428). -/
def Core.withoutThread (x : Core) (i : Nat) : Core :=
  let gen := (x.slotAt i).gen
  { x with
    msg := { x.msg with
      pigeonhole := x.msg.pigeonhole.filter fun e => !entryOf i gen e
      held := x.msg.held.filter fun e => !entryOf i gen e }
    eng := { x.eng with jobs := x.eng.jobs.filter fun j => !j.ofThread i gen } }

/-- The results of a wayfarer land before its context is taken, as at a migration (R165, R221). -/
def State.landWayfarer (s : State) (c : Coord) (i : Nat) : State :=
  let y := s.slotAt c i
  if y.wayfarer then
    let t := ({ s with core := c, slot := i } : State).landAll y.haz
    { t with core := s.core, slot := s.slot }
  else s

/-- One thread saved: its image and the state without it. A gang's reservation of follower slots holds (R188), and port entries
that an instruction to be made afresh has read go back. -/
def State.saveThread (s : State) (c : Coord) (i : Nat) : SavedThread × State :=
  let s := s.landWayfarer c i
  let x := s.coreAt c
  let y := x.slotAt i
  let (gm, vm) := liveMasks y
  let mine := (x.msg.pigeonhole ++ x.msg.held).filter (entryOf i y.gen)
  let saved : SavedThread :=
    { core := c, idx := i, slot := imageSlot y gm vm
      followers := (followersOf c y).map fun m => imageSlot (s.slotAt m i) gm vm
      entries := mine, parked := x.eng.jobs.filter fun j => j.ofThread i y.gen
      kind := match y.await with | .safePoint _ _ => 1 | _ => 2
      gmask := gm, vmask := vm }
  let given := match y.pend with | some p => p.taken | none => []
  (saved, ((s.modCore c fun z => z.withoutThread i).vacate c i true).returnEntries c given)

/-- A unit that resumes only after its wake: a thread of it awaits an event, a barrier phase or a port entry (R413). A BARWAIT
that was never sent has no answer to come, and executes afresh (R312). -/
def awaitsWake (x : SavedThread) : Bool :=
  x.slot.st == .waiting && match x.slot.await with
    | .event _ => true
    | .port _ => true
    | .barrier => x.slot.pend.any fun p => !p.pieces.isEmpty
    | _ => false

/-- A parked ring or stair command keeps its replay state in its engine, which binds the image to its die (R429). -/
def keepsReplay (x : SavedThread) : Bool := x.parked.any fun j => j.kind == 3 || j.kind == 4

/-- A unit saved as a whole (R186, R427). -/
def State.saveUnit (s : State) (die job unit : Nat) : State :=
  let (l, t) := (s.unitSlots die job unit).foldl (fun (l, t) (c, i) =>
    let (x, u) := t.saveThread c i
    (l ++ [x], u)) ([], s)
  let d := t.dieAt die
  t.setDie die { d with saved := d.saved ++ [{ job, unit, threads := l, marked := !l.any awaitsWake
                                               bound := if l.any keepsReplay then some die else none }] }

/-- A DONE entry of the thread in slot `i` is still on its way or held (R428). -/
def State.doneOut (s : State) (c : Coord) (i : Nat) : Bool :=
  let mine := entryOf i (s.slotAt c i).gen
  (s.coreAt c).msg.held.any mine || s.net.any fun f => f.op == 0x73 && f.dst == c && match f.pay with
    | .entry e => mine e
    | _ => false

/-- A marked unit is saved when every thread of it stands at a safe point or Waiting and its engine jobs are settled
(R427, R428). -/
def State.trySave (s : State) (c : Coord) (i : Nat) : State :=
  let x := s.slotAt c i
  let l := s.unitSlots c.die x.mem.job x.mem.unit
  if x.mark.isSome && l.all fun (m, k) => savePlace (s.slotAt m k) && (s.coreAt m).settled k && !s.doneOut m k then
    s.saveUnit c.die x.mem.job x.mem.unit
  else s

/-- The ticks of TSNOW from `since` to `until`, each counted in sixteenths of the nominal clock that an island had in it; `l` holds
its steps, newest first (R452). -/
def clocked (since : Nat) : Nat → List (Nat × Nat) → Nat
  | until_, [] => 16 * (until_ - since)
  | until_, (t, n) :: r => (16 - n) * (until_ - max t since) + clocked since (min until_ (max t since)) r

/-- Cycles of a core have passed since a TSNOW: those of its island, whose clock is the nominal one of CORECFG less the steps by which
it has been slowed (R230, R452, log 19). -/
def State.elapsed (s : State) (c : Coord) (since cycles : Nat) : Bool :=
  let steps := (s.pkg.slowed.filter fun (i, _) => i == Config.islandOf c % 284).map (·.2)
  16000 * cycles ≤ clocked since s.ts.toNat steps * bits (coreConfig c).toNat 63 48

/-- A thread stops at its instruction boundary for a forced save: an instruction that waits is to be made afresh, and port entries
that it has read go back (R281, R427). -/
def State.stopThread (s : State) (c : Coord) (i : Nat) : State :=
  let given := match (s.slotAt c i).pend with | some p => p.taken | none => []
  (s.modSlot c i fun x => { x with st := .stalled, await := .forced, pend := none }).returnEntries c given

/-- A marked thread that has come to a boundary: it leaves when it waits, and stops when its budget of 20,000 cycles has run out
(R427). -/
def State.leaves (s : State) (c : Coord) (i : Nat) : State :=
  let x := s.slotAt c i
  match x.mark with
  | some since =>
    if x.st == .waiting then s.trySave c i
    else if x.st == .ready && s.elapsed c since 20000 then (s.stopThread c i).trySave c i
    else s
  | none => s

/-- SAFEPT (R280): as TSYNC, and then, when a pre-emption is pending, the thread stands at its safe point. -/
def execSafept (gm vm : BitVec 32) (s : State) : Answer :=
  let bad := s.sl.wayfarer && (vm != 0 || gm.toNat / 2 ^ 16 != 0)
  issue s 10 { sync := true, vr := if bad then [(0, 1)] else [] } fun t =>
    if t.sl.mark.isNone then .done t
    else .stay ((t.awaiting .stalled (.safePoint gm vm)).trySave t.core t.slot)

end Sys2Proof.Machine
end

