-- ==== Sys2Proof/Machine/Control.lean ====
section
/-! DEFINITION. Sys2Proof/Machine/Control.lean: transfers of control and the instructions by which a thread manages its own life (R272-R279, R213). SAFEPT stands with the saved images. -/

namespace Sys2Proof.Machine

/-! ### Transfers of control (R272-R274) -/

/-- A target with bit 0 of its address cleared (R212, R272). -/
def evenTarget (c : Cap) : Cap := { c with addr := word (c.addr.toNat / 2 * 2) }

/-- The check of a target capability, in the order of R272: the cause of the first that fails. -/
def targetFault (s : State) (c : Cap) : Option Nat :=
  if !c.tag then some 0x05
  else if c.isSealed || !c.canExecute then some 0x07
  else if s.sl.wayfarer && c.hi != s.job.code.hi then some 0x07
  else none

/-- A transfer of control to `c`, with `t` the state after the registers are written (R272). -/
def transfer (s : State) (c : Cap) (t : State) : Ret :=
  let target := evenTarget c
  match targetFault s target with
  | some cause => .trap s cause target.addr
  | none => .jump t target

/-- The target of a PC-relative transfer: PC + 2 × offset, moved as CADD moves it (R215, R273). -/
def relative (s : State) (off : Word) : Cap := s.sl.pc.move (s.sl.pc.addr + 2 * off)

/-- The link: the PC capability at PC + 4 (R273, R274). -/
def linkCap (s : State) : Cap := s.sl.pc.move (s.sl.pc.addr + 4)

/-- Sx(off17). -/
def sx17 (o : BitVec 17) : Word := o.signExtend 64

/-- BR (R273). -/
def execBr (o : BitVec 17) (s : State) : Answer :=
  issue s 4 {} fun t => transfer t (relative t (sx17 o)) t

/-- JAL (R273). -/
def execJal (d : GReg) (o : BitVec 17) (s : State) : Answer :=
  issue s 4 (usesG [d] []) fun t => transfer t (relative t (sx17 o)) (t.setG d (linkCap t))

/-- JALR (R274): the target is read before the link is written. -/
def execJalr (d a : GReg) (i : BitVec 12) (s : State) : Answer :=
  issue s 4 (usesG [d] [a]) fun t => transfer t ((t.g a).move (t.ga a + sx12 i)) (t.setG d (linkCap t))

/-- A conditional branch (R273): not taken, it checks nothing. -/
def branchIf (p : Word → Word → Bool) (d a : GReg) (i : BitVec 12) (s : State) : Answer :=
  issue s 4 (usesG [] [d, a]) fun t =>
    if p (t.ga d) (t.ga a) then transfer t (relative t (sx12 i)) t else .done t

/-- BCC.EQ (R273). -/
def execBccEq (d a : GReg) (i : BitVec 12) (s : State) : Answer := branchIf (fun x y => x == y) d a i s

/-- BCC.NE (R273). -/
def execBccNe (d a : GReg) (i : BitVec 12) (s : State) : Answer := branchIf (fun x y => x != y) d a i s

/-- BCC.LT (R273). -/
def execBccLt (d a : GReg) (i : BitVec 12) (s : State) : Answer := branchIf (fun x y => x.slt y) d a i s

/-- BCC.GE (R273). -/
def execBccGe (d a : GReg) (i : BitVec 12) (s : State) : Answer := branchIf (fun x y => !x.slt y) d a i s

/-- BCC.LTU (R273). -/
def execBccLtu (d a : GReg) (i : BitVec 12) (s : State) : Answer := branchIf (fun x y => x.ult y) d a i s

/-- BCC.GEU (R273). -/
def execBccGeu (d a : GReg) (i : BitVec 12) (s : State) : Answer := branchIf (fun x y => !x.ult y) d a i s

/-- A return through a register; through an all-zero register it retires the thread (R274). -/
def returnVia (len : Nat) (a : GReg) (s : State) : Answer :=
  issue s len (usesG [] [a]) fun t =>
    if t.g a = { tag := false, hi := 0, addr := 0 } then t.endThread else transfer t (t.g a) t

/-- RET (R274). -/
def execRet (a : GReg) (s : State) : Answer := returnVia 4 a s

/-- C.S RET: RET g0 (R213). -/
def execCRet (s : State) : Answer := returnVia 2 0 s

/-! ### Gangs (R170, R172, R275) -/

/-- The operand check of GANG (R170, R275). -/
def gangBad (i : BitVec 12) (t : State) : Bool :=
  let n := i.toNat
  t.inHandler || t.sl.wayfarer || !(n == 2 || n == 4 || n == 8) || t.sl.gang.reserved < n ||
  (n == 8 && tier t.core == 3) || t.sl.gang.size != 1

/-- GANG (R170, R275): it lands every result and forms a gang of the `n` lowest members. -/
def execGang (i : BitVec 12) (s : State) : Answer :=
  issuePre s 4 { sync := true } (fun t => if gangBad i t then some 0x02 else none) fun t =>
    .done (t.modSl fun x => { x with gang := { x.gang with size := i.toNat } })

/-- The end of a gang in force (R172, R275). -/
def ungangAt (len : Nat) (s : State) : Answer :=
  issue s len { sync := true } fun t => .done (t.modSl fun x => { x with gang := { x.gang with size := 1 } })

/-- UNGANG (R275). -/
def execUngang (s : State) : Answer := ungangAt 4 s

/-- C.S UNGANG (R213). -/
def execCUngang (s : State) : Answer := ungangAt 2 s

/-! ### Yielding, waiting, landing, retiring (R276-R279) -/

/-- YIELD (R276): a new stamp is written, so the slot is the one served last; handler wait in the handler slot. -/
def yieldAt (len : Nat) (s : State) : Answer :=
  issue s len {} fun t =>
    if t.inHandler then .trap t 0x0E 0
    else
      let n := t.cr.stampCounter + 1
      .done ((t.modCr fun x => { x with stampCounter := n }).modSl fun x => { x with stamp := n })

/-- YIELD (R276). -/
def execYield (s : State) : Answer := yieldAt 4 s

/-- C.S YIELD (R213). -/
def execCYield (s : State) : Answer := yieldAt 2 s

/-- WAIT (R277): what holds at issue ends it at once; else it retires when a condition comes (`Slot.endWait`). -/
def execWait (d a : GReg) (w : BitVec 2) (s : State) : Answer :=
  issue s 4 (usesG [d] [a]) fun t =>
    if t.inHandler then .trap t 0x0E 0
    else
      let deadline := (t.ga a).toNat
      let now := waitReason t.cr t.ts.toNat deadline w
      if now = 0 then
        .stay ((t.modSl fun x => { x with keep := keepAfter (usesG [d] [a]) x.keep }).awaiting .waiting (.wait d deadline w))
      else .done (t.writeInt d (word now))

/-- TSYNC (R278): its landing is that of IssueCheck. -/
def execTsync (s : State) : Answer := issue s 4 { sync := true } fun t => .done t

/-- C.S TSYNC (R213). -/
def execCTsync (s : State) : Answer := issue s 2 { sync := true } fun t => .done t

/-- NOP (R278). -/
def execNop (s : State) : Answer := issue s 4 {} fun t => .done t

/-- C.S NOP (R213). -/
def execCNop (s : State) : Answer := issue s 2 {} fun t => .done t

/-- RETIRE (R279). -/
def execRetire (s : State) : Answer := issue s 4 {} fun t => t.endThread

/-- C.S RETIRE (R213). -/
def execCRetire (s : State) : Answer := issue s 2 {} fun t => t.endThread

end Sys2Proof.Machine
end

