-- ==== Sys2Proof/Machine/Porter.lean ====
section
/-! DEFINITION. Sys2Proof/Machine/Porter.lean: the porter's commands at issue, and the pieces of a running job (R63, R73, R74, R313, R370-R382, R401). -/

namespace Sys2Proof.Machine

/-! ### Fields (R375, R380) -/

/-- Tiles and row bytes of CPY and CFILL. -/
def cpyTiles (f : EForm) : Nat := esBits f 31 24 + 1
def cpyRow (f : EForm) : Nat := esBits f 23 12 + 1
/-- BC of CPY: bytes are counted at the receivers. -/
def cpyBc (f : EForm) : Bool := esBits f 10 10 == 1
/-- Elements, element bytes and BC of CGAT and CSCT. -/
def gatherCount (f : EForm) : Nat := esBits f 31 16 + 1
def gatherBytes (f : EForm) : Nat := esBits f 15 4 + 1
def gatherBc (f : EForm) : Bool := esBits f 3 3 == 1

/-! ### The checks at issue (R72, R374, R375, R377-R381) -/

/-- A side that is no pool side (R374): COLUMN, DRAM or FABRIC. -/
def otherSide (c : Cap) : Bool := let r := region c.addr.toNat; r == 2 || r == 4 || r == 5

/-- R72 on a side: in full for LOCAL and CLUSTER, all but the partition size for POOLX, and the shape word's reserved bits for
COLUMN, DRAM and FABRIC, whose bytes are checked as they are reached (R374). A base in any other region is one that the porter
does not accept, and fails R72 there. -/
def sideCheck (t : State) (c : Cap) (w : Word) (nt bytes : Nat) (need : Need) : Option Ret :=
  if otherSide c then operandIf t (shapeBad w) else descCheck t c w nt (shapeRows w) bytes need true

/-- ROT of a side that is no pool side is 0 (R374). -/
def rotBad (c : Cap) (w : Word) : Bool := !poolSide c && shapeRot w != 0

/-- The receivers of a multicast, by ascending mask bit, with every set bit (R377): row and column may name no core. -/
def receivers (origin : Coord) (mask : Word) : List (Nat × Nat × Nat) :=
  ((List.range 64).filter fun k => bit mask.toNat k).map fun k => (origin.die, origin.row + k / 8, origin.col + k % 8)

/-- The POOLX address of an offset in a core's scratchpad (R14). -/
def poolxAddress (c : Coord) (o : Nat) : Nat := at_ 56 3 + at_ 40 c.toNat + o

/-- The check of one receiver (R98, R377). -/
def receiverCheck (t : State) (o : Nat) (r : Nat × Nat × Nat) : Option Ret :=
  let (d, row, col) := r
  let c := Coord.mk d row col
  if 64 ≤ row || 64 ≤ col || !coreExists c || tier c != tier t.core then some (.trap t 0x09 (word (poolxAddress c o)))
  else if !t.dieLive d then some (.trap t 0x10 (word (poolxAddress c o)))
  else none

/-- A barrier offset is a multiple of 64 below 2^24 (R378). -/
def barrierOffsetBad (w : Word) : Bool := w.toNat % 64 != 0 || 2 ^ 24 ≤ w.toNat

/-- The conditions on the two sides of a CPY that raise illegal operand (R374, R375). -/
def sidesBad (f : EForm) (src dst : Cap) (ws wd : Word) (counted : Bool) : Bool :=
  rotBad src ws || rotBad dst wd || shapeRows ws != shapeRows wd || 16 * shapeWords ws < cpyRow f ||
  16 * shapeWords wd < cpyRow f || (counted && !poolSide dst)

/-- The checks of CPY and CPY.M (R354, R375, R377, R378). -/
def cpyChecks (f : EForm) (t : State) : List (Option Ret) :=
  let src := t.g f.ga
  let dst := t.g f.gc
  let ws := (t.g f.gb).addr
  let wd := t.ga f.gd
  let mask := t.ga (f.gd + 1)
  let o := bits dst.addr.toNat 39 0
  [sideCheck t src ws (cpyTiles f) (cpyRow f) { l := true }, sideCheck t dst wd (cpyTiles f) (cpyRow f) { s := true },
   attributeIf t dst (cpyMc f && region dst.addr.toNat != 3),
   operandIf t (sidesBad f src dst ws wd (cpyMc f || cpyBc f) || (cpyMc f && mask == 0) ||
     (cpyBc f && barrierOffsetBad (t.ga (f.gd + 2))))] ++
  if cpyMc f then (receivers (namedCore dst.addr.toNat) mask).map (receiverCheck t o) else []

/-- A porter's command. -/
def porterOp (op : Nat) (f : EForm) (sp : EngineSpec) (group : Bool) (checks : State → List (Option Ret)) (s : State) : Answer :=
  engineRun (engineUses f sp group) checks (fun t => jobOf t kindPorter op f sp group) s

/-- CPY (R376). -/
def execCpy (f : EForm) (s : State) : Answer := porterOp 0x90 f (specCpy f) (cpyBc f) (cpyChecks f) s

/-- CPY.M (R377). -/
def execCpyM (f : EForm) (s : State) : Answer := porterOp 0x90 f (specCpy f) true (cpyChecks f) s

/-- The core and the stream of a stream word (R379). -/
def streamCore (w : Word) : Coord := BitVec.ofNat 16 w.toNat
def streamNo (w : Word) : Nat := bits w.toNat 19 16

/-- A stream word that is refused (R379). -/
def streamBad (core : Coord) (w : Word) : Bool :=
  2 ^ 20 ≤ w.toNat || !coreExists (streamCore w) || clusterOf (streamCore w) != clusterOf core

/-- CPY.S (R379). -/
def execCpyS (f : EForm) (s : State) : Answer :=
  porterOp 0x90 f (specCpyS f) false (fun t =>
    let src := t.g f.ga
    let ws := (t.g f.gb).addr
    [sideCheck t src ws (cpyTiles f) (cpyRow f) { l := true },
     operandIf t (cpyMc f || cpyBc f || rotBad src ws || decide (16 * shapeWords ws < cpyRow f) || streamBad t.core (t.ga f.gc))]) s

/-- CGAT and CSCT (R380): their elements are checked as the job reaches them. -/
def gatherOp (op : Nat) (f : EForm) (s : State) : Answer :=
  porterOp op f (specGather f) false
    (fun t => [operandIf t (gatherBc f && (!poolSide (t.g f.gc) || barrierOffsetBad (t.ga f.gd)))]) s

/-- CGAT (R380). -/
def execCgat (f : EForm) (s : State) : Answer := gatherOp 0x91 f s

/-- CSCT (R380). -/
def execCsct (f : EForm) (s : State) : Answer := gatherOp 0x92 f s

/-- CFILL (R381). -/
def execCfill (f : EForm) (s : State) : Answer :=
  porterOp 0x93 f (specFill f) false (fun t =>
    let w := (t.g f.gb).addr
    [sideCheck t (t.g f.ga) w (cpyTiles f) (cpyRow f) { s := true },
     operandIf t (rotBad (t.g f.ga) w || decide (16 * shapeWords w < cpyRow f))]) s

/-! ### The pieces of a unit (R374, R376-R381) -/

/-- A unit is a tile, or an element of CGAT and CSCT. -/
def EngineJob.porterUnits (j : EngineJob) : Nat :=
  if j.op = 0x91 ∨ j.op = 0x92 then gatherCount j.f else cpyTiles j.f

/-- Stages of a unit: 0 reads the list, 1 reads the data, 2 writes, 3 hands entries to a stream. -/
def EngineJob.firstStage (j : EngineJob) : Nat := if j.op = 0x91 ∨ j.op = 0x92 then 0 else if j.op = 0x93 then 2 else 1

/-- The job is a stream copy. -/
def EngineJob.streams (j : EngineJob) : Bool := j.op == 0x90 && cpyStr j.f

/-- The pieces of [x, x + n), each in one granule (R146). -/
def piecesAt (core : Coord) (rcv : Nat) (x n off : Nat) : List EnginePiece :=
  (partsOf core x n off).map fun p => { rcv, off := p.off, x := p.x.toNat, n := p.n }

/-- The core whose pool an address of a job's core names. -/
def poolNamed (core : Coord) (va : Nat) : Coord := if region va = 3 then namedCore va else poolCore core va

/-- The capability as a receiver of a multicast takes it: its own POOLX address at the same offset (R377). -/
def retarget (c : Cap) (r : Coord) : Cap := { c with addr := word (poolxAddress r (bits c.addr.toNat 39 0)) }

/-- The destinations of a copy: capabilities, one per receiver. -/
def EngineJob.destinations (j : EngineJob) : List Cap :=
  let c := j.operand 2
  if cpyMc j.f then
    (receivers (namedCore c.addr.toNat) (j.operand 4).addr).map fun (d, row, col) => retarget c (Coord.mk d row col)
  else [c]

/-- Bytes of the list's elements: N32 for FMT 0x00 and 0x06, N64 for 0x08. -/
def listBytes (c : Cap) : Nat := if c.fmt = 8 then 8 else 4

/-- The index that a unit of CGAT or CSCT has read. -/
def EngineJob.index (j : EngineJob) : Nat := bufNat j.buf 0 (listBytes (j.operand 1))

/-- Where the data of a unit of CGAT or CSCT stands in its buffer, after the index. -/
def gatherOff : Nat := 8

/-- The address of element `i` of a side of CGAT or CSCT, modulo 2^64. -/
def EngineJob.elementAddress (j : EngineJob) (c : Cap) (i : Nat) : Nat := (c.addr.toNat + i * gatherBytes j.f) % 2 ^ 64

/-- The pieces of a stage of the present unit. -/
def EngineJob.pieces (j : EngineJob) : List EnginePiece :=
  let f := j.f
  let c := j.core
  let u := j.done
  let gather := j.op == 0x91
  if j.op = 0x91 ∨ j.op = 0x92 then
    match j.stage with
    | 0 =>
      let l := j.operand 1
      piecesAt c 0 (l.bounds.1.toNat + listBytes l * u) (listBytes l) 0
    | 1 => piecesAt c 0 (j.elementAddress (j.operand 0) (if gather then j.index else u)) (gatherBytes f) gatherOff
    | _ =>
      let x := j.elementAddress (j.operand 2) (if gather then u else j.index)
      piecesAt c (poolNamed c x).toNat x (gatherBytes f) gatherOff
  else if j.op = 0x93 then
    let w := (j.operand 1).addr
    (List.range (shapeRows w)).flatMap fun i => piecesAt c 0 (rowAddress (j.operand 0) w u i) (cpyRow f) (i * cpyRow f)
  else
    match j.stage with
    | 1 =>
      let w := (j.operand 1).addr
      (List.range (shapeRows w)).flatMap fun i => piecesAt c 0 (rowAddress (j.operand 0) w u i) (cpyRow f) (i * cpyRow f)
    | 2 =>
      let w := (j.operand 3).addr
      (List.range (shapeRows w)).flatMap fun i => j.destinations.flatMap fun d =>
        let x := rowAddress d w u i
        piecesAt c (poolNamed c x).toNat x (cpyRow f) (i * cpyRow f)
    | _ => []

/-- The capability through which a stage moves its pieces, and what it needs. -/
def EngineJob.stageCap (j : EngineJob) : Cap × Need :=
  let gather := j.op == 0x91 || j.op == 0x92
  match j.stage with
  | 0 =>
    let l := j.operand 1
    (l, { l := true, element := true, badFormat := !(l.fmt == 0 || l.fmt == 6 || l.fmt == 8) })
  | 1 => (j.operand 0, { l := true, element := true })
  | _ => (if gather || j.op == 0x90 then j.operand 2 else j.operand 0, { s := true, element := true })

/-- The bytes that a write piece carries: those read, or the fill pattern (R381). -/
def EngineJob.pieceData (j : EngineJob) (p : EnginePiece) : List Byte :=
  (List.range p.n).map fun i =>
    if j.op = 0x93 then BitVec.ofNat 8 ((j.operand 2).addr.toNat / 2 ^ (8 * ((p.off % cpyRow j.f + i) % 8)))
    else look 0 j.buf (p.off + i)

/-- The barrier offset into which a job's pieces are counted (R378, R380). -/
def EngineJob.barrier (j : EngineJob) : Option Nat :=
  if j.op = 0x90 then (if cpyBc j.f && !cpyStr j.f then some (j.operand 5).addr.toNat else none)
  else if (j.op = 0x91 ∨ j.op = 0x92) ∧ gatherBc j.f then some (j.operand 3).addr.toNat
  else none

/-! ### Moving a piece -/

/-- BarBytes at a receiver (R313): the cause and address that end the job, when the count is refused. -/
def State.countBytes (s : State) (home : Coord) (off n : Nat) : State × Option (Nat × Word) :=
  let p := (s.coreAt home).partw
  let at_ := word (poolxAddress home off)
  if scratchSize p < off + 192 then (s, some (0x09, at_))
  else
    match s.barBytes home (scratchKey home p off) n with
    | (t, true) => (t, none)
    | (t, false) => (t, some (0x0C, at_))

/-- A piece written at a key, and then counted. -/
def State.writePiece (s : State) (k : Nat) (data : List Byte) (home : Coord) (barrier : Option Nat) : State × Option (Nat × Word) :=
  let t := s.writeBytes k data
  match barrier with
  | some off => t.countBytes home off data.length
  | none => (t, none)

/-- The engine message of a piece (R101). -/
def EngineJob.message (j : EngineJob) (dst : Coord) (addr : Nat) (p : EnginePiece) : Flight :=
  if j.stage = 2 then
    { dst, src := j.engc, op := 0x70, bc := p.n - 1, addr
      pay := .engine j.core j.token p.off p.n p.x (j.pieceData p) j.barrier }
  else { dst, src := j.engc, op := 0x71, bc := p.n - 1, addr, pay := .engine j.core j.token p.off p.n p.x [] none }

/-- The page of a piece, as a resident request names it (R438). -/
def EngineJob.pageOf (j : EngineJob) (p : EnginePiece) : Nat × Space × Nat := (j.job, spaceOf p.x, p.x / 2 ^ 16)

/-- The pages of a die's outstanding walks (R437). -/
def State.walksOf (s : State) (die : Nat) : List (Nat × Space × Nat) := (s.dieAt die).walks.map fun w => (w.job, w.space, w.page)

/-- The pages of which a cluster's porter has misses outstanding, by resident requests and by the die's walks: those of the pieces
that its active jobs, and job `j`, still have to move, and of the parked ones (R382, R437). -/
def State.porterMisses (s : State) (j : EngineJob) : List (Nat × Space × Nat) :=
  let cl := s.clusterAt j.core
  let parked := cl.parked.filterMap fun (c, id, p) => (cl.active.find? fun k => k.core == c && k.id == id).map fun k => k.pageOf p
  let pages := parked ++ (j :: cl.active).flatMap fun k => k.todo.map k.pageOf
  s.pkg.residentRequests.filter pages.contains ++ (s.walksOf j.core.die).filter pages.contains

/-- The porter has its 8 misses outstanding, and the piece's page would be another (R437). -/
def State.missesFull (s : State) (j : EngineJob) (p : EnginePiece) : Bool :=
  8 ≤ (s.porterMisses j).length && !(s.porterMisses j).contains (j.pageOf p)

/-- A page of an earlier parked piece of the job (R382). -/
def Cluster.parkedAt (cl : Cluster) (j : EngineJob) (x : Nat) : Bool :=
  cl.parked.any fun (c, id, p) => c == j.core && id == j.id && p.x / 2 ^ 16 == x / 2 ^ 16

/-- The job has a parked piece. -/
def Cluster.parks (cl : Cluster) (j : EngineJob) : Bool := cl.parked.any fun (c, id, _) => c == j.core && id == j.id

/-- Pieces are parked when there is room for them among 32; otherwise the job waits, and the first of them is the next that it
moves (R382). -/
def State.park (s : State) (j : EngineJob) (l : List EnginePiece) : State × EngineJob :=
  let cl := s.clusterAt j.core
  if cl.parked.length + l.length ≤ 32 then
    (s.setCluster j.core { cl with parked := cl.parked ++ l.map fun p => (j.core, j.id, p) }, j)
  else (s, { j with todo := l ++ j.todo, stuck := true })

/-- A checked piece moved where it goes. -/
def State.landPiece (s : State) (j : EngineJob) (p : EnginePiece) (r : Route) : State × EngineJob :=
  match r with
  | .msg dst a => (s.post (j.message dst a p), { j with outstanding := j.outstanding + 1 })
  | r =>
    if j.stage = 2 then
      let (t, f) := (s.poolWrites 4 r.place p.n).writePiece r.place (j.pieceData p) (BitVec.ofNat 16 p.rcv) j.barrier
      (t, j.fail f)
    else (s.poolReads 4 r.place p.n, { j with buf := scatter [(0, p.off, p.n)] (s.readBytes r.place p.n) j.buf })

/-- Two pieces name one byte of one receiver. -/
def EnginePiece.overlaps (p q : EnginePiece) : Bool := p.rcv == q.rcv && p.x < q.x + q.n && q.x < p.x + p.n

/-- The `k`th piece that the stage has still to move is tried: it moves at once within the cluster, or by an engine message; it
waits where it stands for a page, a lock, the engine's send queue or an earlier piece that names a byte of it, so that the last
(t, i, b) remains; it is parked; or it ends the job (R73, R355, R374, R376, R382, R401, R437). A job that waits for parking moves
no other piece. -/
def State.movePiece (s : State) (j : EngineJob) (k : Nat) : State × EngineJob :=
  match j.todo[k]? with
  | none => (s, j)
  | some p =>
    let (c, need) := j.stageCap
    let writes := j.stage == 2
    let rest : EngineJob := { j with todo := j.todo.eraseIdx k, stuck := false }
    if (j.stuck && k != 0) || (writes && (j.todo.take k).any p.overlaps) then (s, j)
    else
      match s.engineCheck j c need p.x p.n with
      | .ok r =>
        if writes && (s.clusterAt j.core).parkedAt j p.x then s.park rest [p]
        else if r.remote && !s.engineRoom j.engc 1 then (s, j)
        else s.landPiece rest p r
      | .wait (.page job space va) =>
        if s.missesFull j p then (s, j)
        else
          let t := s.askResident job space va
          if writes then t.park rest [p] else (t, j)
      | .wait (.walk die job space va) => (if s.missesFull j p then s else s.askWalk die job space va, j)
      | .wait h => (s.holds h, j)
      | g => let (t, f) := g.fault s; (t, rest.fail f)

/-- The stage writes an element of CGAT or CSCT, whose pieces move together. -/
def EngineJob.writesElement (j : EngineJob) : Bool := (j.op == 0x91 || j.op == 0x92) && j.stage == 2

/-- Pieces of an element checked, those in other cores' pools and in memory too. -/
def State.elementCheck (s : State) (j : EngineJob) (l : List EnginePiece) : Got Unit :=
  let (c, need) := j.stageCap
  Got.fold (fun _ p => (s.engineKey j c need p.x p.n).bind fun _ => .ok ()) () l

/-- An element of CGAT or CSCT is written once every piece of it passes its checks, or not at all (R380). -/
def State.passElement (s : State) (j : EngineJob) : State × EngineJob :=
  let rest : EngineJob := { j with todo := [], stuck := false }
  match s.elementCheck j j.todo with
  | .ok _ => (s, { j with passed := true, stuck := false })
  | .wait (.page job space va) =>
    if j.todo.any (s.missesFull j) then (s, j) else (s.askResident job space va).park rest j.todo
  | .wait (.walk die job space va) => (if j.todo.any (s.missesFull j) then s else s.askWalk die job space va, j)
  | .wait h => (s.holds h, j)
  | g => let (t, f) := g.fault s; (t, rest.fail f)

/-- Every piece from the `k`th on is tried once, up to a fault, or to one for which the job waits. -/
def State.porterTries : Nat → State → EngineJob → Nat → State × EngineJob
  | 0, s, j, _ => (s, j)
  | n + 1, s, j, k =>
    let (t, x) := s.movePiece j k
    if x.fault.isSome || x.stuck then (t, x)
    else State.porterTries n t x (if x.todo.length < j.todo.length then k else k + 1)

/-- An element must still pass its checks. -/
def EngineJob.unchecked (j : EngineJob) : Bool := j.writesElement && !j.passed

/-- Every piece of the stage that has not moved is tried once. -/
def State.porterPass (s : State) (j : EngineJob) : State × EngineJob :=
  if j.todo.isEmpty then (s, j)
  else
    let (t, k) := if j.unchecked then s.passElement j else (s, j)
    if k.unchecked || k.fault.isSome then (t, k) else t.porterTries k.todo.length k 0

/-! ### Units and stages -/

/-- The job at the start of a stage. -/
def EngineJob.atStage (j : EngineJob) (stage : Nat) : EngineJob :=
  let k := { j with stage }
  { k with todo := k.pieces, passed := false }

/-- The job at the start of unit `u`; past the last there is nothing to move. -/
def EngineJob.atUnit (j : EngineJob) (u : Nat) : EngineJob :=
  let k := { j with done := u, buf := [], todo := [], stage := j.firstStage }
  if u < k.porterUnits then k.atStage k.firstStage else k

/-- The bytes of a tile in the order of R376, added to those a stream still owes (R379). -/
def EngineJob.streamBytes (j : EngineJob) : List Byte :=
  j.replay ++ (List.range (shapeRows (j.operand 1).addr * cpyRow j.f)).map fun i => look 0 j.buf i

/-- An entry of a stream is ready: 64 bytes, or the last bytes of the last tile (R379). -/
def EngineJob.entryReady (j : EngineJob) : Bool :=
  j.stage == 3 && (64 ≤ j.replay.length || (!j.replay.isEmpty && j.done + 1 == j.porterUnits))

/-- The next stage, or the next unit. -/
def EngineJob.next (j : EngineJob) : EngineJob :=
  match j.stage with
  | 0 => j.atStage 1
  | 1 => if j.streams then { j with stage := 3, replay := j.streamBytes, buf := [] } else j.atStage 2
  | _ => j.atUnit (j.done + 1)

/-- Nothing of the present stage is left to do. -/
def EngineJob.stageOver (s : State) (j : EngineJob) : Bool :=
  j.todo.isEmpty && j.outstanding == 0 && !(s.clusterAt j.core).parks j && !j.entryReady && j.fault.isNone

/-- The job goes on until it waits, ends, or has done `limit` units; `fuel` bounds its stages. -/
def State.porterRun : Nat → State → EngineJob → Nat → State × EngineJob
  | 0, s, j, _ => (s, j)
  | n + 1, s, j, limit =>
    if limit ≤ j.done || j.fault.isSome then (s, j)
    else
      let (t, k) := s.porterPass j
      if k.stageOver t then State.porterRun n t k.next limit else (t, k)

/-- More stages than a job has. -/
def EngineJob.fuel (j : EngineJob) : Nat := 3 * j.porterUnits + 3

/-- The job has moved everything, or has ended with a fault. -/
def EngineJob.porterOver (s : State) (j : EngineJob) : Bool :=
  j.outstanding == 0 && !(s.clusterAt j.core).parks j && (j.fault.isSome || j.porterUnits ≤ j.done)

/-- An active job of a cluster replaced. -/
def State.setActive (s : State) (j : EngineJob) : State :=
  let cl := s.clusterAt j.core
  s.setCluster j.core { cl with active := cl.active.map fun k => if k.same j then j else k }

/-- The writes that a matrix-engine job has still to make, in order: those in the cluster are made at once, the others sent to
their owners by EWRITE as the engine's send queue has room (R101, R111, R148). -/
def State.storePieces : List EnginePiece → State → EngineJob → State × EngineJob
  | [], s, j => (s, { j with todo := [] })
  | p :: l, s, j =>
    let (c, need) := j.stageCap
    match (s.engineKey j c need p.x p.n).bind fun _ => s.engineCheck j c need p.x p.n with
    | .ok r =>
      if r.remote && !s.engineRoom j.engc 1 then (s, { j with todo := p :: l })
      else let (t, k) := s.landPiece j p r; State.storePieces l t k
    | .wait h => (s.holds h, { j with todo := p :: l })
    | g => let (t, f) := g.fault s; (t, { j.fail f with todo := [] })

/-- The matrix engine's running job replaced, and the one of a core and a token (R354). -/
def State.setRunning (s : State) (j : EngineJob) : State := s.setCluster j.core { s.clusterAt j.core with running := some j }
def State.runningJob (s : State) (core : Coord) (token : Nat) : Option EngineJob :=
  (s.clusterAt core).running.filter fun j => j.core == core && j.token == token

/-- The active job of a core and an id. -/
def State.activeJob (s : State) (core : Coord) (id : Nat) : Option EngineJob :=
  (s.clusterAt core).active.find? fun j => j.core == core && j.id == id

/-- An active job leaves the porter. -/
def State.dropActive (s : State) (j : EngineJob) : State :=
  let cl := s.clusterAt j.core
  s.setCluster j.core { cl with active := cl.active.filter fun k => !k.same j }

/-- The `i`th piece of the stage that has not moved is tried; the job goes on to its next stage when this one is over. -/
def State.porterStep (s : State) (j : EngineJob) (i : Nat) : State × EngineJob :=
  let (t, k) : State × EngineJob :=
    if j.fault.isSome || j.todo.isEmpty then (s, j) else if j.unchecked then s.passElement j else s.movePiece j i
  (t, if k.stageOver t && k.done < k.porterUnits then k.next else k)

/-- A message of the job has come back: it goes on to the next stage when this one is over. -/
def State.porterReply (s : State) (j : EngineJob) : State :=
  let k := { j with outstanding := j.outstanding - 1 }
  s.setActive (if k.stageOver s then k.next else k)

end Sys2Proof.Machine
end

