-- ==== Sys2Proof/Machine/Delivery.lean ====
section
/-! DEFINITION. Sys2Proof/Machine/Delivery.lean: how a message leaves the mesh, how an owner answers a request, and how a reply finds the instruction that waits for it (R101-R107, R109, R116, R119, R128, R284). -/

namespace Sys2Proof.Machine

/-- The coordinate that a key of a map of cores or clusters stands for. -/
def coordOf (k : Nat) : Coord := BitVec.ofNat 16 k

/-! ### Out of the mesh (R106, R109, R111, R116, R119) -/

/-- A queue entry that a message held is free: what waits for room in a send queue goes on (R116). -/
def State.freeEntry (s : State) (f : Flight) : State :=
  match f.standsIn with
  | some (c, q) =>
    let t := s.leftQueue c q
    if q = 4 ∨ q = 5 then (t.wakeRoom c).pump c else t
  | none => s

/-- A message leaves the mesh or its queue; the bridges of its way have carried it (R116, R119). -/
def State.takeOut (s : State) (f : Flight) : State :=
  let t := { s with net := dropFirst (· == f) s.net }
  (if f.travels then t.crosses f.src f.dst else t).freeEntry f

/-- The reply to a message (R104): addressed to a location, it names no slot (R100). -/
def Flight.answer (f : Flight) (op : Nat) (pay : Payload) (bc : Nat := 0) (via : Via := .mesh) : Flight :=
  { dst := f.src, src := f.dst, op, tag := f.tag, bc, pay, via }

/-- A refusal with reason 2, where a reply is wanted, and an error record: of an active message that is refused, or of a
malformed message (R101, R299). -/
def State.refuseMessage (s : State) (f : Flight) : State :=
  let t := s.report f.dst (errorRecord 0 f.dst s.ts)
  if f.rq then t.post (f.answer 0x43 (.reason 2)) else t

/-- The delivery of a message: a malformed one is discarded (R101). Where nothing can be delivered, or the receiver does not
take it yet, nothing happens (log 11). -/
def delivery (op : Nat) (src dst : Coord) (body : State → Flight → Option State) (s : State) : Answer :=
  match s.arriving src dst op with
  | some f =>
    if f.malformed then .next ((s.takeOut f).refuseMessage f)
    else
      match body (s.takeOut f) f with
      | some t => .next t
      | none => .next s
  | none => .next s

/-- A message whose flits are all at its endpoint enters its receive queue, which has room (R111). -/
def State.enqueue (s : State) (n : Nat) : Option State :=
  match s.net[n]? with
  | none => none
  | some f =>
    let q := receiveQueue f.op
    if !f.travels || 4 ≤ q || !s.mayEnter f || !s.passes f || (s.ahead n f).any Flight.travels || !s.queueRoom f.dst q then none
    else
      let t := s.setFlight n { f with via := .queue s.pkg.arrivals, landed := f.count, flits := [] }
      some (({ t with pkg := { t.pkg with arrivals := t.pkg.arrivals + 1 } }.crosses f.src f.dst).freeEntry f)

/-- The oldest message in the send queue of a unit, or else of an engine, enters the mesh (R109, R111). -/
def State.inject (s : State) (c : Coord) : Option State :=
  (s.net.findIdx? fun f => f.src == c && f.via == .source && s.mayEnter f).map fun n =>
    match s.net[n]? with
    | some f => (s.setFlight n { f with via := .mesh }).freeEntry f
    | none => s

/-- A step of another agent that may have nothing to do (log 11). -/
def stepOr (s : State) (t : Option State) : Answer := .next (t.getD s)

/-- A step that happens when `p` holds. -/
def stepIf (s : State) (p : Bool) (t : State) : Answer := .next (if p then t else s)

/-! ### The answer of an owner (R104) -/

/-- Bytes that a request concerns at its owner. -/
def Flight.size (f : Flight) : Nat :=
  match f.pay with
  | .atom _ n _ => n
  | .cas n _ _ => n
  | .barrier _ _ => 192
  | .board _ _ => 5248
  | .capability _ _ => 16
  | .bytes l => l.length
  | .masked d _ => d.length
  | _ => f.bc + 1

/-- The key of a request's first byte; none where it lies beyond the partition (R16, R69). -/
def State.ownerKey (s : State) (f : Flight) : Option Nat :=
  if f.isScratch then
    let p := (s.coreAt f.dst).partw
    let off := bits f.addr 23 0
    if scratchSize p < off + f.size then none else some (scratchKey f.dst p off)
  else some (s.memoryKey f.addr)

/-- A request waits: its page is being moved (R88, R89), the tester holds the bus of its frame (R85), or the partition that it
enters is about to change (R56). -/
def State.requestLocked (s : State) (f : Flight) : Bool :=
  if f.isScratch then (s.coreAt f.dst).partPending.isSome else !f.isControl && (s.frameLocked f.addr || s.busHeld f.addr)

/-- What a request that waits does: it ends the test of a bus that the tester holds (R85). -/
def State.pressOn (s : State) (f : Flight) : Option State :=
  if !f.isScratch && !f.isControl && s.busHeld f.addr then some (s.demandBus f.addr) else none

/-- The unit that answers a request has room for its reply in its send queue (R111). -/
def State.unitRoom (s : State) (c : Coord) : Bool := s.queueRoom c 6

/-- The offset of the first byte of a request that lies in a poisoned word; a write of every byte of a word does not read it
(R67). -/
def State.requestPoison (s : State) (k : Nat) (f : Flight) : Option Nat :=
  let stops (g : Nat) : Bool := s.wordLost g && match f.pay with
    | .bytes l => !(wholeGranules k l.length).contains g
    | .capability _ _ => false
    | .masked data mask =>
      let byte (i : Nat) : Byte := if 16 * g + i < k then 0 else nth 0 mask (16 * g + i - k)
      ((List.range 16).any fun i => k ≤ 16 * g + i && 16 * g + i < k + data.length && byte i != 0) &&
        ((List.range 16).any fun i => byte i != 0xFF)
    | _ => true
  ((granules k f.size).find? stops).map fun g => 16 * g - k

/-- The reply that an owner's service makes (R104); a BARWAIT that finds the watch list full is answered with an empty
ACK (R312, log 12). -/
def Served.reply (f : Flight) (via : Via) : Served → Option Flight
  | .bytes l => some (f.answer 0x40 (.bytes l) (l.length - 1) via)
  | .cap l tag => some (f.answer 0x40 (.capability l tag) 16 via)
  | .ack => some (f.answer 0x41 .none 0 via)
  | .fault cause => some (f.answer 0x42 (.fault cause (word f.addr)) 0 via)
  | .later => none
  | .retry => some (f.answer 0x41 .none 0 via)

/-- A request to a core's control space (R102, R232): a store has the effect of SRW and a load that of SRR. -/
def State.serveControl (s : State) (f : Flight) : State × Served :=
  let off := bits f.addr 23 0
  match f.pay with
  | .bytes l =>
    match s.writeControl f.dst off (word (leNat l)) with
    | some t => (t, .ack)
    | none => (s, .fault 0x02)
  | _ => (s, .bytes (leBytes 8 (s.readControl f.dst off).toNat))

/-- THE SERVICE OF A REQUEST at its owner: performed, and answered (R104, R134, R142). A fault names the lowest failing byte
by its address in the request's terms. -/
def State.serveRequest (s : State) (f : Flight) (via : Via := .mesh) : State :=
  let (t, r, at_) : State × Served × Nat :=
    if f.isControl then let (u, r) := s.serveControl f; (u, r, 0)
    else
      match s.ownerKey f with
      | none => (s, .fault 0x09, scratchSize (s.coreAt f.dst).partw - bits f.addr 23 0)
      | some k =>
        match s.requestPoison k f with
        | some d => (s, .fault 0x10, d)
        | none =>
          let (u, r) := ((s.sendThrough f).poolServes 5 k f.op f.size f.pay).serve (homeOf f.dst k) k f.op f.size f.pay (f.answer 0x40 .none);
          (u, r, 0)
  match r.reply { f with addr := f.addr + at_ } via with
  | some g => t.post g
  | none => t

/-! ### A reply and its instruction (R103-R105, R128) -/

/-- The slot whose instruction awaits a reply of a tag, what it has so far, and the piece. -/
def State.requester (s : State) (c : Coord) (tag : Nat) : Option (Nat × Pending × Piece) :=
  (List.range (slotCount c)).findSome? fun i =>
    match (s.slotAt c i).pend with
    | some p => (p.pieces.find? fun q => q.tag == tag).map fun q => (i, p, q)
    | none => none

/-- A tag is free again, and what waits for one goes on (R103). -/
def State.releaseTag (s : State) (c : Coord) (tag : Nat) : State :=
  ((s.modCore c fun x => { x with msg := { x.msg with tags := x.msg.tags.filter (· != tag) } }).wakeRoom c).pump c

/-- What the instruction does when nothing is outstanding. -/
def finishPending (t : State) (p : Pending) : Ret :=
  match p.fin with
  | .imageHead a => concludeHead a t p
  | .image n => concludeImage n t p
  | .unpack f got => concludeUnpack f got t p
  | _ => conclude t p

/-- The instruction of slot `i` of core `c` completes. -/
def State.concludeSlot (s : State) (c : Coord) (i : Nat) (p : Pending) : State :=
  let t : State := { s with core := c, slot := i }
  let u := settle p.len {} (finishPending t p)
  if p.taken.isEmpty then u
    else (u.wakeRoom c).portChanged c ((p.taken.map (·.1)).filter fun q => (u.coreAt c).portUse q < (s.coreAt c).portUse q)

/-- The saved thread awaited the reply of a tag of its core: a deferred BARWAIT among others (R312, R413). -/
def savedWithTag (c : Coord) (tag : Nat) (x : SavedThread) : Bool :=
  x.core == c && match x.slot.pend with | some p => p.pieces.any (·.tag == tag) | none => false

/-- A reply taken in: its tag is free; with the last reply the instruction completes. A reply to a thread that has been
saved is discarded (R128), and one whose tag is not outstanding leaves an error record (R105). -/
def State.receive (s : State) (f : Flight) (upd : Pending → Piece → Pending) : State :=
  match s.requester f.dst f.tag with
  | none =>
    if (s.coreAt f.dst).msg.tags.contains f.tag then (s.releaseTag f.dst f.tag).markSaved (savedWithTag f.dst f.tag)
    else s.report f.dst (errorRecord 0 f.dst s.ts)
  | some (i, p, q) =>
    let r := upd { p with pieces := p.pieces.filter fun x => x.tag != f.tag } q
    let t := (s.modSlot f.dst i fun x => { x with pend := some r }).releaseTag f.dst f.tag
    if r.pieces.isEmpty && r.todo.isEmpty then ((t.concludeSlot f.dst i r).leaves f.dst i).pump f.dst else t

end Sys2Proof.Machine
end

