-- ==== Sys2Proof/Machine/Requests.lean ====
section
/-! DEFINITION. Sys2Proof/Machine/Requests.lean: the requests that reach an endpoint: loads, stores, atomics, active messages and port values, and what waits at the head of a receive queue (R104, R111-R117, R126, R143, R299, R302). -/

namespace Sys2Proof.Machine

/-! ### The REQ receive queue (R104, R111, R114, R117) -/

/-- The head of the queue waits, for a handler send entry or for a mailbox, and holds back what is behind it. -/
def Messages.headWaits (m : Messages) : Bool := !m.waitingAtomic.isEmpty || m.waitingPort.isSome

/-- A request that its endpoint serves as it comes (R104); it waits behind a head that waits, at a locked page, for a change
of the partition, and for room for its reply. -/
def serveEvent (op : Nat) (src dst : Coord) (s : State) : Answer :=
  delivery op src dst (fun t f =>
    if (t.coreAt dst).msg.headWaits || !t.unitRoom dst then none
    else if t.requestLocked f then s.pressOn f else some (t.serveRequest f)) s

/-- LOAD (R104). -/
def execLoad (src dst : Coord) (s : State) : Answer := serveEvent 0x00 src dst s

/-- STORE (R104). -/
def execStore (src dst : Coord) (s : State) : Answer := serveEvent 0x01 src dst s

/-- LOADCAP (R104). -/
def execLoadcap (src dst : Coord) (s : State) : Answer := serveEvent 0x02 src dst s

/-- STORECAP (R104). -/
def execStorecap (src dst : Coord) (s : State) : Answer := serveEvent 0x03 src dst s

/-- An atomic, barrier or board request: a core's built-in handler performs it when the handler send queue has an entry
for its reply, and until then it waits at the head of its queue (R104, R117, R143). -/
def atomicEvent (op : Nat) (src dst : Coord) (s : State) : Answer :=
  delivery op src dst (fun t f =>
    if (t.coreAt dst).msg.headWaits then none
    else if t.requestLocked f then s.pressOn f
    else if !coreExists dst then (if t.unitRoom dst then some (t.serveRequest f) else none)
    else if t.replyRoom dst then some (t.serveRequest f .handler)
    else if t.queueRoom dst 0 then some (t.modMsg dst fun m => { m with waitingAtomic := [f] })
    else none) s

/-- AMO (R143). -/
def execAmo (src dst : Coord) (s : State) : Answer := atomicEvent 0x04 src dst s

/-- CAS (R143). -/
def execCas (src dst : Coord) (s : State) : Answer := atomicEvent 0x05 src dst s

/-- BUILTIN_ATOMIC_DISPATCH (R117). -/
def execBuiltinAtomicDispatch (c : Coord) (s : State) : Answer :=
  match (s.coreAt c).msg.waitingAtomic with
  | f :: r =>
    if s.requestLocked f then stepOr s (s.pressOn f)
    else stepIf s (s.replyRoom c) (((s.modMsg c fun m => { m with waitingAtomic := r }).leftQueue c 0).serveRequest f .handler)
  | [] => .next s

/-! ### Active messages (R299) -/

/-- Message info (R297). -/
def Flight.info (f : Flight) : Nat := match f.pay with | .bytes l => leNat (l.take 8) | _ => 0
def Flight.arguments (f : Flight) : List Byte := match f.pay with | .bytes l => l.drop 8 | _ => []
def Flight.handlerIndex (f : Flight) : Nat := bits f.info 5 0
def Flight.isSendx (f : Flight) : Bool := bit f.info 8

/-- A slot of a core holds a thread of this generation (R125, R126). -/
def State.holdsThread (s : State) (c : Coord) (i : Nat) (gen : BitVec 10) : Bool :=
  let x := s.slotAt c i
  i < slotCount c && x.st != .empty && x.st != .transit && x.gen == gen

/-- The owner job's entry for a handler index; 0 is absent (R297). -/
def State.handlerEntry (s : State) (c : Coord) (i : Nat) : Nat :=
  match (s.coreAt c).owner with
  | some j => look 0 (s.jobAt j).handlers i
  | none => 0

/-- The message comes from the job that owns the core (R299). -/
def State.fromOwner (s : State) (c : Coord) (f : Flight) : Bool :=
  match (s.coreAt c).owner with
  | some j => bits f.info 63 32 == j % 2 ^ 32
  | none => false

/-- ACTIVE (R299): the checks of delivery in their order; an accepted message waits for slot 0. -/
def execActive (src dst : Coord) (s : State) : Answer :=
  delivery 0x06 src dst (fun t f =>
    let m := (t.coreAt dst).msg
    if m.headWaits then none
    else if !t.fromOwner dst f then some (t.refuseMessage f)
    else if f.th && !t.holdsThread dst f.slot f.gen then some (t.lose dst f)
    else if t.handlerEntry dst f.handlerIndex = 0 then some (t.refuseMessage f)
    else if t.queueRoom dst 0 then some (t.modMsg dst fun m => { m with waitingActive := m.waitingActive ++ [f] })
    else none) s

/-- The scratch handle of a core (R455). -/
def scratchHandle (x : Core) : Cap := makeCap 0xC40 0 0 0 (scratchSize x.partw) 0

/-- The message word that a handler finds in g1 (R299). -/
def Flight.handlerWord (f : Flight) : Word :=
  word (at_ 48 (b2n f.isSendx) + at_ 40 (if f.isSendx then bits f.info 23 16 else 0) +
    (if f.th then at_ 30 f.gen.toNat + at_ 25 f.slot else 0) + at_ 24 (b2n f.th) + at_ 23 (b2n f.rq) +
    at_ 16 f.handlerIndex + f.src.toNat)

/-- Slot 0 at the start of a handler (R299); its frame has the quota 8 (R57). -/
def handlerSlot (j : Job) (job : Nat) (x : Core) (f : Flight) : Slot :=
  let arg (i : Nat) : Cap := Cap.ofWord (word (leNat ((f.arguments.drop (8 * i)).take 8)))
  let part (i : Nat) : VReg := BitVec.ofNat 512 (leNat ((f.arguments.drop (64 * i)).take 64))
  { gen := (x.slotAt 0).gen, st := .ready, quota := 8
    pc := codeAt j (look 0 j.handlers f.handlerIndex)
    g := [(1, Cap.ofWord f.handlerWord), (2, j.handlerData), (3, scratchHandle x)] ++
      if f.isSendx then [] else (List.range 4).map fun i => (4 + i, arg i)
    v := if f.isSendx then (List.range 4).map fun i => (i, part i) else []
    sys := { evec := j.evec }, mem := { job } }

/-- HANDLER_START (R299): the oldest accepted message starts its handler once slot 0 is free, its v registers written by the
message unit (R57, R60); one whose job has lost the core meanwhile is refused. On a halted core none starts: messages queue
(R400). -/
def execHandlerStart (c : Coord) (s : State) : Answer :=
  let x := s.coreAt c
  if x.halted then .next s else
  match x.msg.handling, x.msg.waitingActive with
  | none, f :: r =>
    let t := (s.modMsg c fun m => { m with waitingActive := r }).leftQueue c 0
    let job := x.owner.getD 0
    if s.fromOwner c f && s.handlerEntry c f.handlerIndex != 0 then
      let t := if f.isSendx then t.askPool c { client := 5, updates := rowUpdates ((List.range 16).map fun w => (w, 0xFFFF)) } else t
      .next (t.modCore c fun x =>
        { x.setSlot 0 (handlerSlot (s.jobAt job) job x f) with msg := { x.msg with handling := some f } })
    else .next (t.refuseMessage f)
  | _, _ => .next s

/-! ### Port values (R302) -/

/-- PORTW (R302): a value for a full mailbox waits at the head of the queue. -/
def execPortw (src dst : Coord) (s : State) : Answer :=
  delivery 0x07 src dst (fun t f =>
    let x := t.coreAt dst
    match f.pay with
    | .port p v =>
      if x.msg.headWaits then none
      else if mailboxBusy x p then
        (if t.queueRoom dst 0 then some (t.modMsg dst fun m => { m with waitingPort := some f }) else none)
      else some (t.deliverPort dst f p v)
    | _ => some (t.refuseMessage f)) s

/-- MAILBOX_PORTW_DELIVERY (R302): the value is delivered under the binding that the port holds now. -/
def execMailboxPortwDelivery (c : Coord) (s : State) : Answer :=
  let x := s.coreAt c
  match x.msg.waitingPort with
  | some f =>
    match f.pay with
    | .port p v =>
      stepIf s (!mailboxBusy x p) (((s.modMsg c fun m => { m with waitingPort := none }).leftQueue c 0).deliverPort c f p v)
    | _ => .next s
  | none => .next s

end Sys2Proof.Machine
end

