-- ==== Sys2Proof/Machine/Replies.lean ====
section
/-! DEFINITION. Sys2Proof/Machine/Replies.lean: the replies, and a wayfarer's arrival and its acknowledgement (R101, R104, R107, R165-R168, R284, R298, R312). -/

namespace Sys2Proof.Machine

/-! ### Replies (R104, R284, R298) -/

/-- A message of an engine that has come back to its job (R101); one whose job is no longer there is discarded with an
error record (R105). -/
def State.engineReply (s : State) (core : Coord) (id : Nat) (f : EngineJob → EngineJob) : State :=
  match s.activeJob core id, s.runningJob core id with
  | some j, _ => s.porterReply (f j)
  | none, some j => s.setRunning { f j with outstanding := j.outstanding - 1 }
  | none, none => s.report core (errorRecord 0 core s.ts)

/-- What a DATA reply holds. -/
def Payload.served : Payload → Served
  | .bytes l => .bytes l
  | .capability l tag => .cap l tag
  | _ => .ack

/-- DATA (R104). -/
def execDataRpl (src dst : Coord) (s : State) : Answer :=
  delivery 0x40 src dst (fun t f =>
    some (match f.pay with
      | .bytes _ | .capability _ _ => t.receive f fun p q => p.take q.runs q.addr f.pay.served
      | _ => t.refuseMessage f)) s

/-- A BARWAIT is answered with retry (R312): it waits before it is sent again. -/
def State.retryLater (s : State) (f : Flight) (i : Nat) : State :=
  (s.modSlot f.dst i fun x => { x with st := .waiting, await := .retry s.ts.toNat, pend := none }).releaseTag f.dst f.tag |>.leaves f.dst i

/-- The reply answers a BARWAIT, whose phase comes as DATA. -/
def State.asksRetry (s : State) (f : Flight) : Option Nat :=
  match s.requester f.dst f.tag with
  | some (i, p, _) => match p.fin with | .barWait _ => some i | _ => none
  | none => none

/-- ACK (R104): of a store, of a handler without a result, or of an engine's write. -/
def execAckRpl (src dst : Coord) (s : State) : Answer :=
  delivery 0x41 src dst (fun t f =>
    some (match f.pay with
      | .engine core n _ _ _ _ _ => t.engineReply core n fun j => j
      | _ =>
        match t.asksRetry f with
        | some i => t.retryLater f i
        | none => t.receive f fun p _ => p)) s

/-- The address of a FAULT reply in the terms of the instruction's access: the piece's own address, as far on as the reply's
is beyond ADDR of its request, in a page that may have moved since (R89, R104, R421, log 24). -/
def Piece.faultAddr (q : Piece) (a : Word) : Nat := q.addr + (a.toNat % 65536 - q.pa % 65536)

/-- FAULT (R104): EADDR receives the address that the reply carries. -/
def execFaultRpl (src dst : Coord) (s : State) : Answer :=
  delivery 0x42 src dst (fun t f =>
    some (match f.pay with
      | .engineFault core id cause a => t.engineReply core id fun j => j.fail (some (cause, a))
      | .fault cause a => t.receive f fun p q => p.take q.runs (q.faultAddr a) (.fault cause)
      | _ => t.refuseMessage f)) s

/-- A NAK of a reason (R284, R298). -/
def Pending.refusedBy (p : Pending) (q : Piece) (reason : Nat) : Pending :=
  match p.fin with
  | .send _ _ => { p with out := reason + 1 }
  | .sendx _ _ => { p with out := reason + 1 }
  | _ => p.noteFault (firstPlace q.runs) 0x0A (word q.addr)

/-- NAK (R284). -/
def execNakRpl (src dst : Coord) (s : State) : Answer :=
  delivery 0x43 src dst (fun t f =>
    match f.pay with
    | .reason r => some (t.receive f fun p q => p.refusedBy q r)
    | _ => some (t.refuseMessage f)) s

/-- HREPLY (R298). -/
def execHreply (src dst : Coord) (s : State) : Answer :=
  delivery 0x44 src dst (fun t f =>
    match f.pay with
    | .bytes l => some (t.receive f fun p _ => { p with out := 1, rlen := l.length, buf := scatter [(0, 0, l.length)] l p.buf })
    | _ => some (t.refuseMessage f)) s

/-! ### Wayfarers (R107, R165-R168) -/

/-- The slot of a wayfarer that has arrived (R165, R166, R168). -/
def wayfarerSlot (j : Job) (x : Slot) (c : Context) : Slot :=
  let n := c.stat.toNat
  { gen := x.gen, st := .ready, wayfarer := true, pc := { j.code with addr := c.pca }
    g := c.g.zipIdx.map fun (a, i) => (i, a)
    priv := bit n 3, pri := bits n 5 4, mpol := bits n 7 6, hops := min (bits n 39 32 + 1) 255, mem := c.mem }

/-- An Empty slot that no leader reserves, the lowest first (R168, R170). -/
def Core.emptySlot (x : Core) (n : Nat) : Option Nat :=
  findBelow n fun i => i != 0 && (x.slotAt i).st == .empty && (x.slotAt i).gang.leader.isNone

/-- WAYFARER (R107): accepted by a core of the wayfarer's job with a free slot, and refused otherwise; it waits in the landing
buffer while a change of the partition holds off placement (R395). -/
def execWayfarer (src dst : Coord) (s : State) : Answer :=
  delivery 0x60 src dst (fun t f =>
    match f.pay with
    | .wayfarer ctx =>
      let x := t.coreAt dst
      if x.owner = some ctx.mem.job then
        match x.emptySlot (slotCount dst) with
        | some i =>
          if x.partPending.isSome then none
          else some ((t.modSlot dst i fun y => wayfarerSlot (t.jobAt ctx.mem.job) y ctx).post (f.answer 0x45 (.reason 1)))
        | none => some (t.post (f.answer 0x45 (.reason 0)))
      else some (t.post (f.answer 0x45 (.reason 0)))
    | _ => some (t.refuseMessage f)) s

/-- The wayfarer stays (R107, R168, R304). -/
def State.stayHome (s : State) (c : Coord) (i : Nat) : State :=
  let t : State := { s with core := c, slot := i }
  match t.sl.pend with
  | some p =>
    match p.fin with
    | .migrate d => settle p.len {} (.done (t.writeInt d 0))
    | _ => t.modSl fun x => { x with st := .ready, pend := none, noMigrate := true }
  | none => t.modSl fun x => { x with st := .ready }

/-- A pre-emption request made while the wayfarer was in transit applies where it has gone (R188). -/
def State.carryMark (s : State) (to_ : Coord) (x : Slot) : State :=
  match x.mark, findBelow (slotCount to_) fun i => (s.slotAt to_ i).wayfarer && (s.slotAt to_ i).mem == x.mem with
  | some since, some i => s.modSlot to_ i fun y => { y with mark := some since }
  | _, _ => s

/-- MIGACK (R107), which finds the wayfarer by its tag: the origin frees the slot, or the thread resumes in it. One whose
tag is not outstanding leaves an error record (R105). -/
def execMigack (src dst : Coord) (s : State) : Answer :=
  delivery 0x45 src dst (fun t f =>
    match t.requester dst f.tag with
    | some (i, _, _) =>
      let x := t.slotAt dst i
      let u := t.releaseTag dst f.tag
      match f.pay with
      | .reason 1 => some (((u.vacate dst i).carryMark src x).wakeRoom dst)
      | _ => some (u.stayHome dst i)
    | none => some (t.receive f fun p _ => p)) s

end Sys2Proof.Machine
end

