-- ==== Sys2Proof/Machine/System.lean ====
section
/-! DEFINITION. Sys2Proof/Machine/System.lean: breakpoints, system calls, the return from a trap, system registers, partition, translation and core control (R229, R393-R396, R398-R400, R418-R421). -/

namespace Sys2Proof.Machine

/-! ### Traps and the return from them (R393, R394) -/

/-- A breakpoint: EPC is the instruction, EADDR the immediate (R393, R421). -/
def breakAt (len a : Nat) (s : State) : Answer := issue s len {} fun t => .trap t 0x14 (word a)

/-- BRK (R393). -/
def execBrk (i : BitVec 12) (s : State) : Answer := breakAt 4 i.toNat s

/-- C.S BRK (R213). -/
def execCBrk (i : BitVec 10) (s : State) : Answer := breakAt 2 i.toNat s

/-- TRAP (R393, R418): a system call, with EPC the next instruction and EADDR the immediate. -/
def execTrap (i : BitVec 12) (s : State) : Answer := issue s 4 {} fun t => .trapNext t 0x15 (word i.toNat) false

/-- The thread executes inside the trap routine of its privilege (R418). -/
def inRoutine (x : Slot) : Bool := if x.priv then x.inSystem else x.inUser

/-- ERET (R394): illegal outside a trap routine; it lands the routine's results, checks its target, and restores what
the trap saved. -/
def execEret (s : State) : Answer :=
  if inRoutine s.sl then
    issue s 4 { sync := true } fun t =>
      let target := eretTarget t.sl
      match targetFault t target with
      | some cause => .trap t cause target.addr
      | none =>
        let u := t.modSl fun x => leaveTrap x target
        .gone (u.modCr fun y => t.cr.slotGoes y t.ts)
  else .next (s.takeTrap 0x01 s.sl.pc.addr s.fetched)

/-! ### System registers (R229, R393) -/

/-- The register number is no register at this privilege (R229). -/
def registerIllegal (s : State) (i : BitVec 12) : Bool := !(if s.sl.priv then listedRegister i.toNat else userRegister i.toNat)

/-- A system-register instruction whose number has been checked. -/
def registerOp (u : Uses) (i : BitVec 12) (pre : State → Option Nat) (body : State → Ret) (s : State) : Answer :=
  if registerIllegal s i then .next (s.takeTrap 0x01 s.sl.pc.addr s.fetched) else issuePre s 4 u pre body

/-- The register named by the issuing slot. -/
def State.ownReg (t : State) (i : BitVec 12) : Word := t.readReg t.core t.slot i.toNat

/-- Its write at the issuing privilege: `none` for an invalid value. -/
def State.writeOwn (t : State) (i : BitVec 12) (x : Word) : Option State := t.writeReg t.core t.slot i.toNat x t.sl.priv

/-- An invalid value raises illegal operand (R229). -/
def valueCheck (i : BitVec 12) (f : State → Word) (t : State) : Option Nat :=
  if (t.writeOwn i (f t)).isNone then some 0x02 else none

/-- The state after a write whose value was checked. -/
def State.written (t : State) (i : BitVec 12) (x : Word) : State := (t.writeOwn i x).getD t

/-- SRR (R393). -/
def execSrr (d : GReg) (i : BitVec 12) (s : State) : Answer :=
  registerOp (usesG [d] []) i noPre (fun t => .done (t.writeInt d (t.ownReg i))) s

/-- SRW (R393). -/
def execSrw (a : GReg) (i : BitVec 12) (s : State) : Answer :=
  registerOp (usesG [] [a]) i (valueCheck i fun t => t.ga a) (fun t => .done (t.written i (t.ga a))) s

/-- A write that returns the old value (R393). -/
def modifyReg (f : Word → Word → Word) (d a : GReg) (i : BitVec 12) (s : State) : Answer :=
  registerOp (usesG [d] [a]) i (valueCheck i fun t => f (t.ownReg i) (t.ga a))
    (fun t => .done ((t.written i (f (t.ownReg i) (t.ga a))).writeInt d (t.ownReg i))) s

/-- SRS (R393). -/
def execSrs (d a : GReg) (i : BitVec 12) (s : State) : Answer := modifyReg (fun old x => old ||| x) d a i s

/-- SRC (R393). -/
def execSrc (d a : GReg) (i : BitVec 12) (s : State) : Answer := modifyReg (fun old x => old &&& ~~~x) d a i s

/-- TSREAD (R399): every earlier access has been performed when it issues. -/
def execTsread (d : GReg) (s : State) : Answer := issue s 4 (usesG [d] []) fun t => .done (t.writeInt d t.ts)

/-! ### Partition, curves, halting (R395, R398, R400) -/

/-- PARTSET (R395): in the handler slot's system routine only; it stalls until R56 holds. -/
def execPartset (a : GReg) (s : State) : Answer :=
  issuePre s 4 { usesG [] [a] with sysOnly := true }
    (fun t => if !t.inHandler || !partwValid t.core (t.ga a) then some 0x02 else none) fun t =>
    if t.quiet t.core then
      .done ((t.setPartition t.core (t.ga a)).modCr fun x => { x with eng := { x.eng with bank := false } })
    else
      .stay ((t.modCr fun x => { x with partPending := some (t.ga a) }).awaiting .stalled .room)

/-- CURVE (R398): the 192-byte image read as a plain load. -/
def execCurve (a : GReg) (c : BitVec 2) (s : State) : Answer :=
  issue s 4 (usesG [] [a]) fun t =>
    t.access 4 (t.g a) loadNeed .load (.curve c.toNat) (partsOf t.core (t.ga a).toNat 192 0)

/-- HALT (R400): the core stops issuing; a handler that runs completes first, since no thread issues while it is Ready. -/
def execHalt (s : State) : Answer :=
  issue s 4 { sysOnly := true } fun t => .done (t.modCr fun x => { x with halted := true })

/-! ### Invalidation (R396) -/

/-- A page overlaps the range from `lo` to `hi`; an empty range names the page of `lo` (R396). -/
def pageOverlaps (va shift lo hi : Nat) : Bool :=
  let p := va / 2 ^ shift * 2 ^ shift
  p < max hi (lo + 1) && lo < p + 2 ^ shift

/-- A translation is dropped by an invalidation of a kind (R396). -/
def dropped (kind job lo hi : Nat) (t : Translation) : Bool :=
  match kind with
  | 0 => t.job == job && pageOverlaps t.va t.shift lo hi
  | 1 => t.job == job
  | _ => true

/-- The SHOOTs of an invalidation: one to each die, for its cores' and its own TLB, and one to the walkers (R396). They are
one broadcast, which takes one send-queue entry (log 14). -/
def shootTargets : List Coord := (List.range 16).map dieScheduler ++ [walkers]

/-- The SHOOT of an invalidation to one of its targets. -/
def State.shootTo (t : State) (kind lo hi : Nat) (dst : Coord) (i : Nat) : Piece × Flight :=
  ({ tag := 0, addr := 0, runs := [] },
   { dst, src := t.core, op := 0xC5, rq := true, slot := t.slot, gen := t.sl.gen
     pay := .shoot kind t.jobNo lo hi, via := if i = 0 then t.via else .mesh })

/-- TLBINV (R396): it retires when all have answered. A thread stalls while its send queue is full, and a handler takes
send-queue full (R116). -/
def execTlbinv (a b : GReg) (k : BitVec 2) (s : State) : Answer :=
  issue s 4 { usesG [] [a, b] with sysOnly := true } fun t =>
    let lo := (t.ga a).toNat
    let todo := shootTargets.zipIdx.map fun (dst, i) => t.shootTo k.toNat lo (lo + (t.ga b).toNat) dst i
    if !t.sendRoom false then
      (if t.inHandler then .trap t 0x0D (word (dieScheduler 0).toNat) else .stay (t.awaiting .stalled .room))
    else
      let u := t.modSl fun x =>
        { x with st := .stalled, await := .none, pend := some { pieces := [], todo, len := 4, fin := .silent } }
      .stay (u.pumpSlot 32 u.core u.slot)

end Sys2Proof.Machine
end

