-- ==== Sys2Proof/Machine/Services.lean ====
section
/-! DEFINITION. Sys2Proof/Machine/Services.lean: the system messages and the timers of a core: probes, named events, walks, invalidations, records, waits (R113-R116, R277, R312, R315, R316, R396, R413, R422, R437, R438, R448). -/

namespace Sys2Proof.Machine

/-! ### Blocked queues and probes (R111-R115) -/

/-- A probe to the queue (d, r); its TAG names the queue (log 12). -/
def probeTo (src : Coord) (d : Coord) (r : Nat) (origin : Coord) (q hops : Nat) : Flight :=
  { dst := d, src, op := 0xC0, tag := r, pay := .probe origin q hops }

/-- The last time that a queue had room. -/
def State.roomSince (s : State) (c : Coord) (q : Nat) : Nat := look 0 (s.coreAt c).msg.roomAt q

/-- A blocking that began at `since` has lasted without a break: neither the queue nor the one it waits on has had room, nor has
the handler slot gone on that a REQ queue waits for (R113, R128). -/
def State.unbroken (s : State) (c : Coord) (q : Nat) (d : Coord) (r since : Nat) : Bool :=
  s.roomSince c q ≤ since && s.roomSince d r ≤ since && (q != 0 || s.roomSince c 7 ≤ since)

/-- 1,024 cycles of the endpoint; outside the tiers, ticks of TSNOW (R113). -/
def State.blockedLong (s : State) (c : Coord) (since : Nat) : Bool :=
  if coreExists c then s.elapsed c since 1024 else 1024 ≤ s.ts.toNat - since

/-- QUEUE_BLOCKED_TIMEOUT (R113): a blocking is noted, and after 1,024 cycles of it without a break a probe is sent and the
time counts again. Nothing counts while injection is held. -/
def execQueueBlockedTimeout (c : Coord) (q : Nat) (s : State) : Answer :=
  let note (t : State) : State := t.modMsg c fun m => { m with blocked := put (m.blocked.filter (·.1 != q)) q s.ts.toNat }
  if s.pkg.injectionHeld then .next s else
  match s.blockedOn c q with
  | none => .next (s.modMsg c fun m => { m with blocked := m.blocked.filter (·.1 != q) })
  | some (d, r) =>
    match (s.coreAt c).msg.blocked.find? (·.1 == q) with
    | none => .next (note s)
    | some (_, since) =>
      if s.unbroken c q d r since then stepIf s (s.blockedLong c since) ((note s).post (probeTo c d r c q 0)) else .next (note s)

/-- PROBE (R114, R115): the origin opens its spare room, unless it is in use; a blocked queue forwards the probe, and any
other discards it. -/
def execProbe (src dst : Coord) (s : State) : Answer :=
  delivery 0xC0 src dst (fun t f =>
    match f.pay with
    | .probe origin q hops =>
      if origin = dst ∧ q = f.tag then
        some (t.modMsg dst fun m => if m.spare.contains q then m else { m with spare := q :: m.spare })
      else
        match t.blockedOn dst f.tag with
        | some (d, r) => some (if 64 ≤ hops + 1 then t else t.post (probeTo dst d r origin q (hops + 1)))
        | none => some t
    | _ => some (t.refuseMessage f)) s

/-- THREAD_SEND_QUEUE_ROOM (R111, R116): the oldest entry of the thread send queue enters the mesh, where its endpoint has room for
it, and slot `i`, Stalled on the full queue, goes on. -/
def execThreadSendQueueRoom (c : Coord) (i : Nat) (s : State) : Answer :=
  match s.net.findIdx? fun f => f.standsIn == some (c, 4) with
  | some n =>
    match s.net[n]? with
    | some f =>
      let t := s.setFlight n { f with via := .mesh }
      let t := t.modSlot c i fun x => if x.st == .stalled && x.await == .room then { x with st := .ready } else x
      stepIf s (s.mayEnter f) ((t.leftQueue c 4).pump c)
    | none => .next s
  | none => .next s

/-! ### Waits with a time (R277, R312) -/

/-- A Waiting slot whose wait satisfies `p` becomes Ready and evaluates its instruction afresh. -/
def State.wakeIf (s : State) (c : Coord) (i : Nat) (p : Await → Bool) : State :=
  s.modSlot c i fun x => if x.st == .waiting && p x.await then { x with st := .ready } else x

/-- WAIT_DEADLINE (R277). -/
def execWaitDeadline (c : Coord) (i : Nat) (s : State) : Answer :=
  .next (s.modSlot c i fun x => x.endWait (s.coreAt c) s.ts.toNat)

/-- BARWAIT_RETRY (R312): the request is sent again. -/
def execBarwaitRetry (c : Coord) (i : Nat) (s : State) : Answer :=
  .next (s.wakeIf c i fun w => match w with | .retry since => s.elapsed c since 256 | _ => false)

/-! ### Named events (R314-R316, R413) -/

def State.eventAt (s : State) (name : Nat) : EventState := look {} (s.dieAt (name / 4096)).events (name % 4096)
def State.setEvent (s : State) (name : Nat) (e : EventState) : State :=
  let d := s.dieAt (name / 4096)
  s.setDie (name / 4096) { d with events := put d.events (name % 4096) e }

/-- OVF: records of the event stand in the overflow queue, or wait for it to be extended (R314, R316). -/
def EventState.ovf (e : EventState) : Bool := !e.overflow.isEmpty || !e.extending.isEmpty

/-- The state word (R314). -/
def EventState.word (e : EventState) : Word :=
  Machine.word (at_ 63 (b2n e.set) + at_ 62 (b2n e.ovf) + at_ 32 e.waiters.length + e.nsig % 2 ^ 32)

/-- Waiters in a board's wait list (R316). -/
def Die.waiting (d : Die) : Nat := (d.events.map fun (_, e) => e.waiters.length).foldl (· + ·) 0

/-- The overflow queue is full and firmware is to extend it: firmware's size is 64 records at a time (log 12). -/
def EventState.queueFull (e : EventState) : Bool := !e.extending.isEmpty || (!e.overflow.isEmpty && e.overflow.length % 64 == 0)

/-- A waiter woken (R315, R316): the WAKE holds the event's name (R101) and the state word that the EVWAIT returns. -/
def State.sendWake (s : State) (name : Nat) (w : Flight) (x : Word) : State :=
  s.post { dst := w.src, src := dieScheduler (name / 4096), op := 0xC2, th := true, slot := w.slot, gen := w.gen
           tag := w.tag, pay := .woken name x }

/-- EVSIG at the home (R315, R316): the in-table waiters wake in arrival order, and the overflow records are covered, with the
entries that wait for the overflow queue. -/
def State.signal (s : State) (name : Nat) : State :=
  let e := s.eventAt name
  let e' := { e with set := true, nsig := (e.nsig + 1) % 2 ^ 32, waiters := [], covered := e.overflow.length + e.extending.length }
  e.waiters.foldl (fun t w => t.sendWake name w e'.word) (s.setEvent name e')

/-- A waiter's answer when it passes at once (R315). -/
def eventAnswer (f : Flight) (x : Word) : Flight := f.answer 0x40 (.bytes (leBytes 8 x.toNat)) 7

/-- The entry of a waiter (R316). -/
def EventState.enter (e : EventState) (listFull : Bool) (f : Flight) : EventState :=
  if !e.ovf && !listFull then { e with waiters := e.waiters ++ [f] }
  else if e.queueFull then { e with extending := e.extending ++ [f] }
  else { e with overflow := e.overflow ++ [f] }

/-- EVENT (R315): one operation at its home. -/
def execEvent (src dst : Coord) (s : State) : Answer :=
  delivery 0xC1 src dst (fun t f =>
    match f.pay with
    | .event op name =>
      let e := t.eventAt name
      let ack (u : State) : State := if f.rq then u.post (f.answer 0x41 .none) else u
      match op with
      | .sig => some (ack (t.signal name))
      | .clr => some (ack (t.setEvent name { e with set := false }))
      | .qry => some (t.post (eventAnswer f e.word))
      | .wait =>
        if e.set then some (t.post (eventAnswer f e.word))
        else some (t.setEvent name (e.enter (16384 ≤ (t.dieAt (name / 4096)).waiting) f))
    | _ => some (t.refuseMessage f)) s

/-- OVERFLOW_REPLAY (R316): the oldest overflow record that a signal covers is woken. -/
def execOverflowReplay (name : Nat) (s : State) : Answer :=
  let e := s.eventAt name
  match e.overflow with
  | w :: r =>
    let e' := { e with overflow := r, covered := e.covered - 1 }
    stepIf s (0 < e.covered) ((s.setEvent name e').sendWake name w e'.word)
  | [] => .next s

/-- OVERFLOW_QUEUE_EXTEND (R316): the entries that waited are made; what a signal has covered meanwhile the replay wakes. -/
def execOverflowQueueExtend (name : Nat) (s : State) : Answer :=
  let e := s.eventAt name
  .next (s.setEvent name { e with overflow := e.overflow ++ e.extending, extending := [] })

/-- A saved thread's EVWAIT returns the state word of its wake and does not execute again (R316). -/
def SavedThread.woken (x : SavedThread) (w : Word) : SavedThread :=
  match x.slot.pend with
  | some p =>
    match p.fin with
    | .word d => { x with slot := retireSlot { x.slot with g := put x.slot.g d.toNat (Cap.ofWord w) } p.len [] none }
    | _ => x
  | none => x

/-- The saved thread that a wake names. -/
def savedWaiter (f : Flight) (x : SavedThread) : Bool :=
  x.core == f.dst && x.idx == f.slot && x.slot.gen == f.gen && match x.slot.await with | .event _ => true | _ => false

/-- A wake for a saved unit (R413). -/
def State.wakeSaved (s : State) (f : Flight) (w : Word) : State :=
  let t := s.markSaved (savedWaiter f)
  { t with dies := t.dies.map fun (d, x) =>
      (d, { x with saved := x.saved.map fun u =>
        { u with threads := u.threads.map fun y => if savedWaiter f y then y.woken w else y } }) }

/-- WAKE (R128, R413, R316): the waiter is Ready with the state word; a wake whose slot has another thread goes to the saved
unit. Its tag is free. -/
def execWake (src dst : Coord) (s : State) : Answer :=
  delivery 0xC2 src dst (fun t f =>
    let x := t.slotAt dst f.slot
    let w := match f.pay with | .woken _ x => x | _ => 0
    let live := x.st == .waiting && x.gen == f.gen && match x.await with | .event _ => true | _ => false
    if live then
      match x.pend with
      | some p =>
        let u := p.pieces.foldl (fun v q => v.releaseTag dst q.tag) t
        some (u.concludeSlot dst f.slot { p with pieces := [], buf := scatter [(0, 0, 8)] (leBytes 8 w.toNat) [] })
      | none => some t
    else some ((if (t.coreAt dst).msg.tags.contains f.tag then t.releaseTag dst f.tag else t).wakeSaved f w)) s

/-! ### Walks and invalidations (R396, R436-R438) -/

/-- A wait for a page that a translation of this place and size covers. -/
def awaitsPage (job : Nat) (space : Space) (va shift : Nat) : Await → Bool
  | .walk j sp v _ _ => j == job && sp == space && v / 2 ^ shift == va / 2 ^ shift
  | _ => false

/-- WALK (R437, R438): the walkers make one walk, for this WALK and for the others to the page that have come; a page that is not
resident is requested of firmware, unless it is poisoned. -/
def execWalk (src dst : Coord) (s : State) : Answer :=
  delivery 0xC3 src dst (fun t f =>
    match f.pay with
    | .walk job space va _ =>
      let same (g : Flight) : Bool := match g.pay with
        | .walk j sp v _ => g.op == 0xC3 && j == job && sp == space && v / 2 ^ 16 == va / 2 ^ 16
        | _ => false
      let others := (t.queued dst 2).filter same
      let t := others.foldl State.takeOut t
      let answer (u : State) (p : Payload) : State := (f :: others).foldl (fun u g => u.post (g.answer 0xC4 p)) u
      match t.walk job space va with
      | .leaf entry shift => some (answer t (.translation job space va entry shift (t.pagePoisoned job space va shift)))
      | .fail level malformed => some (answer t (.walkFault job space va level malformed))
      | .absent entry shift =>
        if t.pagePoisoned job space va shift then some (answer t (.translation job space va entry shift true))
        else some (answer (t.askResident job space va) (.walkAbsent job space va))
    | _ => some (t.refuseMessage f)) s

/-- The cores of a die with a slot that waits for a page. -/
def State.waitingCores (s : State) (die : Nat) (p : Await → Bool) : List Coord :=
  (s.cores.filter fun (k, x) => (coordOf k).die == die && x.slots.any fun (_, y) => y.st == .stalled && p y.await).map
    fun (k, _) => coordOf k

/-- A translation fills the die TLB and every waiting core TLB of the die, and the accesses go on (R437). -/
def State.fill (s : State) (die : Nat) (x : Translation) : State :=
  let waits := awaitsPage x.job x.space x.va x.shift
  let d := s.dieAt die
  (s.waitingCores die waits).foldl (fun t c =>
      ((t.modCore c fun y => { y with tlb := addTranslation 64 y.tlb x }).wake c waits).wakeRoom c)
    (s.setDie die { d with tlb := addTranslation 8192 d.tlb x })

/-- The slots of a core that wait for a page take the fault of its walk (R438). -/
def State.failSlots (s : State) (c : Coord) (p : Await → Bool) : State :=
  let t := (List.range (slotCount c)).foldl (fun (t : State) i =>
    let x := t.slotAt c i
    match x.await with
    | .walk _ _ _ cause eaddr =>
      if x.st == .stalled && p x.await then { t with core := c, slot := i }.takeTrap cause x.pc.addr eaddr else t
    | _ => t) s
  t.wakeRoom c

/-- A failed walk (R438). -/
def State.failWalk (s : State) (die job : Nat) (space : Space) (va level : Nat) (malformed : Bool) : State :=
  let waits := awaitsPage job space va 16
  (s.waitingCores die waits).foldl (fun t c =>
    (t.walkFailed c va level malformed).failSlots c waits) s

/-- The answer to a die's walk has come: the walk, when it was asked for. -/
def State.walkAsked (s : State) (die job : Nat) (space : Space) (va : Nat) : Option Walk :=
  (s.dieAt die).walks.find? fun w => w.job == job && w.space == space && w.page == va / 2 ^ 16

/-- The die asks for that walk no longer. -/
def State.walkAnswered (s : State) (die job : Nat) (space : Space) (va : Nat) : State :=
  let d := s.dieAt die
  s.setDie die { d with walks := d.walks.filter fun w => !(w.job == job && w.space == space && w.page == va / 2 ^ 16) }

/-- The accesses of a die that wait for a page translate afresh. -/
def State.retryPage (s : State) (die job : Nat) (space : Space) (va : Nat) : State :=
  let waits := awaitsPage job space va 16
  (s.waitingCores die waits).foldl (fun t c => (t.wake c waits).wakeRoom c) s

/-- WALKRPL (R437, R438): nothing is cached of a walk that fails or ends at a page that is not resident, nor of one that an
invalidation has covered since it was asked for: its accesses translate afresh (R440). -/
def execWalkrpl (src dst : Coord) (s : State) : Answer :=
  delivery 0xC4 src dst (fun t f =>
    let answered (job : Nat) (space : Space) (va : Nat) (end_ : State → State) : State :=
      let u := t.walkAnswered dst.die job space va
      match t.walkAsked dst.die job space va with
      | some w => if w.stale then u.retryPage dst.die job space va else end_ u
      | none => end_ u
    match f.pay with
    | .translation job space va entry shift poisoned =>
      some (answered job space va fun u => u.fill dst.die { job, space, va := va / 2 ^ shift * 2 ^ shift, shift, entry, poisoned })
    | .walkFault job space va level malformed => some (answered job space va fun u => u.failWalk dst.die job space va level malformed)
    | .walkAbsent job space va =>
      -- the page may have come back, or have been lost, meanwhile (R438)
      let absent : Bool := match t.walk job space va with
        | .absent _ shift => !t.pagePoisoned job space va shift
        | _ => false
      some (answered job space va fun u => if absent then u else u.retryPage dst.die job space va)
    | _ => some (t.refuseMessage f)) s

/-- The accesses of the cores of a die, translated already, that are still on their way (R396). -/
def State.accessesOut (s : State) (die : Nat) : List Flight :=
  let mine (f : Flight) : Bool := f.src.die == die && (f.op < 0x06 || f.op == 0x70 || f.op == 0x71)
  s.net.filter mine ++ s.cores.flatMap fun (k, x) =>
    x.msg.waitingAtomic.filter mine ++ if (coordOf k).die = die then
      x.slots.flatMap fun (_, y) => match y.pend with
        | some p => (p.todo.filter fun (_, f) => f.op < 0x06).map fun (_, f) => f
        | none => []
    else []

/-- Two messages are the same request, wherever they stand. -/
def Flight.same (f g : Flight) : Bool := { f.placeless with tag := 0 } == { g.placeless with tag := 0 }

/-- The TLBs of a die lose what an invalidation names, and the answers to walks under way are not to be installed
(R396, R440). -/
def State.dropDie (s : State) (die kind job lo hi : Nat) : State :=
  let keep (l : List Translation) : List Translation := l.filter fun x => !dropped kind job lo hi x
  let covers (w : Walk) : Bool := dropped kind job lo hi { job := w.job, space := w.space, va := 65536 * w.page, shift := 16, entry := 0 }
  let d := s.dieAt die
  let t := s.setDie die { d with tlb := keep d.tlb, walks := d.walks.map fun w => { w with stale := w.stale || covers w } }
  { t with cores := t.cores.map fun (k, x) => if (coordOf k).die = die then (k, { x with tlb := keep x.tlb }) else (k, x) }

/-- An invalidation of a die can be answered: the accesses that were translated before it have been performed, and the walks
that it covers have been answered (R396, R440). -/
def State.shootDone (s : State) (die : Nat) (x : Shoot) : Bool :=
  let out := s.accessesOut die
  x.waits.all (fun f => !out.any f.same) && (s.dieAt die).walks.all fun w => !w.stale

/-- A die answers the invalidations that can be answered. -/
def State.answerShoots (s : State) (die : Nat) : State :=
  let d := s.dieAt die
  let (ready, left) := d.shoots.partition (s.shootDone die)
  ready.foldl (fun t x => t.post (x.msg.answer 0x41 .none)) (s.setDie die { d with shoots := left })

/-- SHOOT (R105, R396): it is taken at once. The walkers answer; a die drops its translations, and answers when the accesses
of its cores that were translated before have been performed. -/
def execShoot (src dst : Coord) (s : State) : Answer :=
  delivery 0xC5 src dst (fun t f =>
    match f.pay with
    | .shoot kind job lo hi =>
      if dst = walkers then some (t.post (f.answer 0x41 .none))
      else
        let u := t.dropDie dst.die kind job lo hi
        let d := u.dieAt dst.die
        some ((u.setDie dst.die { d with shoots := d.shoots ++ [{ msg := f, waits := t.accessesOut dst.die }] }).answerShoots dst.die)
    | _ => some (t.refuseMessage f)) s

/-! ### Records (R422, R425, R448) -/

/-- An error of a unit (R448, R449): a record that names it, and a targeted self-test; another error while the test runs
counts as a failed pass of it. Kinds: 0 bank `idx` of a core's pool, 1 vertical bus `idx` of a cluster, 2 the mesh link or
bridge from router `place` to router `idx`, 3 HBM row `idx` of a home agent, 4 lane `idx` of a fabric port, 5 the stair link
of a core to its parent. -/
def State.unitError (s : State) (kind : Nat) (place : Coord) (idx : Nat) : State :=
  let src := match kind with | 1 => homeAgent place.die | 2 => firmware | _ => place
  let t := s.report src (errorRecord 0 src s.ts ||| BitVec.ofNat 512 (at_ 216 kind + at_ 200 place.toNat + at_ 168 (idx % 2 ^ 32)))
  let same (x : SelfTest) : Bool := x.kind == kind && x.place == place && x.idx == idx
  let counted := t.pkg.selfTests.map fun x => if same x then { x with errors := x.errors + 1 } else x
  let selfTests := if t.pkg.selfTests.any same then counted else counted ++ [{ kind := kind, place := place, idx := idx }]
  { t with pkg := { t.pkg with selfTests } }

/-- A job that is lost: firmware ends it with status 0x10 (R406, R422, R426, R447, R452). -/
def State.loseJob (s : State) (j : Nat) : State := s.setJob j { s.jobAt j with lost := true }

/-- A record put among those that firmware holds, newest first by their timestamps (R450). -/
def insertRecord (e : Entry) (l : List Entry) : List Entry :=
  let later (x : Entry) : Bool := bits e.toNat 415 352 < bits x.toNat 415 352
  l.takeWhile later ++ e :: l.dropWhile later

/-- RECORD (R422, R426, R448): it reaches firmware, and the record of an unhandled trap or of a lost thread loses its job. -/
def execRecord (src dst : Coord) (s : State) : Answer :=
  delivery 0xC6 src dst (fun t f =>
    match f.pay with
    | .entry e =>
      let u := { t with pkg := { t.pkg with records := insertRecord e t.pkg.records } }
      let kind := bits e.toNat 511 504
      some (if kind = 0x10 ∨ kind = 0x11 then u.loseJob (bits e.toNat 447 416) else u)
    | _ => some (t.refuseMessage f)) s

end Sys2Proof.Machine
end

