-- ==== Sys2Proof/Machine/Tasks.lean ====
section
/-! DEFINITION. Sys2Proof/Machine/Tasks.lean: task records, deques and frames, level maps, and the task instructions (R57, R173, R178, R181, R320-R325, R387, R391, R392, R407). -/

namespace Sys2Proof.Machine

/-! ### Task records (R320) -/

def recShape (r : Record) : Nat := bits r.toNat 255 252
def recPri (r : Record) : Nat := bits r.toNat 251 250
/-- The gang size reserved. -/
def recGang (r : Record) : Nat := 2 ^ bits r.toNat 249 248
def recKernel (r : Record) : Nat := bits r.toNat 247 240
/-- Threads in each team. -/
def recThreads (r : Record) : Nat := bits r.toNat 239 232 + 1
/-- Band height and width in clusters. -/
def recHeight (r : Record) : Nat := bits r.toNat 231 228 + 1
def recWidth (r : Record) : Nat := bits r.toNat 227 225 + 1
/-- The event to signal at completion. -/
def recEvent (r : Record) : Option Nat := if bit r.toNat 206 then some (bits r.toNat 223 208) else none
def recInterrupt (r : Record) : Bool := bit r.toNat 207
def recPolicy (r : Record) : Nat := bits r.toNat 205 204
def recParent (r : Record) : Nat := bits r.toNat 199 176
def recArg0 (r : Record) : Word := word (bits r.toNat 127 64)
def recArg1 (r : Record) : Word := word (bits r.toNat 63 0)

/-- The record with PCTR written (R322). -/
def recWithParent (r : Record) (h : Nat) : Record :=
  BitVec.ofNat 256 (r.toNat - at_ 176 (recParent r) + at_ 176 (h % 2 ^ 24))

/-- Rows and columns of clusters of a die of a tier (R2, R3). -/
def clusterGrid (t : Nat) : Nat × Nat := match t with | 0 => (16, 8) | 1 => (8, 4) | 2 => (4, 2) | _ => (1, 1)

/-- Cores of a cluster and slots of a core of a tier (R2, R3, R160). -/
def tierCores (t : Nat) : Nat := if t = 3 then 4 else 8
def tierSlots (t : Nat) : Nat := match t with | 0 => 8 | 1 => 16 | 2 => 16 | _ => 32

/-- A valid record on a tier (R320). -/
def recordValid (j : Job) (t : Nat) (r : Record) : Bool :=
  let k := j.kernels[recKernel r]?
  recShape r ≤ 3 && k.isSome && (k.map (·.wayfarer)) == some (recShape r == 3) &&
  (recThreads r == 1 || recShape r == 1 || recShape r == 2) && recThreads r ≤ tierCores t * (tierSlots t - 1) &&
  (recGang r == 1 || recShape r == 0) && recGang r ≤ tierCores t &&
  ((recHeight r == 1 && recWidth r == 1) || recShape r == 2) &&
  recHeight r ≤ (clusterGrid t).1 && recWidth r ≤ (clusterGrid t).2 &&
  (recPolicy r == 0 || recShape r == 3) &&
  (match recEvent r with | some e => j.events.contains e | none => true) &&
  bits r.toNat 224 224 == 0 && bits r.toNat 203 200 == 0 && bits r.toNat 175 128 == 0

/-- The record in a register group: the lowest register holds the lowest bits (R320). -/
def State.recordAt (t : State) (q : GReg) : Record :=
  BitVec.ofNat 256 (joinBits 64 ((four q).map fun r => (t.ga r).toNat))

/-! ### Frames and spilled records (R57, R321) -/

/-- Words of a frame (R57). -/
def frameWords (quota : Nat) (mirrored : Bool) : Nat := if mirrored then 8 * quota + 16 else 4 * quota

/-- A word of the vector-register area that lies in a frame; words 0-31 are the handler's. -/
def Core.framed (x : Core) (w : Nat) : Bool :=
  w < 32 || x.slots.any fun (_, y) => match y.frame with
    | some f => f ≤ w && w < f + frameWords y.quota (y.mirmask != 0)
    | none => false

/-- The free words of the area, lowest first; a stripe is 31 words. -/
def Core.freeWords (x : Core) : List Nat := (List.range (31 * vrs x.partw)).filter fun w => !x.framed w

/-- Words that spilled records take: the highest free ones, two per record beyond 32 (R321). -/
def Core.spilled (x : Core) : Nat := 2 * (x.deque.length - 32)

/-- Room for `n` more records of the deque. -/
def Core.roomFor (x : Core) (n : Nat) : Bool := x.deque.length + n ≤ 32 || 2 * (x.deque.length + n - 32) ≤ x.freeWords.length

/-- Room for one more record of the deque. -/
def Core.dequeRoom (x : Core) : Bool := x.roomFor 1

/-- The lowest place for a frame of `n` words, a multiple of 4 (R57). -/
def Core.placeFrame (x : Core) (n : Nat) : Option Nat :=
  let free := x.freeWords.take (x.freeWords.length - x.spilled)
  (free.filter (· % 4 == 0)).find? fun f => (List.range n).all fun i => free.contains (f + i)

/-! ### Level maps (R178, R179, R387) -/

/-- Fields of a level entry. -/
def lvlTier (e : Nat) : Nat := bits e 63 62
def lvlDim (e : Nat) : Nat := bits e 61 60
def lvlDieLo (e : Nat) : Nat := bits e 59 56
def lvlDieHi (e : Nat) : Nat := bits e 55 52
def lvlRowLo (e : Nat) : Nat := bits e 51 46
def lvlColLo (e : Nat) : Nat := bits e 45 40
def lvlRowHi (e : Nat) : Nat := bits e 39 34
def lvlColHi (e : Nat) : Nat := bits e 33 28
/-- Points per core along axis 0, 1, 2. -/
def lvlPoints (e axis : Nat) : Nat :=
  (match axis with | 0 => bits e 27 20 | 1 => bits e 19 12 | _ => bits e 11 4) + 1

/-- The numbers from `lo` to `hi`. -/
def span (lo hi : Nat) : List Nat := (List.range (hi + 1 - lo)).map (lo + ·)

/-- The cores of a level, by die, row and column. -/
def levelCores (e : Nat) : List Coord :=
  (span (lvlDieLo e) (lvlDieHi e)).flatMap fun d => (span (lvlRowLo e) (lvlRowHi e)).flatMap fun r =>
    (span (lvlColLo e) (lvlColHi e)).map fun k => Coord.mk d r k

/-- A valid level entry (R178). -/
def levelValid (e : Nat) : Bool :=
  if lvlDim e = 0 then e == 0
  else
    bits e 3 0 == 0 && lvlDieLo e ≤ lvlDieHi e && lvlRowLo e ≤ lvlRowHi e && lvlColLo e ≤ lvlColHi e &&
    (lvlDim e ≥ 2 || bits e 19 12 == 0) && (lvlDim e == 3 || bits e 11 4 == 0) &&
    (levelCores e).all fun c => tierOf c == some (lvlTier e)

/-- The core lies in the level's rectangle. -/
def inLevel (e : Nat) (c : Coord) : Bool :=
  lvlDim e != 0 && lvlDieLo e ≤ c.die && c.die ≤ lvlDieHi e && lvlRowLo e ≤ c.row && c.row ≤ lvlRowHi e &&
  lvlColLo e ≤ c.col && c.col ≤ lvlColHi e

/-- The rank of a core in a level (R387). -/
def levelRank (e : Nat) (c : Coord) : Nat :=
  ((c.die - lvlDieLo e) * (lvlRowHi e + 1 - lvlRowLo e) + (c.row - lvlRowLo e)) * (lvlColHi e + 1 - lvlColLo e) +
    (c.col - lvlColLo e)

/-- The level map as the issuing thread sees it (R178, R181). -/
def State.levelMap (s : State) : Sparse Word := s.sl.mem.levels.getD s.job.levels
def State.levelEntry (s : State) (l : Nat) : Nat := (look 0 s.levelMap l).toNat

/-- A level task of level `l` has not completed (R181). -/
def State.levelBusy (s : State) (l : Nat) : Bool :=
  s.job.levelTasks.any fun (k, h) => k == l && !(s.counterAt h).over

/-! ### Queues (R407) -/

/-- The die queue of a core: die 15 has one for T2 and one for T3. -/
def Die.queueOf (d : Die) (t : Nat) : List Queued := if t = 3 then d.queueT3 else d.queue
def Die.withQueue (d : Die) (t : Nat) (q : List Queued) : Die := if t = 3 then { d with queueT3 := q } else { d with queue := q }

/-- A die queue has room: it holds 4,096 records. -/
def State.dieRoom (s : State) (d t : Nat) : Bool := ((s.dieAt d).queueOf t).length < 4096

/-- A record enters the tail of a die queue. -/
def State.enqueueDie (s : State) (d t : Nat) (q : Queued) : State :=
  s.setDie d ((s.dieAt d).withQueue t ((s.dieAt d).queueOf t ++ [q]))

/-- Hardware writes PCTR and counts the record in the job counter (R322). -/
def State.countChild (t : State) (h : Nat) : State :=
  t.setCounter h { t.counterAt h with count := (t.counterAt h).count + 1 }

/-- The index of a new counter, with its handle for a die (R320). -/
def State.newCounter (t : State) (die : Nat) (c : Counter) : Nat × State :=
  let h := at_ 20 die + t.pkg.nextCounter % 2 ^ 20
  (h, { t with pkg := { t.pkg with nextCounter := t.pkg.nextCounter + 1 } } |>.setCounter h c)

/-! ### The task instructions (R322) -/

/-- The uses of an instruction with a record group. -/
def groupUses (gw gr : List GReg) (q : GReg) : Uses := { usesG gw gr with bad := q.toNat % 4 != 0 }

/-- An invalid record raises illegal operand (R322). -/
def recordCheck (q : GReg) (t : State) : Option Nat :=
  if recordValid t.job (tier t.core) (t.recordAt q) then none else some 0x02

/-- QPUSH (R322). -/
def execQpush (d a : GReg) (s : State) : Answer :=
  issuePre s 4 (groupUses [d] (four a) a) (recordCheck a) fun t =>
    if !t.cr.dequeRoom then .done (t.writeInt d 0)
    else
      let r := recWithParent (t.recordAt a) t.job.counter
      .done (((t.modCr fun x => { x with deque := r :: x.deque }).countChild t.job.counter).writeInt d 1)

/-- QPOP (R322). -/
def execQpop (d a : GReg) (s : State) : Answer :=
  issue s 4 (groupUses (d :: four a) [] a) fun t =>
    match t.cr.deque with
    | [] => .done (t.writeInt d 0)
    | r :: rest =>
      let u := t.modCr fun x => { x with deque := rest }
      let u := ((four a).zip (splitBits 64 4 r.toNat)).foldl (fun v (q, w) => v.writeInt q (word w)) u
      .done (u.writeInt d 1)

/-- SPAWN (R322). -/
def execSpawn (d a : GReg) (z : BitVec 1) (s : State) : Answer :=
  issuePre s 4 (groupUses [d] (four a) a)
    (fun t => if recShape (t.recordAt a) = 2 ∧ z = 0 then some 0x02 else recordCheck a t) fun t =>
    let q : Queued := { record := recWithParent (t.recordAt a) t.job.counter, job := t.jobNo, since := t.ts.toNat }
    let cl := t.clusterAt t.core
    let d' := t.core.die
    let full := if z = 0 then 64 ≤ cl.queue.length else 4096 ≤ ((t.dieAt d').queueOf (tier t.core)).length
    if full then .done (t.writeInt d 0)
    else
      let u := if z = 0 then t.setCluster t.core { cl with queue := cl.queue ++ [q] } else t.enqueueDie d' (tier t.core) q
      .done ((u.countChild t.job.counter).writeInt d 1)

/-- LAUNCH (R324): the descriptor is read as a plain load, and then submitted. -/
def execLaunch (d a : GReg) (s : State) : Answer :=
  issue s 4 (usesG [d] [a]) fun t =>
    if t.inHandler then .trap t 0x0E 0
    else t.access 4 (t.g a) { l := true } .load (.descriptor d) (partsOf t.core (t.ga a).toNat 128 0)

/-- CPLSIG (R325): the issuing thread's own task. -/
def execCplsig (s : State) : Answer :=
  issue s 4 { bad := s.inHandler } fun t => .done (t.completeTask t.sl.mem.ctr)

/-- CPLSIG gq (R325): the task of a record that QPOP returned. -/
def execCplsigTask (a : GReg) (s : State) : Answer :=
  issue s 4 (groupUses [] (four a) a) fun t =>
    let r := t.recordAt a
    let u := State.decrement 2 t (recParent r)
    .done (u.raise (recParent r) (recEvent r) (recInterrupt r))

/-! ### Levels (R391, R392) -/

/-- LVLMAP (R391). -/
def execLvlmap (a : GReg) (l : BitVec 3) (s : State) : Answer :=
  issuePre s 4 (usesG [] [a]) (fun t => if levelValid (t.ga a).toNat then none else some 0x02) fun t =>
    if t.levelBusy l.toNat then .stay (t.awaiting .stalled .room)
    else .done (t.setJob t.jobNo { t.job with levels := put t.job.levels l.toNat (t.ga a) })

/-- The operands that LVLRUN refuses (R392). -/
def lvlrunCheck (a b : GReg) (l : BitVec 3) (t : State) : Option Nat :=
  let k := t.job.kernels[(t.ga a).toNat % 256]?
  if bits (t.ga a).toNat 63 8 != 0 || bits (t.ga b).toNat 63 16 != 0 || lvlDim (t.levelEntry l.toNat) == 0 ||
      k.isNone || (k.map (·.wayfarer)) == some true then some 0x02 else none

/-- The die queues of a level. -/
def levelDies (e : Nat) : List Nat := span (lvlDieLo e) (lvlDieHi e)

/-- LVLRUN (R392): one level task, counted in the job counter, with one thread on each core of the level. -/
def execLvlrun (a b : GReg) (p : BitVec 2) (l : BitVec 3) (s : State) : Answer :=
  issuePre s 4 (usesG [] [a, b]) (lvlrunCheck a b l) fun t =>
    let e := t.levelEntry l.toNat
    let event := (t.ga b).toNat
    if !t.job.events.contains event then trapFree t 0x07
    else if t.levelBusy l.toNat then .stay (t.awaiting .stalled .room)
    else if (levelDies e).any fun d => 4096 ≤ ((t.dieAt d).queueOf (lvlTier e)).length then
      .stay (t.awaiting .stalled .room)
    else
      let parent := t.job.counter
      let (h, u) := t.newCounter t.core.die
        { count := (levelCores e).length, parent := some parent, event := some event, job := t.jobNo }
      let record := BitVec.ofNat 256 (at_ 250 p.toNat + at_ 240 ((t.ga a).toNat % 256) + at_ 176 (parent % 2 ^ 24) + at_ 64 l.toNat)
      let u := (levelDies e).foldl (fun u d => u.enqueueDie d (lvlTier e)
        { record, job := t.jobNo, level := some l.toNat, cores := (levelCores e).filter (·.die == d), ctr := h
          map := t.levelMap, since := t.ts.toNat }) u
      let u := u.countChild parent
      .done (u.setJob t.jobNo { t.job with levelTasks := (l.toNat, h) :: t.job.levelTasks.filter fun (k, _) => k != l.toNat })

end Sys2Proof.Machine
end

