-- ==== Sys2Proof/Machine/Stair.lean ====
section
/-! DEFINITION. Sys2Proof/Machine/Stair.lean: the stair unit's commands WLOAD, RESTRICT and PROLONG, at issue and as the unit runs them (R177-R180, R386-R390, R424). -/

namespace Sys2Proof.Machine

/-! ### Points of a level (R179) -/

/-- A global point. -/
abbrev Point := Int × Int × Int

/-- The points of a core of a level, in ascending local index. -/
def levelPoints (e : Nat) (c : Coord) : List Point :=
  let nr := lvlRowHi e + 1 - lvlRowLo e
  let fx := lvlPoints e 0
  let fy := lvlPoints e 1
  let fz := lvlPoints e 2
  let d := c.die - lvlDieLo e
  let r := c.row - lvlRowLo e
  let k := c.col - lvlColLo e
  (List.range fz).flatMap fun lz => (List.range fy).flatMap fun ly => (List.range fx).map fun lx =>
    let p : Nat × Nat × Nat := match lvlDim e with
      | 1 => (levelRank e c * fx + lx, 0, 0)
      | 2 => (k * fx + lx, (d * nr + r) * fy + ly, 0)
      | _ => (k * fx + lx, r * fy + ly, d * fz + lz)
    (((p.1 : Nat) : Int), ((p.2.1 : Nat) : Int), ((p.2.2 : Nat) : Int))

/-- The points that a core holds of a level; none outside the level. -/
def heldPoints (e : Nat) (c : Coord) : List Point := if inLevel e c then levelPoints e c else []

/-- Every point of a level with the core that holds it, in ascending order. -/
def allPoints (e : Nat) : List (Coord × Point) := (levelCores e).flatMap fun c => (levelPoints e c).map fun p => (c, p)

/-- The core that holds a point of a level. -/
def holderOf (e : Nat) (p : Point) : Option Coord := ((allPoints e).find? fun x => x.2 == p).map (·.1)

/-- Off(o) (R386). -/
def offset (dim o : Nat) : Point :=
  ((o % 3 : Nat) - 1, if 2 ≤ dim then (o / 3 % 3 : Nat) - 1 else 0, if dim = 3 then (o / 9 : Nat) - 1 else 0)

/-- 2X + Off(o). -/
def finePoint (x o : Point) : Point := (2 * x.1 + o.1, 2 * x.2.1 + o.2.1, 2 * x.2.2 + o.2.2)

/-- The offsets of a level's dimension, by weight index. -/
def offsets (dim : Nat) : List (Nat × Point) := (List.range (3 ^ dim)).map fun o => (o, offset dim o)

/-- A core that holds the points `l` touches coarse point X. -/
def touches (dim : Nat) (l : List Point) (x : Point) : Bool := (offsets dim).any fun (_, o) => l.contains (finePoint x o)

/-! ### Pairs of levels (R180, R387) -/

/-- The two levels lie on adjacent tiers. -/
def onStair (ek ec : Nat) : Bool := lvlTier ek != lvlTier ec

/-- The levels are joined (R180). -/
def levelsJoined (ek ec : Nat) : Bool :=
  lvlDim ek != 0 && lvlDim ek == lvlDim ec &&
  (lvlTier ek == lvlTier ec ||
    (lvlTier ec == lvlTier ek + 1 && (levelCores ek).all fun c => match parentOf c with
      | some (p, _) => inLevel ec p
      | none => false))

/-- The pair is nested (R387). -/
def levelsNested (ek ec : Nat) : Bool :=
  (levelCores ek).all fun c =>
    (allPoints ec).all fun (h, x) => !touches (lvlDim ek) (levelPoints ek c) x || (parentOf c).map (·.1) == some h

/-- The core with which fine core `f` exchanges coarse point X (R387). -/
def partnerOf (ek ec : Nat) (f : Coord) (x : Point) : Option Coord :=
  if onStair ek ec then (parentOf f).map (·.1) else holderOf ec x

/-- The child index of a fine core (R387). -/
def childIndex (ek ec : Nat) (f : Coord) : Nat := if onStair ek ec then ((parentOf f).map (·.2)).getD 0 else levelRank ek f

/-- The coarse points that fine core `f` touches, ascending, with the partner of each. -/
def coarseTouched (ek ec : Nat) (f : Coord) : List (Coord × Point) :=
  (allPoints ec).filterMap fun (_, x) =>
    if touches (lvlDim ek) (heldPoints ek f) x then (partnerOf ek ec f x).map fun p => (p, x) else none

/-- The fine cores that touch coarse point X and exchange it with core `c`. -/
def finePartners (ek ec : Nat) (c : Coord) (x : Point) : List Coord :=
  (levelCores ek).filter fun f => touches (lvlDim ek) (levelPoints ek f) x && partnerOf ek ec f x == some c

/-! ### The commands at issue (R386-R388, R424) -/

/-- LV, SIDE, ADD and WT. -/
def stairLevel (f : EForm) : Nat := esBits f 31 29
def stairAdd (f : EForm) : Bool := esBits f 27 27 == 1
def stairTable (f : EForm) : Nat := esBits f 26 25

/-- The side receives: RESTRICT.COARSE and PROLONG.FINE. -/
def stairReceives (prolong : Bool) (f : EForm) : Bool := stairSide f != prolong

/-- The entries of the fine and the coarse level as the thread sees them. -/
def stairLevels (f : EForm) (t : State) : Nat × Nat :=
  if stairLevel f = 7 then (0, 0) else (t.levelEntry (stairLevel f), t.levelEntry (stairLevel f + 1))

/-- The array's region is LOCAL, or COLUMN of the issuing core (R387). -/
def arrayRegion (core : Coord) (x : Int) : Bool :=
  region x.toNat == 0 || (region x.toNat == 2 && namedCore x.toNat == core)

/-- The link that a core names to a partner: 0 to its parent, 1 + i to child i. -/
def linkTo (c p : Coord) : Nat :=
  match parentOf c, parentOf p with
  | some (q, _), r => if q = p then 0 else match r with | some (_, i) => 1 + i | none => 0
  | none, some (_, i) => 1 + i
  | none, none => 0

/-- The partners of a command over stair links. -/
def stairPartners (ek ec : Nat) (coarse : Bool) (c : Coord) : List Coord :=
  if !onStair ek ec then []
  else if coarse then (levelCores ek).filter fun f => (parentOf f).map (·.1) == some c && !(coarseTouched ek ec f).isEmpty
  else if (coarseTouched ek ec c).isEmpty then [] else ((parentOf c).map (·.1)).toList

/-- The first partner whose link is retired (R424). -/
def retiredPartner (t : State) (l : List Coord) : Option Coord := l.find? fun p => t.cr.eng.stairRetired.contains (linkTo t.core p)

/-- The checks of RESTRICT and PROLONG (R354, R387, R388, R424). -/
def stairChecks (prolong : Bool) (f : EForm) (t : State) : List (Option Ret) :=
  let (ek, ec) := stairLevels f t
  let own := if stairSide f then ec else ek
  let n := (heldPoints own t.core).length
  let c := t.g f.ga
  let x := f32Address c (t.ga f.gb).toInt
  let receives := stairReceives prolong f
  let need : Need := { l := !receives || stairAdd f, s := receives }
  [elementCheck t c need (t.ga f.gb).toInt n, formatIf t c (t.ga f.gb).toInt,
   attributeIf t c (!arrayRegion t.core x),
   operandIf t (n == 0 || (stairAdd f && !receives) || (stairSide f && stairTable f != 0) || !levelsJoined ek ec ||
     (onStair ek ec && !levelsNested ek ec)),
   (retiredPartner t (stairPartners ek ec (stairSide f) t.core)).map fun p => .trap t 0x13 (word p.toNat)]

/-- The key of a pair's counter: job, level, kind and side (R390). -/
def pairKey (job : Nat) (prolong : Bool) (f : EForm) : Nat :=
  32 * job + 4 * stairLevel f + 2 * b2n prolong + b2n (stairSide f)

/-- RESTRICT and PROLONG: an accepted command takes the next number of its kind, level and side (R390). -/
def stairOp (op : Nat) (prolong : Bool) (f : EForm) (s : State) : Answer :=
  issue s 10 (engineUses f (specStair f)) fun t =>
    match (stairChecks prolong f t).findSome? id with
    | some r => r
    | none =>
      let key := pairKey t.jobNo prolong f
      let seq := look 0 t.cr.eng.pairCount key
      let (ek, ec) := stairLevels f t
      match t.accept { jobOf t kindStair op f (specStair f) with levels := [word ek, word ec], seq } with
      | .done u p => .done (u.modCr fun x => { x with eng := { x.eng with pairCount := put x.eng.pairCount key (seq + 1) } }) p
      | r => r

/-- RESTRICT.FINE (R389). -/
def execRestrictFine (f : EForm) (s : State) : Answer := stairOp 0x99 false f s

/-- RESTRICT.COARSE (R389). -/
def execRestrictCoarse (f : EForm) (s : State) : Answer := stairOp 0x99 false f s

/-- PROLONG.COARSE (R389). -/
def execProlongCoarse (f : EForm) (s : State) : Answer := stairOp 0x9A true f s

/-- PROLONG.FINE (R389). -/
def execProlongFine (f : EForm) (s : State) : Answer := stairOp 0x9A true f s

/-- WLOAD (R386). -/
def execWload (f : EForm) (s : State) : Answer :=
  engineRun (engineUses f (specWload f)) (fun t => [elementCheck t (t.g f.ga) { l := true } 0 27])
    (fun t => jobOf t kindStair 0x98 f (specWload f)) s

/-! ### The unit's run (R389, R390) -/

/-- A weight table of the core: 27 F32 codes, zero at first. -/
def Core.weight (x : Core) (w o : Nat) : Nat := (look 0 x.eng.weights (27 * w + o)).toNat

/-- The weight that a job uses for an offset: a command that has stopped goes on with the table it had (R371). -/
def State.jobWeight (s : State) (j : EngineJob) (o : Nat) : Nat :=
  match j.weights with
  | some w => (look 0 w (27 * stairTable j.f + o)).toNat
  | none => (s.coreAt j.seat).weight (stairTable j.f) o

/-- A stair job is a PROLONG; it is the coarse side; it receives. -/
def EngineJob.prolongs (j : EngineJob) : Bool := j.op == 0x9A
def EngineJob.receives (j : EngineJob) : Bool := j.op != 0x98 && stairReceives j.prolongs j.f

/-- Its levels, as at acceptance. -/
def EngineJob.fine (j : EngineJob) : Nat := (nth 0 j.levels 0).toNat
def EngineJob.coarse (j : EngineJob) : Nat := (nth 0 j.levels 1).toNat

/-- The points that the job's core holds of its side's level. -/
def EngineJob.points (j : EngineJob) : List Point := heldPoints (if stairSide j.f then j.coarse else j.fine) j.seat

/-- What a job does, item by item: the partner and the coarse point sent, or the point written (with its own core). -/
def EngineJob.items (j : EngineJob) : List (Coord × Point) :=
  if j.receives then j.points.map fun x => (j.seat, x)
  else if j.prolongs then j.points.flatMap fun x => (finePartners j.fine j.coarse j.seat x).map fun f => (f, x)
  else coarseTouched j.fine j.coarse j.seat

/-- A point as a partial names it. -/
def pointKey (x : Point) : Nat × Nat × Nat := (x.1.toNat, x.2.1.toNat, x.2.2.toNat)

/-- A partial of the job's pair for a coarse point and a child. -/
def EngineJob.matches_ (j : EngineJob) (x : Point) (child : Nat) (p : Partial) : Bool :=
  p.job == j.job && p.prolong == j.prolongs && p.level == stairLevel j.f && p.seq == j.seq && p.pt == pointKey x && p.child == child

/-- The (coarse point, child) pairs that a receiving job waits for. -/
def EngineJob.awaited (j : EngineJob) : List (Point × Nat) :=
  if j.prolongs then (coarseTouched j.fine j.coarse j.seat).map fun (_, x) => (x, 0)
  else j.points.flatMap fun x => (finePartners j.fine j.coarse j.seat x).map fun f => (x, childIndex j.fine j.coarse f)

/-- Everything a receiving job waits for has come (R390). -/
def EngineJob.fed (j : EngineJob) (l : List Partial) : Bool :=
  !j.receives || j.awaited.all fun (x, child) => l.any (j.matches_ x child)

/-- The value of the partial for a coarse point and a child. -/
def EngineJob.value (j : EngineJob) (l : List Partial) (x : Point) (child : Nat) : Nat :=
  ((l.find? (j.matches_ x child)).map fun p => p.value.toNat).getD 0

/-- The address of the array's element of a point (R387). -/
def EngineJob.pointAddress (j : EngineJob) (x : Point) : Int :=
  f32Address (j.operand 0) ((j.operand 1).addr.toInt + (j.points.idxOf x : Nat))

/-- The array's value at a point. -/
def State.arrayAt (s : State) (j : EngineJob) (x : Point) : Got Nat :=
  (s.engineRead j (j.operand 0) (j.pointAddress x) 4).bind fun l => .ok (leNat l)

/-- The reads of the array's elements of points. -/
def State.pointReads (s : State) (j : EngineJob) (l : List Point) : State :=
  l.foldl (fun t x => t.touched j (j.operand 0) false (j.pointAddress x) 4) s

/-- The power-managed link between two cores over which a stair exchange goes: the die and the number of the child's link to its
parent (R119, R387). -/
def stairWay (ek ec : Nat) (c p : Coord) : Option (Nat × Nat) :=
  if !onStair ek ec then none else if (parentOf c).map (·.1) == some p then some (c.die, stairLink c) else some (p.die, stairLink p)

/-- The exchange of a job with core `p` has to wait for a link that sleeps (R119). -/
def State.stairAsleep (s : State) (j : EngineJob) (p : Coord) : Bool :=
  match stairWay j.fine j.coarse j.seat p with
  | some (d, l) => look .full (s.dieAt d).links l == .sleep
  | none => false

/-- The exchange of a job with core `p` uses its link (R119, R121). -/
def State.usesStair (s : State) (j : EngineJob) (p : Coord) : State :=
  match stairWay j.fine j.coarse j.seat p with
  | some (d, l) => s.usesLink d l
  | none => s

/-- A partial or a coarse value reaches a partner's stair unit (log 14). -/
def State.sendPartial (s : State) (j : EngineJob) (p : Coord) (x : Point) (child value : Nat) : State :=
  (s.usesStair j p).modCore p fun y => { y with eng := { y.eng with partials := y.eng.partials ++
    [{ job := j.job, prolong := j.prolongs, level := stairLevel j.f, seq := j.seq, pt := pointKey x, child
       value := BitVec.ofNat 32 value }] } }

/-- The points held here of which the partial of a coarse point is the sum, in ascending offset (R389). -/
def EngineJob.summed (j : EngineJob) (x : Point) : List Point :=
  ((offsets (lvlDim j.fine)).map fun (_, off) => finePoint x off).filter j.points.contains

/-- The partial of coarse point X (R389): the sum over the offsets, in ascending order, of the points held here. -/
def State.restrictPartial (s : State) (j : EngineJob) (x : Point) : Got Flagged :=
  Got.fold (fun (acc : Flagged) (o, off) =>
      if j.points.contains (finePoint x off) then
        (s.arrayAt j (finePoint x off)).bind fun v => .ok (acc.fma (s.jobWeight j o) v)
      else .ok acc) (0, 0) (offsets (lvlDim j.fine))

/-- The partials for X put together in ascending child index (R389); none when no fine core touches X. -/
def EngineJob.combine (j : EngineJob) (l : List Partial) (x : Point) : Option Flagged :=
  let children := ((finePartners j.fine j.coarse j.seat x).map (childIndex j.fine j.coarse)).mergeSort
  match children.map (j.value l x) with
  | [] => none
  | p :: r => some (r.foldl (fun (acc : Flagged) q => let (v, f) := add32 acc.1 q; (v, orFlags acc.2 f)) (p, 0))

/-- (x - Off(o)) / 2 when it is even on every axis. -/
def coarsePoint (x o : Point) : Option Point :=
  let y : Point := (x.1 - o.1, x.2.1 - o.2.1, x.2.2 - o.2.2)
  if y.1 % 2 = 0 ∧ y.2.1 % 2 = 0 ∧ y.2.2 % 2 = 0 then some (y.1 / 2, y.2.1 / 2, y.2.2 / 2) else none

/-- e of fine point x (R389). -/
def State.prolongValue (s : State) (j : EngineJob) (l : List Partial) (x : Point) : Flagged :=
  (offsets (lvlDim j.fine)).foldl (fun (acc : Flagged) (o, off) =>
    match coarsePoint x off with
    | some c => if (holderOf j.coarse c).isSome then acc.fma (s.jobWeight j o) (j.value l c 0) else acc
    | none => acc) (0, 0)

/-- A point written: added to the array when ADD says so (R388, R389). -/
def State.writePoint (s : State) (j : EngineJob) (x : Point) (v : Flagged) : Got (State × Nat) :=
  let new : Got Flagged := if stairAdd j.f then (s.arrayAt j x).bind fun old =>
      let (r, f) := add32 old v.1
      .ok (r, orFlags v.2 f)
    else .ok v
  new.bind fun (r, f) =>
    ((if stairAdd j.f then s.pointReads j [x] else s).engineWrite j (j.operand 0) (j.pointAddress x) (leBytes 4 r)).bind fun t => .ok (t, f)

/-- One item: the state, whether a point was sent or written, and the flags (R389). -/
def State.stairItem (s : State) (j : EngineJob) (l : List Partial) (p : Coord) (x : Point) : Got (State × Nat × Nat) :=
  if j.receives then
    if j.prolongs then (s.writePoint j x (s.prolongValue j l x)).bind fun (t, f) => .ok (t, 1, f)
    else
      match j.combine l x with
      | some v => (s.writePoint j x v).bind fun (t, f) => .ok (t, 1, f)
      | none => if stairAdd j.f then .ok (s, 0, 0) else (s.writePoint j x (0, 0)).bind fun (t, f) => .ok (t, 1, f)
  else if s.stairAsleep j p then .wait .link
  else if j.prolongs then (s.arrayAt j x).bind fun v => .ok ((s.pointReads j [x]).sendPartial j p x 0 v, 1, 0)
  else (s.restrictPartial j x).bind fun (v, f) =>
    .ok ((s.pointReads j (j.summed x)).sendPartial j p x (childIndex j.fine j.coarse j.seat) v, 1, f)

/-- Items in turn, up to the first that fails. -/
def State.stairItems (s : State) (j : EngineJob) (l : List Partial) (n f : Nat) : List (Coord × Point) → State × Nat × Nat × Got Unit
  | [] => (s, n, f, .ok ())
  | (p, x) :: r =>
    match s.stairItem j l p x with
    | .ok (t, m, g) => t.stairItems j l (n + m) (orFlags f g) r
    | g => (s, n, f, g.bind fun _ => .ok ())

/-- RESTRICT and PROLONG from the items done (`base` counts them) up to item `hi`. -/
def stairRun (s : State) (j : EngineJob) (hi : Nat) : Ran :=
  let l := (s.coreAt j.seat).eng.partials
  let (t, n, f, g) := s.stairItems j l j.done 0 ((j.items.take hi).drop j.stage)
  (g.ran t n fun _ => (t, n, f)).flagged f

/-- WLOAD run (R386): its DONEC is 1 also at a fault (R370). -/
def wloadRun (s : State) (j : EngineJob) : Ran :=
  let c := j.operand 0
  let set (l : List Byte) (w : Sparse (BitVec 32)) : Sparse (BitVec 32) :=
    (List.range 27).foldl (fun w o => put w (27 * esBits j.f 1 0 + o) (BitVec.ofNat 32 (leNat ((l.drop (4 * o)).take 4)))) w
  (s.engineRead j c (f32Address c 0) 108).ran s 1 fun l =>
    ((s.touched j c false (f32Address c 0) 108).modCore j.seat
      fun x => { x with eng := { x.eng with weights := set l x.eng.weights } }, 1, 0)

/-- A partial that a receiving job waits for. -/
def EngineJob.feeds (j : EngineJob) (p : Partial) : Bool :=
  j.receives && p.job == j.job && p.prolong == j.prolongs && p.level == stairLevel j.f && p.seq == j.seq

/-- The partials that a receiving job used are gone. -/
def State.dropPartials (s : State) (j : EngineJob) : State :=
  if j.receives then
    s.modCore j.seat fun x => { x with eng := { x.eng with partials := x.eng.partials.filter fun p => !j.feeds p } }
  else s

/-- The replay state of a parked stair command copied into its image (R429, R439). -/
def State.imageParts (s : State) (j : EngineJob) : EngineJob :=
  { j with parts := j.parts ++ (s.coreAt j.seat).eng.partials.filter j.feeds }

end Sys2Proof.Machine
end

