-- ==== Sys2Proof/Machine/EngineEvents.lean ====
section
/-! DEFINITION. Sys2Proof/Machine/EngineEvents.lean: the steps of the engines: their messages, the start, the stop and the end of their jobs, parked pieces, streams, rings and stair links (R101, R105, R122-R124, R354-R356, R370-R390, R424, R428). -/

namespace Sys2Proof.Machine

/-! ### Engine messages (R101, R105) -/

/-- The answer to an engine's piece. -/
def engineAnswer (f : Flight) (core : Coord) (id : Nat) (fault : Option (Nat × Word)) : Flight :=
  match fault with
  | some (cause, a) => f.answer 0x42 (.engineFault core id cause a)
  | none => f.answer 0x41 (.engine core id 0 0 0 [] none)

/-- The client of a pool whose request an engine message is (R60): the porter for a porter's piece, since a multicast arrives so,
and the message unit for the others (DESIGN CHOICE, log 16). -/
def engineClient (f : Flight) : Nat :=
  match f.pay with
  | .engine core id _ _ _ _ _ => if f.src = clusterOf core ∧ id < 256 then 4 else 5
  | _ => 5

/-- EWRITE (R105, R378): a piece is written at its owner, and counted into a barrier object there. -/
def execEwrite (src dst : Coord) (s : State) : Answer :=
  delivery 0x70 src dst (fun t f =>
    match f.pay with
    | .engine core id _ _ va data barrier =>
      if !t.unitRoom dst then none
      else if t.requestLocked f then s.pressOn f
      else if f.isControl then
        let (u, r) := t.serveControl { f with pay := .bytes data }
        some (u.post (engineAnswer f core id (match r with | .fault cause => some (cause, word va) | _ => none)))
      else
        match t.ownerKey { f with pay := .bytes data } with
        | none => some (t.post (engineAnswer f core id (some (0x09, word va))))
        | some k =>
          let need : Need := { s := true, engine := true }
          match t.lostWord need k data.length with
          | some g => some (t.post (engineAnswer f core id (some (0x10, need.lostAddress k va g))))
          | none =>
            let (u, fault) := ((t.sendThrough f).poolWrites (engineClient f) k data.length).writePiece k data dst barrier
            some (u.post (engineAnswer f core id fault))
    | _ => some (t.refuseMessage f)) s

/-- EREAD (R101). -/
def execEread (src dst : Coord) (s : State) : Answer :=
  delivery 0x71 src dst (fun t f =>
    match f.pay with
    | .engine core id off n va _ _ =>
      if !t.engineRoom dst 1 || !t.unitRoom dst then none
      else if t.requestLocked f then s.pressOn f
      else if f.isControl then
        some (t.post (f.answer 0x72 (.engine core id off n va (leBytes 8 (t.readControl dst (bits f.addr 23 0)).toNat) none) (n - 1)))
      else
        match t.ownerKey f with
        | none => some (t.post (engineAnswer f core id (some (0x09, word va))))
        | some k =>
          let need : Need := { l := true, engine := true }
          match t.lostWord need k n with
          | some g => some (t.post (engineAnswer f core id (some (0x10, need.lostAddress k va g))))
          | none => some (((t.sendThrough f).poolReads (engineClient f) k n).post
            (f.answer 0x72 (.engine core id off n va (t.readBytes k n) none) (n - 1)))
    | _ => some (t.refuseMessage f)) s

/-- EDATA (R101). -/
def execEdata (src dst : Coord) (s : State) : Answer :=
  delivery 0x72 src dst (fun t f =>
    match f.pay with
    | .engine core id off n _ data _ => some (t.engineReply core id fun j => { j with buf := scatter [(0, off, n)] data j.buf })
    | _ => some (t.refuseMessage f)) s

/-! ### DONE entries (R122-R124, R354) -/

/-- A slot's wait that a new entry may end. -/
def endsWithEntry : Await → Bool
  | .pigeonhole => true
  | .job _ => true
  | .room => true
  | _ => false

/-- An entry has come to a pigeonhole: what waited for it goes on (R277, R303). -/
def State.entryCame (s : State) (c : Coord) : State := (s.wake c endsWithEntry).wakeWaits c

/-- An entry is written: its job is no longer outstanding unless it has only stopped, and what waited goes on (R123, R354). -/
def State.writeDone (s : State) (c : Coord) (e : Entry) : State :=
  let mine (j : EngineJob) : Bool := sameCounter j.kind (entryKind e) && j.id == entryJob e
  let settled (l : List EngineJob) : List EngineJob :=
    if entryPart e then l.map (fun j => if mine j then { j with told := true } else j) else l.filter (fun j => !mine j)
  let t := s.modCore c fun x =>
    { x with
      msg := { x.msg with pigeonhole := x.msg.pigeonhole ++ [e] }
      eng := { x.eng with jobs := settled x.eng.jobs } }
  (t.entryCame c).trySave c (bits e.toNat 303 299)

/-- Two entries of one engine (R124). -/
def sameEngine (a b : Entry) : Bool := bits a.toNat 319 304 == bits b.toNat 319 304 && entryKind a == entryKind b

/-- DONE (R122, R123): the entry is written, or held when the pigeonhole is full or an earlier one of its engine is held. -/
def execDone (src dst : Coord) (s : State) : Answer :=
  delivery 0x73 src dst (fun t f =>
    match f.pay with
    | .entry e =>
      let m := (t.coreAt dst).msg
      if m.pigeonhole.length < 64 && !m.held.any (sameEngine e) then some (t.writeDone dst e)
      else some (t.modMsg dst fun m => { m with held := m.held ++ [e] })
    | _ => some (t.refuseMessage f)) s

/-- HELD_DONE_WRITTEN (R123). -/
def execHeldDoneWritten (c : Coord) (s : State) : Answer :=
  let m := (s.coreAt c).msg
  match m.held with
  | e :: r => stepIf s (m.pigeonhole.length < 64) ((s.modMsg c fun m => { m with held := r }).writeDone c e)
  | [] => .next s

/-- A job that has run, with what it has done. -/
def EngineJob.ran (j : EngineJob) (donec flags : Nat) (fault : Option (Nat × Word)) : EngineJob :=
  { j with done := donec, flags := orFlags j.flags flags, fault }

/-- A job that has ended: its DONE entry is sent (R354). -/
def State.endJob (s : State) (j : EngineJob) : State := (s.noteJob j).postDone j false

/-- The issuing thread is marked for pre-emption (R356, R427, R428). -/
def State.stopAsked (s : State) (j : EngineJob) : Bool :=
  let x := s.slotAt j.core j.slot
  x.gen == j.gen && x.mark.isSome && j.granule != 0

/-- The first boundary beyond the units done, below the last unit, at which `ok` allows a stop (R356, R371). -/
def EngineJob.boundary (j : EngineJob) (total unit : Nat) (ok : Nat → Bool) : Option Nat :=
  (findBelow total fun n => j.done < n && (n - j.base) % (unit * j.granule) == 0 && ok n)

/-! ### The matrix engine (R354, R356) -/

/-- A top-left core of a cluster. -/
def isCluster (cl : Coord) : Bool := coreExists cl && clusterOf cl == cl

/-- MATRIX_JOB_START (R354). -/
def execMatrixJobStart (cl : Coord) (s : State) : Answer :=
  let x := s.clusterAt cl
  match x.running, rotationPick cl x.rotation x.matrixQueue with
  | none, some (j, r) =>
    stepIf s (isCluster cl) ((s.setCluster cl
      { x with running := some j, rotation := r, matrixQueue := dropFirst (·.same j) x.matrixQueue }).wakeCluster cl)
  | _, _ => .next s

/-- The running job leaves the engine. -/
def State.engineIdle (s : State) (cl : Coord) : State := s.setCluster cl { s.clusterAt cl with running := none }

/-- A job that has only writes left makes those that it can, and ends once all are made and answered (R147); a fault leaves DONEC 0
(R364). -/
def State.storeStep (s : State) (cl : Coord) (j : EngineJob) : State :=
  let (t, k) := State.storePieces j.todo s j
  if k.todo.isEmpty && k.outstanding == 0 && t.engineRoom k.engc 1 then
    (t.engineIdle cl).endJob (k.ran (if k.fault.isSome then 0 else 1) 0 k.fault)
  else t.setRunning k

/-- MATRIX_JOB_COMPLETE (R147, R354, R355): the job runs to its end, or waits for a page; with its writes on their way, it ends
when they have been answered. -/
def execMatrixJobComplete (cl : Coord) (s : State) : Answer :=
  match (s.clusterAt cl).running with
  | some j =>
    if !s.engineRoom j.engc 1 then .next s
    else if j.stage = 2 then .next (s.storeStep cl j)
    else
      match matrixRun s j j.total with
      | .ended t n fl fault => .next ((t.engineIdle cl).endJob (j.ran n fl fault))
      | .writes k => .next (s.storeStep cl k)
      | .wait h => .next (s.holds h)
  | none => .next s

/-- The K indices done at the end of K-tile `n` are a multiple of 32; every increment of SIGADV is a boundary (R356). -/
def EngineJob.mayStop (j : EngineJob) (n : Nat) : Bool :=
  j.op != 0x80 || n * ((mmaA j.f (j.operand 0) (j.operand 1)).kTile.getD 0) % 32 == 0

/-- The matrix engine stops the job of a marked thread at its next boundary. -/
def State.splitMatrix (s : State) (cl : Coord) : Option State :=
  match (s.clusterAt cl).running with
  | none => none
  | some j =>
    if !s.stopAsked j then none
    else
      match j.boundary j.total 1 j.mayStop with
      | none => none
      | some n =>
        match matrixRun s j n with
        | .wait _ => none
        | .writes _ => none
        | .ended t m fl none => some (((t.engineIdle cl).stopJob (j.ran m fl none)).trySave j.core j.slot)
        | .ended t m fl fault => some ((t.engineIdle cl).endJob (j.ran m fl fault))

/-! ### The porter (R370, R373, R379, R382) -/

/-- PORTER_JOB_START (R373): at most four jobs are active. -/
def execPorterJobStart (cl : Coord) (s : State) : Answer :=
  let x := s.clusterAt cl
  match rotationPick cl x.porterRotation x.porterQueue with
  | some (j, r) =>
    let t := s.setCluster cl { x with porterRotation := r, porterQueue := dropFirst (·.same j) x.porterQueue }
    let y := t.clusterAt cl
    stepIf s (isCluster cl && x.active.length < 4)
      ((t.setCluster cl { y with active := y.active ++ [j.atUnit j.done] }).wakeCluster cl)
  | none => .next s

/-- A piece of an active job of a cluster's porter is tried: the pieces of its jobs interleave in any order (R373, log 33). -/
def State.porterPiece (s : State) (cl : Coord) (n i : Nat) : State :=
  match (s.clusterAt cl).active[n]? with
  | some j => let (t, k) := s.porterStep j i; t.setActive k
  | none => s

/-- PORTER_JOB_COMPLETE (R370): the job moves what it can, and ends when everything has moved or a fault has ended it. -/
def execPorterJobComplete (cl : Coord) (n : Nat) (s : State) : Answer :=
  match (s.clusterAt cl).active[n]? with
  | some j =>
    let (t, k) := s.porterRun j.fuel j j.porterUnits
    .next (if k.porterOver t && t.engineRoom k.engc 1 then (t.dropActive k).endJob k else t.setActive k)
  | none => .next s

/-- The porter stops a job of a marked thread at its next boundary, once nothing of it is outstanding. -/
def State.splitPorter (s : State) (cl : Coord) (n : Nat) : Option State :=
  match (s.clusterAt cl).active[n]? with
  | none => none
  | some j =>
    if !s.stopAsked j then none
    else
      match j.boundary j.porterUnits 1 fun _ => true with
      | none => none
      | some h =>
        let (t, k) := s.porterRun j.fuel j h
        if k.done = h ∧ k.outstanding = 0 then some (((t.dropActive k).stopJob { k with todo := [] }).trySave k.core k.slot)
        else some (t.setActive k)

/-- The parked pieces that are performed with a parked one of a job: of an element of CGAT or CSCT all, else that one (R380). -/
def State.parkedWith (s : State) (j : EngineJob) (p : EnginePiece) : List EnginePiece :=
  if j.writesElement then (s.clusterAt j.core).parked.filterMap fun (c, id, q) => if c == j.core && id == j.id then some q else none
  else [p]

/-- PARKED_PIECE_REPLAY (R382): the first parked piece whose page is resident is translated afresh and performed. -/
def execParkedPieceReplay (cl : Coord) (s : State) : Answer :=
  let x := s.clusterAt cl
  let ready (p : Coord × Nat × EnginePiece) : Option (EngineJob × EnginePiece × Got (Option Route)) :=
    match s.activeJob p.1 p.2.1 with
    | some j =>
      let (c, need) := j.stageCap
      match if j.writesElement then (s.elementCheck j (s.parkedWith j p.2.2)).bind fun _ => .ok none
          else (s.engineCheck j c need p.2.2.x p.2.2.n).bind fun r => .ok (some r) with
      | .wait _ => none
      | .ok (some r) => if r.remote && !s.engineRoom j.engc 1 then none else some (j, p.2.2, .ok (some r))
      | g => some (j, p.2.2, g)
    | none => none
  match x.parked.findSome? ready with
  | some (j, p, check) =>
    let l := s.parkedWith j p
    let mine (p : EnginePiece) (q : Coord × Nat × EnginePiece) : Bool := q.1 == j.core && q.2.1 == j.id && q.2.2 == p
    let t := s.setCluster cl { x with parked := l.foldl (fun m p => dropFirst (mine p) m) x.parked }
    match check with
    | .ok (some r) => let (u, k) := t.landPiece j p r; .next (u.setActive k)
    | .ok none => .next (t.setActive { j with todo := l, passed := true })
    | g => let (u, f) := g.fault t; .next (u.setActive (j.fail f))
  | none => .next s

/-- The port of a core that a stream is bound to (R301). -/
def Core.streamPort (x : Core) (n : Nat) : Option Nat := (x.ports.find? fun (_, p) => p.bind == .stream n).map (·.1)

/-- STREAM_FIFO_ENTRY (R209, R379): the next 64 bytes enter the FIFO; a stream bound to no port ends the job. -/
def execStreamFifoEntry (cl : Coord) (n : Nat) (s : State) : Answer :=
  match (s.clusterAt cl).active[n]? with
  | some j =>
    let w := (j.operand 2).addr
    let c := streamCore w
    if !j.entryReady || j.fault.isSome then .next s
    else
      match (s.coreAt c).streamPort (streamNo w) with
      | none => .next (s.setActive { j with fault := some (0x02, w), replay := [] })
      | some p =>
        let q := (s.coreAt c).port p
        let e : Entry := BitVec.ofNat 512 (leNat (j.replay.take 64))
        let t := s.modCore c fun x => x.setPort p { q with q := q.q ++ [e] }
        let t := ((t.markSaved (savedAtPort c p)).wakeReader c p).setActive { j with replay := j.replay.drop 64 }
        stepIf s ((s.coreAt c).portUse p < 4) t
  | none => .next s

/-! ### Rings (R383-R385) -/

/-- A command of a ring is queued or runs. -/
def State.ringUsed (s : State) (k : Nat) : Bool :=
  let q := s.sequencer (k / 256)
  (q.run.toList ++ q.queue).any (·.ring == k)

/-- RING_INSTALL (R383). -/
def execRingInstall (port idx job rank size : Nat) (s : State) : Answer :=
  let k := 256 * port + idx
  stepIf s (port < 24 && idx < 256 && 2 ≤ size && size ≤ 256 && rank < size && (s.jobAt job).live && !s.ringUsed k)
    (s.setRing k { job, rank, size })

/-- RING_MEMBER_LOSS (R385): the collective ends on every member; the fault's address is not stated (log 9). -/
def execRingMemberLoss (port idx : Nat) (s : State) : Answer :=
  let k := 256 * port + idx
  if (s.ringAt k).size = 0 then .next s
  else .next ((s.ringGroup k).foldl (fun u i => (u.setRing i { u.ringAt i with lost := true }).ringDoom i) s)

/-- A sequencer sends what it can of a command's own share. -/
def State.ringPush (s : State) (k : Nat) : State :=
  match s.ringRun k with
  | some j => s.ringSend ((j.ownParts (s.ringAt k)).length - j.sent) k
  | none => s

/-- A sequencer goes on as far as a ring's chunks allow. -/
def State.ringGo : Nat → State → Nat → State
  | 0, s, k => s.ringPush k
  | n + 1, s, k => State.ringGo n (((s.ringAdvance (k / 256)).ringPush k).ringTake k) k

/-- The rings of a port. -/
def State.ringsOf (s : State) (port : Nat) : List Nat := (s.pkg.rings.filter fun (k, _) => k / 256 == port).map (·.1)

/-- A chunk, whole, for a ring of a port has come. -/
def State.chunkIn (s : State) (k : Nat) (p : Payload) : State :=
  let r := s.ringAt k
  (s.setRing k { r with chunks := r.chunks ++ [p], part := none }).ringGo 2 k

/-- A message of a chunk has come: its part follows those before it (R99, R106). -/
def State.partIn (s : State) (k : Nat) (p : Payload) : State :=
  let r := s.ringAt k
  match joinChunk r.part p with
  | .chunk ring seq command result b i _ len data =>
    let whole : Payload := .chunk ring seq command result b i 0 len data
    if data.length < len then s.setRing k { r with part := some whole } else s.chunkIn k whole
  | _ => s

/-- CHUNK (R384): a chunk from the port of the member before, or, with source and destination one port, from a neighbour
outside the module (log 21). -/
def execChunk (src dst : Coord) (s : State) : Answer :=
  if src = dst then
    let next (k : Nat) : Option State :=
      let t := s.ringAdvance dst.col
      if s.hasPrev k then none else (t.outsideChunk k).map fun (u, p) => u.chunkIn k p
    stepOr s ((s.ringsOf dst.col).findSome? next)
  else
    delivery 0x74 src dst (fun t f =>
      match f.pay with
      | .chunk ring _ _ _ _ _ _ _ _ => some (t.partIn (256 * dst.col + ring) f.pay)
      | _ => some (t.refuseMessage f)) s

/-- RING_JOB_COMPLETE (R385): the sequencer begins its next command when it is free, and takes in what has come; the command
that has taken in everything, or has met a fault, ends with its DONE entry. -/
def execRingJobComplete (port : Nat) (s : State) : Answer :=
  let t := s.ringAdvance port
  match (t.sequencer port).run with
  | none => .next t
  | some j =>
    let u := t.ringGo ((t.ringAt j.ring).chunks.length + 1) j.ring
    match u.ringRun j.ring with
    | some j =>
      let finished := j.fault.isSome || (j.outstanding == 0 && (j.ownParts (u.ringAt j.ring)).length ≤ j.sent)
      .next (if finished && u.engineRoom j.engc 1 then (u.setRun j.ring none).endJob j else u)
    | none => .next u

/-- A sequencer stops the command of a marked thread where its chunks allow: the chunks that it has not consumed go with it, and
its ring is held until it goes on (R371, R385). -/
def State.splitRing (s : State) (k : Nat) : Option State :=
  let r := s.ringAt k
  match s.ringRun k with
  | none => none
  | some j =>
    if s.stopAsked j && j.fault.isNone && j.outstanding != 0 && j.base < j.done && (j.done - j.base) % j.granule == 0 then
      let (mine, others) := r.chunks.partition (chunkOf r)
      some ((((s.setRing k { r with held := true, chunks := others }).setRun k none).stopJob { j with kept := mine }).trySave j.core j.slot)
    else none

/-! ### Stair units (R386-R390, R424) -/

/-- STAIR_JOB_START (R390): the next command begins once everything that it receives has come. -/
def execStairJobStart (c : Coord) (s : State) : Answer :=
  let e := (s.coreAt c).eng
  match e.stairRun, e.stairQueue with
  | none, j :: r =>
    stepIf s (j.fed e.partials)
      ((s.modCore c fun x => { x with eng := { x.eng with stairRun := some j, stairQueue := r } }).wakeRoom c)
  | _, _ => .next s

/-- The stair unit is free. -/
def State.stairIdle (s : State) (c : Coord) : State := s.modCore c fun x => { x with eng := { x.eng with stairRun := none } }

/-- STAIR_JOB_COMPLETE (R389, R390). -/
def execStairJobComplete (c : Coord) (s : State) : Answer :=
  match (s.coreAt c).eng.stairRun with
  | some j =>
    if !s.engineRoom j.engc 1 then .next s else
    match if j.op = 0x98 then wloadRun s j else stairRun s j j.items.length with
    | .ended t n fl fault => .next (((t.stairIdle c).dropPartials j).endJob (j.ran n fl fault))
    | .writes _ => .next s
    | .wait h => .next (s.holds h)
  | none => .next s

/-- The stair unit stops the command of a marked thread at its next group of 64 points (R371). -/
def State.splitStair (s : State) (c : Coord) : Option State :=
  match (s.coreAt c).eng.stairRun with
  | none => none
  | some j =>
    if !s.stopAsked j then none
    else
      match { j with done := j.stage, base := 0 }.boundary j.items.length 64 fun _ => true with
      | none => none
      | some h =>
        match stairRun s j h with
        | .wait _ => none
        | .writes _ => none
        | .ended t n fl none =>
          some (((t.stairIdle c).stopJob { j.ran n fl none with stage := h, weights := some (j.weights.getD (s.coreAt c).eng.weights) }).trySave j.core j.slot)
        | .ended t n fl fault => some (((t.stairIdle c).dropPartials j).endJob (j.ran n fl fault))

/-- ENGINE_SPLIT_STOP (R356, R371, R428): KIND of R124, and the place of the job: an active porter job, a ring's index. Its DONE
entry finds room in the engine's send queue (R111). -/
def execEngineSplitStop (cl : Coord) (kind n : Nat) (s : State) : Answer :=
  if !s.engineRoom cl 1 then .next s
  else
    stepOr s (match kind with
      | 1 => s.splitPorter cl n
      | 2 => s.splitMatrix cl
      | 3 => s.splitRing (256 * cl.col + n)
      | _ => s.splitStair cl)

/-- A stair command needs the link between its core and `p` (R387). -/
def EngineJob.needsLink (j : EngineJob) (p : Coord) : Bool :=
  j.op != 0x98 && (stairPartners j.fine j.coarse (stairSide j.f) j.seat).contains p

/-- The commands of a core that need a failed link end with stair-link fault; the address names the partner (R421, R424). -/
def State.failStair (s : State) (c p : Coord) : State :=
  let e := (s.coreAt c).eng
  let hit := (e.stairRun.toList ++ e.stairQueue).filter fun j => j.needsLink p
  let t := s.modCore c fun x => { x with eng := { x.eng with
    stairRetired := linkTo c p :: x.eng.stairRetired.filter (· != linkTo c p)
    stairRun := x.eng.stairRun.filter fun j => !j.needsLink p
    stairQueue := x.eng.stairQueue.filter fun j => !j.needsLink p } }
  hit.foldl (fun u j => (u.dropPartials j).endJob { j with fault := some (0x13, word p.toNat) }) t

/-- STAIR_LINK_FAILURE (R424): the link from a core to its parent. -/
def execStairLinkFailure (c : Coord) (s : State) : Answer :=
  match parentOf c with
  | some (p, _) => .next ((s.failStair c p).failStair p c)
  | none => .next s

end Sys2Proof.Machine
end

