-- ==== Sys2Proof/WellFormed.lean ====
section
/-! DEFINITION. Sys2Proof/WellFormed.lean: which instructions have an encoding of their own (R8, R216, R217, R224). -/

namespace Sys2Proof

open Machine

/-- The constructor agrees with the form bits that tell it from its siblings of one operation number: the
multicast and stream bits of CPY, the side bit of RESTRICT and PROLONG, MOD of VBCAST and VMOVG. -/
def Instr.formAgrees : Instr → Bool
  | .cpy f => !cpyStr f && !cpyMc f
  | .cpyM f => !cpyStr f && cpyMc f
  | .cpyS f => cpyStr f
  | .restrictFine f => !stairSide f
  | .restrictCoarse f => stairSide f
  | .prolongCoarse f => stairSide f
  | .prolongFine f => !stairSide f
  | _ => true

/-- An instruction is well formed when none of its fields is refused at decode. -/
def Instr.wellFormed (i : Instr) : Bool := (illForm i).isNone && i.formAgrees

end Sys2Proof
end

