-- ==== Sys2Proof/Decode.lean ====
section
/-! DEFINITION. Sys2Proof/Decode.lean: from parcels to instructions and back (R211-R218, R224-R228). Decoding is
total: it answers an instruction and the bytes after it, or the named reason why there is none. The encoder stands
after it, written from the same tables of the spec. (Lean's compiler cannot build a constructor numbered above 244
of one inductive, so the functions that answer an 80-bit `Instr` are marked noncomputable; the kernel evaluates them.) -/

namespace Sys2Proof

open Machine

/-! ### Bit fields of the function bits -/

/-- fn [6:3]. -/
def hi4 (x : BitVec 7) : BitVec 4 := x.extractLsb' 3 4
/-- fn [6:2]. -/
def hi5 (x : BitVec 7) : BitVec 5 := x.extractLsb' 2 5
/-- fn [6:1]. -/
def hi6 (x : BitVec 7) : BitVec 6 := x.extractLsb' 1 6
/-- fn [6:5]. -/
def hi2 (x : BitVec 7) : BitVec 2 := x.extractLsb' 5 2
/-- fn [6]. -/
def hi1 (x : BitVec 7) : BitVec 1 := x.extractLsb' 6 1
/-- fn [4], the source bit of HRET (R300). -/
def mid1 (x : BitVec 7) : BitVec 1 := x.extractLsb' 4 1
/-- fn [4:3], the priority of LVLRUN (R392). -/
def mid2 (x : BitVec 7) : BitVec 2 := x.extractLsb' 3 2
/-- fn [5], the source kind of PUTREG (R302). -/
def bit5 (x : BitVec 7) : BitVec 1 := x.extractLsb' 5 1
/-- fn [0]. -/
def lo1 (x : BitVec 7) : BitVec 1 := x.extractLsb' 0 1
/-- fn [1:0]. -/
def lo2 (x : BitVec 7) : BitVec 2 := x.extractLsb' 0 2
/-- fn [2:0]. -/
def lo3 (x : BitVec 7) : BitVec 3 := x.extractLsb' 0 3
/-- fn [3:0]. -/
def lo4 (x : BitVec 7) : BitVec 4 := x.extractLsb' 0 4
/-- fn [4:0]. -/
def lo5 (x : BitVec 7) : BitVec 5 := x.extractLsb' 0 5
/-- fn [5:0]. -/
def lo6 (x : BitVec 7) : BitVec 6 := x.extractLsb' 0 6
/-- imm12 of the I format lies in the rb and fn positions of R3 (R214). -/
def imm12 (rb : BitVec 5) (fn : BitVec 7) : BitVec 12 := rb ++ fn
/-- off17 of the B format lies in the ra, rb and fn positions of R3 (R214). -/
def off17 (ra rb : BitVec 5) (fn : BitVec 7) : BitVec 17 := ra ++ rb ++ fn

/-- A candidate instruction whose reserved fields are all zero. -/
def need (ok : Bool) (i : Instr) : Except Reject Instr := if ok then .ok i else .error .reserved

/-! ### Compact parcels (R213) -/

/-- The instruction of a compact parcel, class and operation taken from its top bits. -/
def decode16 (w : BitVec 16) : Except Reject Instr :=
  if w = 0 then .error .zeroParcel else
  let d := w.extractLsb' 5 5
  let a := w.extractLsb' 0 5
  let di := w.extractLsb' 6 5
  let i := w.extractLsb' 0 6
  let arg := w.extractLsb' 0 10
  match (w.extractLsb' 14 2).toNat with
  | 0 =>
    match (w.extractLsb' 10 4).toNat with
    | 1 => .ok (.cAdd d a)
    | 2 => .ok (.cSub d a)
    | 3 => .ok (.cAnd d a)
    | 4 => .ok (.cOr d a)
    | 5 => .ok (.cXor d a)
    | 6 => .ok (.cShl d a)
    | 7 => .ok (.cShr d a)
    | 8 => .ok (.cSar d a)
    | 9 => .ok (.cMul d a)
    | 10 => .ok (.cMin d a)
    | 11 => .ok (.cMax d a)
    | 12 => .ok (.cMinu d a)
    | 13 => .ok (.cMaxu d a)
    | 14 => .ok (.cSlt d a)
    | 15 => .ok (.cMov d a)
    | _ => .error .compactUnassigned
  | 1 =>
    match (w.extractLsb' 11 3).toNat with
    | 0 => .ok (.cAddi di i)
    | 1 => .ok (.cLi di i)
    | 2 => .ok (.cShli di i)
    | 3 => .ok (.cShri di i)
    | 4 => .ok (.cSari di i)
    | 5 => .ok (.cAndi di i)
    | 6 => .ok (.cCaddi di i)
    | _ => .error .compactUnassigned
  | _ =>
    match (w.extractLsb' 10 4).toNat with
    | 0 => need (arg == 0) .cNop
    | 1 => need (arg == 0) .cRet
    | 2 => need (arg == 0) .cYield
    | 3 => need (arg == 0) .cTsync
    | 4 => need (arg == 0) .cRetire
    | 5 => need (arg == 0) .cUngang
    | 6 => .ok (.cBrk arg)
    | _ => .error .compactUnassigned

/-! ### 32-bit forms (R214, R225-R227) -/

/-- Map 0: the integer, capability and control instructions (R225), by major opcode. -/
def decodeMap0 (major : Nat) (rd ra rb : BitVec 5) (fn : BitVec 7) : Except Reject Instr :=
  match major with
  | 0 => need ((hi4 fn == 0)) (.add rd ra rb (lo3 fn))
  | 1 => need ((hi4 fn == 0)) (.sub rd ra rb (lo3 fn))
  | 2 => need ((hi4 fn == 0)) (.mul rd ra rb (lo3 fn))
  | 3 => need ((hi4 fn == 0)) (.mulh rd ra rb (lo3 fn))
  | 4 => need ((hi4 fn == 0)) (.mulhu rd ra rb (lo3 fn))
  | 5 => need ((hi4 fn == 0)) (.div rd ra rb (lo3 fn))
  | 6 => need ((hi4 fn == 0)) (.divu rd ra rb (lo3 fn))
  | 7 => need ((hi4 fn == 0)) (.rem rd ra rb (lo3 fn))
  | 8 => need ((hi4 fn == 0)) (.remu rd ra rb (lo3 fn))
  | 9 => need ((hi4 fn == 0)) (.and rd ra rb (lo3 fn))
  | 10 => need ((hi4 fn == 0)) (.or rd ra rb (lo3 fn))
  | 11 => need ((hi4 fn == 0)) (.xor rd ra rb (lo3 fn))
  | 12 => need ((hi4 fn == 0)) (.shl rd ra rb (lo3 fn))
  | 13 => need ((hi4 fn == 0)) (.shr rd ra rb (lo3 fn))
  | 14 => need ((hi4 fn == 0)) (.sar rd ra rb (lo3 fn))
  | 15 => need ((hi4 fn == 0)) (.rol rd ra rb (lo3 fn))
  | 16 => need ((rb == 0) && (hi4 fn == 0)) (.clz rd ra (lo3 fn))
  | 17 => need ((rb == 0) && (hi4 fn == 0)) (.ctz rd ra (lo3 fn))
  | 18 => need ((rb == 0) && (hi4 fn == 0)) (.popc rd ra (lo3 fn))
  | 19 => need ((hi4 fn == 0)) (.min rd ra rb (lo3 fn))
  | 20 => need ((hi4 fn == 0)) (.max rd ra rb (lo3 fn))
  | 21 => need ((hi4 fn == 0)) (.minu rd ra rb (lo3 fn))
  | 22 => need ((hi4 fn == 0)) (.maxu rd ra rb (lo3 fn))
  | 23 => need ((lo2 fn == 0)) (.sel rd ra rb (hi5 fn))
  | 24 => need ((hi4 fn == 0)) (.seq rd ra rb (lo3 fn))
  | 25 => need ((hi4 fn == 0)) (.sne rd ra rb (lo3 fn))
  | 26 => need ((hi4 fn == 0)) (.slt rd ra rb (lo3 fn))
  | 27 => need ((hi4 fn == 0)) (.sltu rd ra rb (lo3 fn))
  | 28 => need ((rb == 0) && (fn == 0)) (.mov rd ra)
  | 29 => if lo1 fn == 0 then need ((lo1 fn == 0)) (.extN64 rd ra rb (hi6 fn)) else need ((lo1 fn == 1)) (.extI64 rd ra rb (hi6 fn))
  | 30 => need ((lo1 fn == 0)) (.ins rd ra rb (hi6 fn))
  | 31 => need ((rd == 0) && (rb == 0) && (fn == 0)) (.ret ra)
  | 32 => .ok (.addi rd ra (imm12 rb fn))
  | 33 => .ok (.andi rd ra (imm12 rb fn))
  | 34 => .ok (.ori rd ra (imm12 rb fn))
  | 35 => .ok (.xori rd ra (imm12 rb fn))
  | 36 => need ((rb == 0) && (hi1 fn == 0)) (.shli rd ra (lo6 fn))
  | 37 => need ((rb == 0) && (hi1 fn == 0)) (.shri rd ra (lo6 fn))
  | 38 => need ((rb == 0) && (hi1 fn == 0)) (.sari rd ra (lo6 fn))
  | 39 => need ((ra == 0)) (.li rd (imm12 rb fn))
  | 40 => .ok (.lih rd ra (imm12 rb fn))
  | 41 => .ok (.caddi rd ra (imm12 rb fn))
  | 42 => need ((fn == 0)) (.cadd rd ra rb)
  | 43 => need ((fn == 0)) (.csub rd ra rb)
  | 44 => need ((fn == 0)) (.csetb rd ra rb)
  | 45 => need ((fn == 0)) (.csetp rd ra rb)
  | 46 => need ((fn == 0)) (.csetf rd ra rb)
  | 47 => need ((fn == 0)) (.csetc rd ra rb)
  | 48 => need ((rb == 0) && (fn == 0)) (.cgeta rd ra)
  | 49 => need ((rb == 0) && (fn == 0)) (.cgetb rd ra)
  | 50 => need ((rb == 0) && (fn == 0)) (.cgett rd ra)
  | 51 => need ((rb == 0) && (fn == 0)) (.cgetp rd ra)
  | 52 => need ((rb == 0) && (fn == 0)) (.cgetf rd ra)
  | 53 => need ((rb == 0) && (fn == 0)) (.ctag rd ra)
  | 54 => need ((rb == 0) && (fn == 0)) (.cclr rd ra)
  | 55 => need ((rd == 0)) (.br (off17 ra rb fn))
  | 56 => .ok (.jal rd (off17 ra rb fn))
  | 57 => .ok (.jalr rd ra (imm12 rb fn))
  | 58 => .ok (.bccEq rd ra (imm12 rb fn))
  | 59 => .ok (.bccNe rd ra (imm12 rb fn))
  | 60 => .ok (.bccLt rd ra (imm12 rb fn))
  | 61 => .ok (.bccGe rd ra (imm12 rb fn))
  | 62 => .ok (.bccLtu rd ra (imm12 rb fn))
  | 63 => .ok (.bccGeu rd ra (imm12 rb fn))
  | _ => .error .majorUnassigned

/-- Map 1: the memory, atomic, message and synchronisation instructions (R226), by major opcode. -/
def decodeMap1 (major : Nat) (rd ra rb : BitVec 5) (fn : BitVec 7) : Except Reject Instr :=
  match major with
  | 0 => .ok (.ldI8 rd ra (imm12 rb fn))
  | 1 => .ok (.ldI16 rd ra (imm12 rb fn))
  | 2 => .ok (.ldI32 rd ra (imm12 rb fn))
  | 3 => .ok (.ldI64 rd ra (imm12 rb fn))
  | 4 => .ok (.ldN8 rd ra (imm12 rb fn))
  | 5 => .ok (.ldN16 rd ra (imm12 rb fn))
  | 6 => .ok (.ldN32 rd ra (imm12 rb fn))
  | 7 => .ok (.ldN64 rd ra (imm12 rb fn))
  | 8 => .ok (.st8 rd ra (imm12 rb fn))
  | 9 => .ok (.st16 rd ra (imm12 rb fn))
  | 10 => .ok (.st32 rd ra (imm12 rb fn))
  | 11 => .ok (.st64 rd ra (imm12 rb fn))
  | 12 => .ok (.ldc rd ra (imm12 rb fn))
  | 13 => .ok (.stc rd ra (imm12 rb fn))
  | 14 => need ((hi4 fn == 0)) (.ldAcq rd ra rb (lo3 fn))
  | 15 => need ((hi5 fn == 0)) (.stRel rd ra rb (lo2 fn))
  | 16 => need ((rd == 0) && (rb == 0) && (hi5 fn == 0)) (.fence ra (lo2 fn))
  | 17 => need ((rd == 0) && (ra == 0) && (rb == 0) && (fn == 0)) .ifence
  | 18 => .ok (.pref rd ra (imm12 rb fn))
  | 19 => .ok (.casN32 rd ra rb (hi5 fn) (lo2 fn))
  | 20 => .ok (.casN64 rd ra rb (hi5 fn) (lo2 fn))
  | 21 => need ((fn == 0)) (.send rd ra rb)
  | 22 => need ((fn == 0)) (.sendx rd ra rb)
  | 23 => need ((rd == 0) && (rb == 0) && (hi2 fn == 0)) (.hret ra (mid1 fn) (lo4 fn))
  | 24 => .ok (.amoAddN32 rd ra rb (hi5 fn) (lo2 fn))
  | 25 => .ok (.amoAddN64 rd ra rb (hi5 fn) (lo2 fn))
  | 26 => .ok (.amoAndN32 rd ra rb (hi5 fn) (lo2 fn))
  | 27 => .ok (.amoAndN64 rd ra rb (hi5 fn) (lo2 fn))
  | 28 => .ok (.amoOrN32 rd ra rb (hi5 fn) (lo2 fn))
  | 29 => .ok (.amoOrN64 rd ra rb (hi5 fn) (lo2 fn))
  | 30 => .ok (.amoXorN32 rd ra rb (hi5 fn) (lo2 fn))
  | 31 => .ok (.amoXorN64 rd ra rb (hi5 fn) (lo2 fn))
  | 32 => .ok (.amoMinI32 rd ra rb (hi5 fn) (lo2 fn))
  | 33 => .ok (.amoMinI64 rd ra rb (hi5 fn) (lo2 fn))
  | 34 => .ok (.amoMaxI32 rd ra rb (hi5 fn) (lo2 fn))
  | 35 => .ok (.amoMaxI64 rd ra rb (hi5 fn) (lo2 fn))
  | 36 => .ok (.amoMinuN32 rd ra rb (hi5 fn) (lo2 fn))
  | 37 => .ok (.amoMinuN64 rd ra rb (hi5 fn) (lo2 fn))
  | 38 => .ok (.amoMaxuN32 rd ra rb (hi5 fn) (lo2 fn))
  | 39 => .ok (.amoMaxuN64 rd ra rb (hi5 fn) (lo2 fn))
  | 40 => .ok (.amoSwapN32 rd ra rb (hi5 fn) (lo2 fn))
  | 41 => .ok (.amoSwapN64 rd ra rb (hi5 fn) (lo2 fn))
  | 42 => .ok (.amoFaddF32 rd ra rb (hi5 fn) (lo2 fn))
  | 43 => .ok (.amoFaddBf16 rd ra rb (hi5 fn) (lo2 fn))
  | 44 => if bit5 fn == 0 then need ((rd == 0) && (hi2 fn == 0)) (.putreg ra rb (lo5 fn)) else need ((rd == 0) && (hi2 fn == 1)) (.putregV ra rb (lo5 fn))
  | 45 => if lo1 fn == 0 then need ((ra == 0) && (rb == 0) && (fn == 0)) (.bindMbx rd) else need ((rb == 0) && (fn == 1)) (.bindStr rd ra)
  | 46 => need ((ra == 0) && (rb == 0) && (fn == 0)) (.unbind rd)
  | 47 => if lo1 fn == 0 then need ((ra == 0) && (rb == 0) && (fn == 0)) (.pget rd) else need ((ra == 0) && (rb == 0) && (fn == 1)) (.pgetV rd)
  | 48 => if lo1 fn == 0 then need ((ra == 0) && (rb == 0) && (fn == 0)) (.ppeek rd) else need ((ra == 0) && (rb == 0) && (fn == 1)) (.ppeekV rd)
  | 49 => need ((rb == 0) && (fn == 0)) (.migrate rd ra)
  | 50 => need ((rd == 0) && (rb == 0) && (hi6 fn == 0)) (.lwake ra (lo1 fn))
  | 51 => need ((rd == 0) && (fn == 0)) (.barinit ra rb)
  | 52 => need ((fn == 0)) (.bararr rd ra rb)
  | 53 => need ((fn == 0)) (.bardrop rd ra rb)
  | 54 => need ((fn == 0)) (.barwait rd ra rb)
  | 55 => need ((rd == 0) && (fn == 0)) (.barexp ra rb)
  | 56 => need ((rd == 0) && (rb == 0) && (fn == 0)) (.evsig ra)
  | 57 => need ((rb == 0) && (fn == 0)) (.evwait rd ra)
  | 58 => need ((rd == 0) && (rb == 0) && (fn == 0)) (.evclr ra)
  | 59 => need ((rb == 0) && (fn == 0)) (.evqry rd ra)
  | 60 => need ((rd == 0) && (fn == 0)) (.brdinit ra rb)
  | 61 => need ((hi5 fn == 0)) (.postv rd ra rb (lo2 fn))
  | 62 => need ((hi5 fn == 0)) (.brdread rd ra rb (lo2 fn))
  | 63 => need ((rd == 0) && (rb == 0) && (fn == 0)) (.brdclr ra)
  | _ => .error .majorUnassigned

/-- Map 2: the scheduling, task, tier and system instructions (R227), by major opcode. -/
def decodeMap2 (major : Nat) (rd ra rb : BitVec 5) (fn : BitVec 7) : Except Reject Instr :=
  match major with
  | 0 => need ((rd == 0) && (ra == 0)) (.gang (imm12 rb fn))
  | 1 => need ((rd == 0) && (ra == 0) && (rb == 0) && (fn == 0)) .ungang
  | 2 => need ((rd == 0) && (ra == 0) && (rb == 0) && (fn == 0)) .yield
  | 3 => need ((rb == 0) && (hi5 fn == 0)) (.wait rd ra (lo2 fn))
  | 4 => need ((rd == 0) && (ra == 0) && (rb == 0) && (fn == 0)) .tsync
  | 5 => need ((rd == 0) && (ra == 0) && (rb == 0) && (fn == 0)) .retire
  | 6 => need ((rd == 0) && (ra == 0) && (rb == 0) && (fn == 0)) .nop
  | 7 => need ((rd == 0) && (ra == 0)) (.brk (imm12 rb fn))
  | 8 => need ((rb == 0) && (fn == 0)) (.qpush rd ra)
  | 9 => need ((rb == 0) && (fn == 0)) (.qpop rd ra)
  | 10 => need ((rb == 0) && (hi6 fn == 0)) (.spawn rd ra (lo1 fn))
  | 11 => need ((rb == 0) && (fn == 0)) (.launch rd ra)
  | 12 => if lo1 fn == 0 then need ((rd == 0) && (ra == 0) && (rb == 0) && (fn == 0)) .cplsig else need ((rd == 0) && (rb == 0) && (fn == 1)) (.cplsigTask ra)
  | 13 => need ((rb == 0) && (fn == 0)) (.mwait rd ra)
  | 14 => need ((rb == 0) && (fn == 0)) (.mstat rd ra)
  | 15 => need ((rb == 0) && (fn == 0)) (.cstat rd ra)
  | 16 => need ((rd == 0) && (rb == 0) && (hi4 fn == 0)) (.lvlmap ra (lo3 fn))
  | 17 => need ((rd == 0) && (hi2 fn == 0)) (.lvlrun ra rb (mid2 fn) (lo3 fn))
  | 18 => need ((rd == 0) && (ra == 0)) (.trap (imm12 rb fn))
  | 19 => need ((rd == 0) && (ra == 0) && (rb == 0) && (fn == 0)) .eret
  | 20 => need ((ra == 0)) (.srr rd (imm12 rb fn))
  | 21 => need ((rd == 0)) (.srw ra (imm12 rb fn))
  | 22 => .ok (.srs rd ra (imm12 rb fn))
  | 23 => .ok (.src rd ra (imm12 rb fn))
  | 24 => need ((rd == 0) && (rb == 0) && (fn == 0)) (.partset ra)
  | 25 => need ((rd == 0) && (hi5 fn == 0)) (.tlbinv ra rb (lo2 fn))
  | 26 => need ((rb == 0) && (fn == 0)) (.ctxsave rd ra)
  | 27 => need ((rd == 0) && (rb == 0) && (fn == 0)) (.ctxload ra)
  | 28 => need ((rd == 0) && (rb == 0) && (hi5 fn == 0)) (.curve ra (lo2 fn))
  | 29 => need ((ra == 0) && (rb == 0) && (fn == 0)) (.tsread rd)
  | 30 => need ((rd == 0) && (ra == 0) && (rb == 0) && (fn == 0)) .halt
  | _ => .error .majorUnassigned

/-- A 32-bit form by its map and major. -/
def decode32 (w : BitVec 32) : Except Reject Instr :=
  let major := (w.extractLsb' 22 6).toNat
  let rd := w.extractLsb' 17 5
  let ra := w.extractLsb' 12 5
  let rb := w.extractLsb' 7 5
  let fn := w.extractLsb' 0 7
  match (w.extractLsb' 28 2).toNat with
  | 0 => decodeMap0 major rd ra rb fn
  | 1 => decodeMap1 major rd ra rb fn
  | _ => decodeMap2 major rd ra rb fn

/-! ### 80-bit forms (R216, R217, R228) -/

/-- The fields of the scheduled form; bits [31:27] are reserved. -/
def sform (w : BitVec 80) : SForm :=
  { t := w.extractLsb' 64 4, vd := w.extractLsb' 59 5, va := w.extractLsb' 54 5, vb := w.extractLsb' 49 5
    vc := w.extractLsb' 44 5, pred := w.extractLsb' 41 3, la := w.extractLsb' 37 4, pk := w.extractLsb' 36 1
    fr := w.extractLsb' 32 4, keep := w.extractLsb' 24 3, md := w.extractLsb' 20 4, ps := w.extractLsb' 17 3
    fs := w.extractLsb' 0 17 }

/-- The fields of the engine form. -/
def eform (w : BitVec 80) : EForm :=
  { t := w.extractLsb' 64 4, gj := w.extractLsb' 59 5, ga := w.extractLsb' 54 5, gb := w.extractLsb' 49 5
    gc := w.extractLsb' 44 5, sg := w.extractLsb' 41 3, la := w.extractLsb' 37 4, gd := w.extractLsb' 32 5
    es := w.extractLsb' 0 32 }

/-- The scheduled instruction of an operation number (R228); VBCAST and VMOVG have two forms each, told
apart by MOD (R342). -/
noncomputable def decodeSched (op : Nat) (f : SForm) : Except Reject Instr :=
  match op with
  | 0 => .ok (.vadd f)
  | 1 => .ok (.vsub f)
  | 2 => .ok (.vmul f)
  | 3 => .ok (.vfma f)
  | 4 => .ok (.vfms f)
  | 5 => .ok (.vfnma f)
  | 6 => .ok (.vdiv f)
  | 7 => .ok (.vsqrt f)
  | 8 => .ok (.vmin f)
  | 9 => .ok (.vmax f)
  | 10 => .ok (.vabs f)
  | 11 => .ok (.vneg f)
  | 12 => .ok (.vcmp f)
  | 13 => .ok (.vsel f)
  | 14 => .ok (.vand f)
  | 15 => .ok (.vor f)
  | 16 => .ok (.vxor f)
  | 17 => .ok (.vnot f)
  | 18 => .ok (.vshl f)
  | 19 => .ok (.vshr f)
  | 20 => .ok (.vsar f)
  | 21 => .ok (.viadd f)
  | 22 => .ok (.visub f)
  | 23 => .ok (.vimul f)
  | 32 => .ok (.vcvt f)
  | 33 => .ok (.vscl f)
  | 34 => .ok (.vpack f)
  | 35 => .ok (.vunpk f)
  | 40 => .ok (.vred f)
  | 41 => .ok (.vscan f)
  | 42 => .ok (.vperm f)
  | 43 => .ok (if f.md == 0 then .vbcast f else .vbcastE f)
  | 44 => .ok (if f.md == 0 then .vmovgG f else .vmovgV f)
  | 45 => .ok (.vidx f)
  | 46 => .ok (.vcomp f)
  | 47 => .ok (.vexpd f)
  | 48 => .ok (.vrcp f)
  | 49 => .ok (.vrsq f)
  | 50 => .ok (.vexp2 f)
  | 51 => .ok (.vlog2 f)
  | 52 => .ok (.vsin f)
  | 53 => .ok (.vcos f)
  | 54 => .ok (.vtanh f)
  | 56 => .ok (.vkey f)
  | 57 => .ok (.vhash f)
  | 58 => .ok (.vbin f)
  | 59 => .ok (.vpair f)
  | 64 => .ok (.ldv f)
  | 65 => .ok (.stv f)
  | 66 => .ok (.ldvs f)
  | 67 => .ok (.stvs f)
  | 68 => .ok (.ldvx f)
  | 69 => .ok (.stvx f)
  | _ => .error .opcUnassigned

/-- The engine command of an operation number (R228). CPY is a stream copy when STR is set and a multicast when
MC is (R375-R379); RESTRICT and PROLONG have a fine and a coarse side, told apart by ES [28] (R388). -/
noncomputable def decodeEngine (op : Nat) (f : EForm) : Except Reject Instr :=
  match op with
  | 128 => .ok (.mma f)
  | 129 => .ok (.mld f)
  | 130 => .ok (.mst f)
  | 131 => .ok (.mzero f)
  | 132 => .ok (.mswap f)
  | 133 => .ok (.mcvt f)
  | 136 => .ok (.sigrst f)
  | 137 => .ok (.sigadv f)
  | 138 => .ok (.sigjoin f)
  | 139 => .ok (.siglog f)
  | 140 => .ok (.sigld f)
  | 141 => .ok (.sigst f)
  | 144 => .ok (if cpyStr f then .cpyS f else if cpyMc f then .cpyM f else .cpy f)
  | 145 => .ok (.cgat f)
  | 146 => .ok (.csct f)
  | 147 => .ok (.cfill f)
  | 148 => .ok (.coll f)
  | 152 => .ok (.wload f)
  | 153 => .ok (if stairSide f then .restrictCoarse f else .restrictFine f)
  | 154 => .ok (if stairSide f then .prolongCoarse f else .prolongFine f)
  | _ => .error .opcUnassigned

/-- The constructor of an 80-bit word, before its fields are checked. -/
noncomputable def assemble80 (w : BitVec 80) : Except Reject Instr :=
  let op := (w.extractLsb' 68 8).toNat
  if op < 0x80 then
    if w.extractLsb' 27 5 == 0 then decodeSched op (sform w) else
      match decodeSched op (sform w) with
      | .ok _ => .error .reserved
      | .error r => .error r
  else if op < 0xC0 then decodeEngine op (eform w)
  else if w.extractLsb' 69 7 == 0x7E then .ok (.liW (w.extractLsb' 64 5) (w.extractLsb' 0 64))
  else if w.extractLsb' 64 12 == 0xFE0 then .ok (.safept (w.extractLsb' 32 32) (w.extractLsb' 0 32))
  else .error .opcUnassigned

/-- The fields of the candidate satisfy the instruction's own conditions (R224, check 1). -/
def checked (r : Except Reject Instr) : Except Reject Instr :=
  match r with
  | .error e => .error e
  | .ok i =>
    match illForm i with
    | some e => .error e
    | none => .ok i

/-- The instruction of an 80-bit word (R216-R218). -/
noncomputable def decode80 (w : BitVec 80) : Except Reject Instr := checked (assemble80 w)

/-! ### Parcels in memory (R211) -/

/-- A parcel of two bytes, little-endian. -/
def parcel (b0 b1 : Byte) : BitVec 16 := b1 ++ b0

/-- The length in bytes of the instruction whose first parcel this is (R211). -/
def parcelLength (p : BitVec 16) : Nat :=
  if (p.extractLsb' 14 2).toNat < 3 then 2 else if (p.extractLsb' 12 4).toNat < 15 then 4 else 10

/-- Decoding, total on any list of bytes: the instruction at its head and the bytes after it. -/
noncomputable def decodeBytes : List Byte → Except Reject (Instr × List Byte)
  | b0 :: b1 :: rest =>
    let p := parcel b0 b1
    match parcelLength p with
    | 2 => (checked (decode16 p)).map (·, rest)
    | 4 =>
      match rest with
      | b2 :: b3 :: rest => (checked (decode32 (p ++ parcel b2 b3))).map (·, rest)
      | _ => .error .truncated
    | _ =>
      match rest with
      | b2 :: b3 :: b4 :: b5 :: b6 :: b7 :: b8 :: b9 :: rest =>
        (decode80 (p ++ parcel b2 b3 ++ parcel b4 b5 ++ parcel b6 b7 ++ parcel b8 b9)).map (·, rest)
      | _ => .error .truncated
  | _ => .error .truncated

/-! ### The encoder -/

/-- The word of an instruction in one of the three lengths of R211. -/
inductive Encoding where
  | w16 (w : BitVec 16)
  | w32 (w : BitVec 32)
  | w80 (w : BitVec 80)
deriving DecidableEq, Repr

/-- Function bits in two parts. -/
def pack43 (x : BitVec 4) (y : BitVec 3) : BitVec 7 := x ++ y
def pack52 (x : BitVec 5) (y : BitVec 2) : BitVec 7 := x ++ y
def pack61 (x : BitVec 6) (y : BitVec 1) : BitVec 7 := x ++ y
def pack25 (x : BitVec 2) (y : BitVec 5) : BitVec 7 := x ++ y
def pack16 (x : BitVec 1) (y : BitVec 6) : BitVec 7 := x ++ y
def pack214 (x : BitVec 2) (y : BitVec 1) (z : BitVec 4) : BitVec 7 := x ++ y ++ z
def pack223 (x y : BitVec 2) (z : BitVec 3) : BitVec 7 := x ++ y ++ z
/-- The rb and fn parts of imm12 and the ra, rb and fn parts of off17. -/
def immHi (i : BitVec 12) : BitVec 5 := i.extractLsb' 7 5
def immLo (i : BitVec 12) : BitVec 7 := i.extractLsb' 0 7
def offHi (o : BitVec 17) : BitVec 5 := o.extractLsb' 12 5
def offMid (o : BitVec 17) : BitVec 5 := o.extractLsb' 7 5
def offLo (o : BitVec 17) : BitVec 7 := o.extractLsb' 0 7

/-- A 32-bit word (R214). -/
def word32 (map : BitVec 2) (major : BitVec 6) (rd ra rb : BitVec 5) (fn : BitVec 7) : BitVec 32 :=
  3#2 ++ map ++ major ++ rd ++ ra ++ rb ++ fn

/-- A C.R parcel (R213). -/
def wordCR (op : BitVec 4) (d a : BitVec 5) : BitVec 16 := 0#2 ++ op ++ d ++ a
/-- A C.I parcel (R213). -/
def wordCI (op : BitVec 3) (d : BitVec 5) (i : BitVec 6) : BitVec 16 := 1#2 ++ op ++ d ++ i
/-- A C.S parcel (R213). -/
def wordCS (op : BitVec 4) (arg : BitVec 10) : BitVec 16 := 2#2 ++ op ++ arg

/-- A scheduled word (R216). -/
def wordSched (op : BitVec 8) (f : SForm) : BitVec 80 :=
  15#4 ++ op ++ f.t ++ f.vd ++ f.va ++ f.vb ++ f.vc ++ f.pred ++ f.la ++ f.pk ++ f.fr ++ 0#5 ++ f.keep ++ f.md
    ++ f.ps ++ f.fs

/-- An engine word (R217). -/
def wordEngine (op : BitVec 8) (f : EForm) : BitVec 80 :=
  15#4 ++ op ++ f.t ++ f.gj ++ f.ga ++ f.gb ++ f.gc ++ f.sg ++ f.la ++ f.gd ++ f.es

/-- The encoding of an instruction; the steps of the other agents have none. -/
def encode : Instr → Option Encoding
  | .add d a b w => some (.w32 (word32 0 0 d a b (pack43 0 w)))
  | .sub d a b w => some (.w32 (word32 0 1 d a b (pack43 0 w)))
  | .mul d a b w => some (.w32 (word32 0 2 d a b (pack43 0 w)))
  | .mulh d a b w => some (.w32 (word32 0 3 d a b (pack43 0 w)))
  | .mulhu d a b w => some (.w32 (word32 0 4 d a b (pack43 0 w)))
  | .div d a b w => some (.w32 (word32 0 5 d a b (pack43 0 w)))
  | .divu d a b w => some (.w32 (word32 0 6 d a b (pack43 0 w)))
  | .rem d a b w => some (.w32 (word32 0 7 d a b (pack43 0 w)))
  | .remu d a b w => some (.w32 (word32 0 8 d a b (pack43 0 w)))
  | .and d a b w => some (.w32 (word32 0 9 d a b (pack43 0 w)))
  | .or d a b w => some (.w32 (word32 0 10 d a b (pack43 0 w)))
  | .xor d a b w => some (.w32 (word32 0 11 d a b (pack43 0 w)))
  | .shl d a b w => some (.w32 (word32 0 12 d a b (pack43 0 w)))
  | .shr d a b w => some (.w32 (word32 0 13 d a b (pack43 0 w)))
  | .sar d a b w => some (.w32 (word32 0 14 d a b (pack43 0 w)))
  | .rol d a b w => some (.w32 (word32 0 15 d a b (pack43 0 w)))
  | .clz d a w => some (.w32 (word32 0 16 d a 0 (pack43 0 w)))
  | .ctz d a w => some (.w32 (word32 0 17 d a 0 (pack43 0 w)))
  | .popc d a w => some (.w32 (word32 0 18 d a 0 (pack43 0 w)))
  | .min d a b w => some (.w32 (word32 0 19 d a b (pack43 0 w)))
  | .max d a b w => some (.w32 (word32 0 20 d a b (pack43 0 w)))
  | .minu d a b w => some (.w32 (word32 0 21 d a b (pack43 0 w)))
  | .maxu d a b w => some (.w32 (word32 0 22 d a b (pack43 0 w)))
  | .sel d a b c => some (.w32 (word32 0 23 d a b (pack52 c 0)))
  | .seq d a b w => some (.w32 (word32 0 24 d a b (pack43 0 w)))
  | .sne d a b w => some (.w32 (word32 0 25 d a b (pack43 0 w)))
  | .slt d a b w => some (.w32 (word32 0 26 d a b (pack43 0 w)))
  | .sltu d a b w => some (.w32 (word32 0 27 d a b (pack43 0 w)))
  | .mov d a => some (.w32 (word32 0 28 d a 0 0))
  | .extN64 d a b l => some (.w32 (word32 0 29 d a b (pack61 l 0)))
  | .extI64 d a b l => some (.w32 (word32 0 29 d a b (pack61 l 1)))
  | .ins d a b l => some (.w32 (word32 0 30 d a b (pack61 l 0)))
  | .ret a => some (.w32 (word32 0 31 0 a 0 0))
  | .addi d a i => some (.w32 (word32 0 32 d a (immHi i) (immLo i)))
  | .andi d a i => some (.w32 (word32 0 33 d a (immHi i) (immLo i)))
  | .ori d a i => some (.w32 (word32 0 34 d a (immHi i) (immLo i)))
  | .xori d a i => some (.w32 (word32 0 35 d a (immHi i) (immLo i)))
  | .shli d a u => some (.w32 (word32 0 36 d a 0 (pack16 0 u)))
  | .shri d a u => some (.w32 (word32 0 37 d a 0 (pack16 0 u)))
  | .sari d a u => some (.w32 (word32 0 38 d a 0 (pack16 0 u)))
  | .li d i => some (.w32 (word32 0 39 d 0 (immHi i) (immLo i)))
  | .lih d a i => some (.w32 (word32 0 40 d a (immHi i) (immLo i)))
  | .caddi d a i => some (.w32 (word32 0 41 d a (immHi i) (immLo i)))
  | .cadd d a b => some (.w32 (word32 0 42 d a b 0))
  | .csub d a b => some (.w32 (word32 0 43 d a b 0))
  | .csetb d a b => some (.w32 (word32 0 44 d a b 0))
  | .csetp d a b => some (.w32 (word32 0 45 d a b 0))
  | .csetf d a b => some (.w32 (word32 0 46 d a b 0))
  | .csetc d a b => some (.w32 (word32 0 47 d a b 0))
  | .cgeta d a => some (.w32 (word32 0 48 d a 0 0))
  | .cgetb d a => some (.w32 (word32 0 49 d a 0 0))
  | .cgett d a => some (.w32 (word32 0 50 d a 0 0))
  | .cgetp d a => some (.w32 (word32 0 51 d a 0 0))
  | .cgetf d a => some (.w32 (word32 0 52 d a 0 0))
  | .ctag d a => some (.w32 (word32 0 53 d a 0 0))
  | .cclr d a => some (.w32 (word32 0 54 d a 0 0))
  | .br o => some (.w32 (word32 0 55 0 (offHi o) (offMid o) (offLo o)))
  | .jal d o => some (.w32 (word32 0 56 d (offHi o) (offMid o) (offLo o)))
  | .jalr d a i => some (.w32 (word32 0 57 d a (immHi i) (immLo i)))
  | .bccEq d a i => some (.w32 (word32 0 58 d a (immHi i) (immLo i)))
  | .bccNe d a i => some (.w32 (word32 0 59 d a (immHi i) (immLo i)))
  | .bccLt d a i => some (.w32 (word32 0 60 d a (immHi i) (immLo i)))
  | .bccGe d a i => some (.w32 (word32 0 61 d a (immHi i) (immLo i)))
  | .bccLtu d a i => some (.w32 (word32 0 62 d a (immHi i) (immLo i)))
  | .bccGeu d a i => some (.w32 (word32 0 63 d a (immHi i) (immLo i)))
  | .ldI8 d a i => some (.w32 (word32 1 0 d a (immHi i) (immLo i)))
  | .ldI16 d a i => some (.w32 (word32 1 1 d a (immHi i) (immLo i)))
  | .ldI32 d a i => some (.w32 (word32 1 2 d a (immHi i) (immLo i)))
  | .ldI64 d a i => some (.w32 (word32 1 3 d a (immHi i) (immLo i)))
  | .ldN8 d a i => some (.w32 (word32 1 4 d a (immHi i) (immLo i)))
  | .ldN16 d a i => some (.w32 (word32 1 5 d a (immHi i) (immLo i)))
  | .ldN32 d a i => some (.w32 (word32 1 6 d a (immHi i) (immLo i)))
  | .ldN64 d a i => some (.w32 (word32 1 7 d a (immHi i) (immLo i)))
  | .st8 d a i => some (.w32 (word32 1 8 d a (immHi i) (immLo i)))
  | .st16 d a i => some (.w32 (word32 1 9 d a (immHi i) (immLo i)))
  | .st32 d a i => some (.w32 (word32 1 10 d a (immHi i) (immLo i)))
  | .st64 d a i => some (.w32 (word32 1 11 d a (immHi i) (immLo i)))
  | .ldc d a i => some (.w32 (word32 1 12 d a (immHi i) (immLo i)))
  | .stc d a i => some (.w32 (word32 1 13 d a (immHi i) (immLo i)))
  | .ldAcq d a b w => some (.w32 (word32 1 14 d a b (pack43 0 w)))
  | .stRel d a b z => some (.w32 (word32 1 15 d a b (pack52 0 z)))
  | .fence a o => some (.w32 (word32 1 16 0 a 0 (pack52 0 o)))
  | .ifence => some (.w32 (word32 1 17 0 0 0 0))
  | .pref h a i => some (.w32 (word32 1 18 h a (immHi i) (immLo i)))
  | .casN32 d a b c o => some (.w32 (word32 1 19 d a b (pack52 c o)))
  | .casN64 d a b c o => some (.w32 (word32 1 20 d a b (pack52 c o)))
  | .send d a b => some (.w32 (word32 1 21 d a b 0))
  | .sendx d a b => some (.w32 (word32 1 22 d a b 0))
  | .hret a v m => some (.w32 (word32 1 23 0 a 0 (pack214 0 v m)))
  | .amoAddN32 d a b c o => some (.w32 (word32 1 24 d a b (pack52 c o)))
  | .amoAddN64 d a b c o => some (.w32 (word32 1 25 d a b (pack52 c o)))
  | .amoAndN32 d a b c o => some (.w32 (word32 1 26 d a b (pack52 c o)))
  | .amoAndN64 d a b c o => some (.w32 (word32 1 27 d a b (pack52 c o)))
  | .amoOrN32 d a b c o => some (.w32 (word32 1 28 d a b (pack52 c o)))
  | .amoOrN64 d a b c o => some (.w32 (word32 1 29 d a b (pack52 c o)))
  | .amoXorN32 d a b c o => some (.w32 (word32 1 30 d a b (pack52 c o)))
  | .amoXorN64 d a b c o => some (.w32 (word32 1 31 d a b (pack52 c o)))
  | .amoMinI32 d a b c o => some (.w32 (word32 1 32 d a b (pack52 c o)))
  | .amoMinI64 d a b c o => some (.w32 (word32 1 33 d a b (pack52 c o)))
  | .amoMaxI32 d a b c o => some (.w32 (word32 1 34 d a b (pack52 c o)))
  | .amoMaxI64 d a b c o => some (.w32 (word32 1 35 d a b (pack52 c o)))
  | .amoMinuN32 d a b c o => some (.w32 (word32 1 36 d a b (pack52 c o)))
  | .amoMinuN64 d a b c o => some (.w32 (word32 1 37 d a b (pack52 c o)))
  | .amoMaxuN32 d a b c o => some (.w32 (word32 1 38 d a b (pack52 c o)))
  | .amoMaxuN64 d a b c o => some (.w32 (word32 1 39 d a b (pack52 c o)))
  | .amoSwapN32 d a b c o => some (.w32 (word32 1 40 d a b (pack52 c o)))
  | .amoSwapN64 d a b c o => some (.w32 (word32 1 41 d a b (pack52 c o)))
  | .amoFaddF32 d a b c o => some (.w32 (word32 1 42 d a b (pack52 c o)))
  | .amoFaddBf16 d a b c o => some (.w32 (word32 1 43 d a b (pack52 c o)))
  | .putreg a b p => some (.w32 (word32 1 44 0 a b (pack25 0 p)))
  | .putregV a b p => some (.w32 (word32 1 44 0 a b (pack25 1 p)))
  | .bindMbx d => some (.w32 (word32 1 45 d 0 0 0))
  | .bindStr d a => some (.w32 (word32 1 45 d a 0 1))
  | .unbind d => some (.w32 (word32 1 46 d 0 0 0))
  | .pget d => some (.w32 (word32 1 47 d 0 0 0))
  | .pgetV d => some (.w32 (word32 1 47 d 0 0 1))
  | .ppeek d => some (.w32 (word32 1 48 d 0 0 0))
  | .ppeekV d => some (.w32 (word32 1 48 d 0 0 1))
  | .migrate d a => some (.w32 (word32 1 49 d a 0 0))
  | .lwake a z => some (.w32 (word32 1 50 0 a 0 (pack61 0 z)))
  | .barinit a b => some (.w32 (word32 1 51 0 a b 0))
  | .bararr d a b => some (.w32 (word32 1 52 d a b 0))
  | .bardrop d a b => some (.w32 (word32 1 53 d a b 0))
  | .barwait d a b => some (.w32 (word32 1 54 d a b 0))
  | .barexp a b => some (.w32 (word32 1 55 0 a b 0))
  | .evsig a => some (.w32 (word32 1 56 0 a 0 0))
  | .evwait d a => some (.w32 (word32 1 57 d a 0 0))
  | .evclr a => some (.w32 (word32 1 58 0 a 0 0))
  | .evqry d a => some (.w32 (word32 1 59 d a 0 0))
  | .brdinit a b => some (.w32 (word32 1 60 0 a b 0))
  | .postv d a b v => some (.w32 (word32 1 61 d a b (pack52 0 v)))
  | .brdread d a b v => some (.w32 (word32 1 62 d a b (pack52 0 v)))
  | .brdclr a => some (.w32 (word32 1 63 0 a 0 0))
  | .gang i => some (.w32 (word32 2 0 0 0 (immHi i) (immLo i)))
  | .ungang => some (.w32 (word32 2 1 0 0 0 0))
  | .yield => some (.w32 (word32 2 2 0 0 0 0))
  | .wait d a w => some (.w32 (word32 2 3 d a 0 (pack52 0 w)))
  | .tsync => some (.w32 (word32 2 4 0 0 0 0))
  | .retire => some (.w32 (word32 2 5 0 0 0 0))
  | .nop => some (.w32 (word32 2 6 0 0 0 0))
  | .brk i => some (.w32 (word32 2 7 0 0 (immHi i) (immLo i)))
  | .qpush d a => some (.w32 (word32 2 8 d a 0 0))
  | .qpop d a => some (.w32 (word32 2 9 d a 0 0))
  | .spawn d a t => some (.w32 (word32 2 10 d a 0 (pack61 0 t)))
  | .launch d a => some (.w32 (word32 2 11 d a 0 0))
  | .cplsig => some (.w32 (word32 2 12 0 0 0 0))
  | .cplsigTask a => some (.w32 (word32 2 12 0 a 0 1))
  | .mwait d a => some (.w32 (word32 2 13 d a 0 0))
  | .mstat d a => some (.w32 (word32 2 14 d a 0 0))
  | .cstat d a => some (.w32 (word32 2 15 d a 0 0))
  | .lvlmap a l => some (.w32 (word32 2 16 0 a 0 (pack43 0 l)))
  | .lvlrun a b p l => some (.w32 (word32 2 17 0 a b (pack223 0 p l)))
  | .trap i => some (.w32 (word32 2 18 0 0 (immHi i) (immLo i)))
  | .eret => some (.w32 (word32 2 19 0 0 0 0))
  | .srr d i => some (.w32 (word32 2 20 d 0 (immHi i) (immLo i)))
  | .srw a i => some (.w32 (word32 2 21 0 a (immHi i) (immLo i)))
  | .srs d a i => some (.w32 (word32 2 22 d a (immHi i) (immLo i)))
  | .src d a i => some (.w32 (word32 2 23 d a (immHi i) (immLo i)))
  | .partset a => some (.w32 (word32 2 24 0 a 0 0))
  | .tlbinv a b k => some (.w32 (word32 2 25 0 a b (pack52 0 k)))
  | .ctxsave d a => some (.w32 (word32 2 26 d a 0 0))
  | .ctxload a => some (.w32 (word32 2 27 0 a 0 0))
  | .curve a c => some (.w32 (word32 2 28 0 a 0 (pack52 0 c)))
  | .tsread d => some (.w32 (word32 2 29 d 0 0 0))
  | .halt => some (.w32 (word32 2 30 0 0 0 0))
  | .cAdd d a => some (.w16 (wordCR 1 d a))
  | .cSub d a => some (.w16 (wordCR 2 d a))
  | .cAnd d a => some (.w16 (wordCR 3 d a))
  | .cOr d a => some (.w16 (wordCR 4 d a))
  | .cXor d a => some (.w16 (wordCR 5 d a))
  | .cShl d a => some (.w16 (wordCR 6 d a))
  | .cShr d a => some (.w16 (wordCR 7 d a))
  | .cSar d a => some (.w16 (wordCR 8 d a))
  | .cMul d a => some (.w16 (wordCR 9 d a))
  | .cMin d a => some (.w16 (wordCR 10 d a))
  | .cMax d a => some (.w16 (wordCR 11 d a))
  | .cMinu d a => some (.w16 (wordCR 12 d a))
  | .cMaxu d a => some (.w16 (wordCR 13 d a))
  | .cSlt d a => some (.w16 (wordCR 14 d a))
  | .cMov d a => some (.w16 (wordCR 15 d a))
  | .cAddi d i => some (.w16 (wordCI 0 d i))
  | .cLi d i => some (.w16 (wordCI 1 d i))
  | .cShli d i => some (.w16 (wordCI 2 d i))
  | .cShri d i => some (.w16 (wordCI 3 d i))
  | .cSari d i => some (.w16 (wordCI 4 d i))
  | .cAndi d i => some (.w16 (wordCI 5 d i))
  | .cCaddi d i => some (.w16 (wordCI 6 d i))
  | .cNop => some (.w16 (wordCS 0 0))
  | .cRet => some (.w16 (wordCS 1 0))
  | .cYield => some (.w16 (wordCS 2 0))
  | .cTsync => some (.w16 (wordCS 3 0))
  | .cRetire => some (.w16 (wordCS 4 0))
  | .cUngang => some (.w16 (wordCS 5 0))
  | .cBrk i => some (.w16 (wordCS 6 i))
  | .liW d imm => some (.w80 (15#4 ++ 0x7E#7 ++ d ++ imm))
  | .safept gm vm => some (.w80 (15#4 ++ 0xFE0#12 ++ gm ++ vm))
  | .vadd f => some (.w80 (wordSched 0 f))
  | .vsub f => some (.w80 (wordSched 1 f))
  | .vmul f => some (.w80 (wordSched 2 f))
  | .vfma f => some (.w80 (wordSched 3 f))
  | .vfms f => some (.w80 (wordSched 4 f))
  | .vfnma f => some (.w80 (wordSched 5 f))
  | .vdiv f => some (.w80 (wordSched 6 f))
  | .vsqrt f => some (.w80 (wordSched 7 f))
  | .vmin f => some (.w80 (wordSched 8 f))
  | .vmax f => some (.w80 (wordSched 9 f))
  | .vabs f => some (.w80 (wordSched 10 f))
  | .vneg f => some (.w80 (wordSched 11 f))
  | .vcmp f => some (.w80 (wordSched 12 f))
  | .vsel f => some (.w80 (wordSched 13 f))
  | .vand f => some (.w80 (wordSched 14 f))
  | .vor f => some (.w80 (wordSched 15 f))
  | .vxor f => some (.w80 (wordSched 16 f))
  | .vnot f => some (.w80 (wordSched 17 f))
  | .vshl f => some (.w80 (wordSched 18 f))
  | .vshr f => some (.w80 (wordSched 19 f))
  | .vsar f => some (.w80 (wordSched 20 f))
  | .viadd f => some (.w80 (wordSched 21 f))
  | .visub f => some (.w80 (wordSched 22 f))
  | .vimul f => some (.w80 (wordSched 23 f))
  | .vcvt f => some (.w80 (wordSched 32 f))
  | .vscl f => some (.w80 (wordSched 33 f))
  | .vpack f => some (.w80 (wordSched 34 f))
  | .vunpk f => some (.w80 (wordSched 35 f))
  | .vred f => some (.w80 (wordSched 40 f))
  | .vscan f => some (.w80 (wordSched 41 f))
  | .vperm f => some (.w80 (wordSched 42 f))
  | .vbcast f => some (.w80 (wordSched 43 f))
  | .vbcastE f => some (.w80 (wordSched 43 f))
  | .vmovgG f => some (.w80 (wordSched 44 f))
  | .vmovgV f => some (.w80 (wordSched 44 f))
  | .vidx f => some (.w80 (wordSched 45 f))
  | .vcomp f => some (.w80 (wordSched 46 f))
  | .vexpd f => some (.w80 (wordSched 47 f))
  | .vrcp f => some (.w80 (wordSched 48 f))
  | .vrsq f => some (.w80 (wordSched 49 f))
  | .vexp2 f => some (.w80 (wordSched 50 f))
  | .vlog2 f => some (.w80 (wordSched 51 f))
  | .vsin f => some (.w80 (wordSched 52 f))
  | .vcos f => some (.w80 (wordSched 53 f))
  | .vtanh f => some (.w80 (wordSched 54 f))
  | .vkey f => some (.w80 (wordSched 56 f))
  | .vhash f => some (.w80 (wordSched 57 f))
  | .vbin f => some (.w80 (wordSched 58 f))
  | .vpair f => some (.w80 (wordSched 59 f))
  | .ldv f => some (.w80 (wordSched 64 f))
  | .stv f => some (.w80 (wordSched 65 f))
  | .ldvs f => some (.w80 (wordSched 66 f))
  | .stvs f => some (.w80 (wordSched 67 f))
  | .ldvx f => some (.w80 (wordSched 68 f))
  | .stvx f => some (.w80 (wordSched 69 f))
  | .mma f => some (.w80 (wordEngine 128 f))
  | .mld f => some (.w80 (wordEngine 129 f))
  | .mst f => some (.w80 (wordEngine 130 f))
  | .mzero f => some (.w80 (wordEngine 131 f))
  | .mswap f => some (.w80 (wordEngine 132 f))
  | .mcvt f => some (.w80 (wordEngine 133 f))
  | .sigrst f => some (.w80 (wordEngine 136 f))
  | .sigadv f => some (.w80 (wordEngine 137 f))
  | .sigjoin f => some (.w80 (wordEngine 138 f))
  | .siglog f => some (.w80 (wordEngine 139 f))
  | .sigld f => some (.w80 (wordEngine 140 f))
  | .sigst f => some (.w80 (wordEngine 141 f))
  | .cpy f => some (.w80 (wordEngine 144 f))
  | .cpyM f => some (.w80 (wordEngine 144 f))
  | .cpyS f => some (.w80 (wordEngine 144 f))
  | .cgat f => some (.w80 (wordEngine 145 f))
  | .csct f => some (.w80 (wordEngine 146 f))
  | .cfill f => some (.w80 (wordEngine 147 f))
  | .coll f => some (.w80 (wordEngine 148 f))
  | .wload f => some (.w80 (wordEngine 152 f))
  | .restrictFine f => some (.w80 (wordEngine 153 f))
  | .restrictCoarse f => some (.w80 (wordEngine 153 f))
  | .prolongCoarse f => some (.w80 (wordEngine 154 f))
  | .prolongFine f => some (.w80 (wordEngine 154 f))
  | .load _ _ => none
  | .store _ _ => none
  | .loadcap _ _ => none
  | .storecap _ _ => none
  | .amo _ _ => none
  | .cas _ _ => none
  | .active _ _ => none
  | .portw _ _ => none
  | .dataRpl _ _ => none
  | .ackRpl _ _ => none
  | .faultRpl _ _ => none
  | .nakRpl _ _ => none
  | .hreply _ _ => none
  | .migack _ _ => none
  | .wayfarer _ _ => none
  | .ewrite _ _ => none
  | .eread _ _ => none
  | .edata _ _ => none
  | .done _ _ => none
  | .chunk _ _ => none
  | .probe _ _ => none
  | .event _ _ => none
  | .wake _ _ => none
  | .walk _ _ => none
  | .walkrpl _ _ => none
  | .shoot _ _ => none
  | .record _ _ => none
  | .handlerStart _ => none
  | .builtinAtomicDispatch _ => none
  | .mailboxPortwDelivery _ => none
  | .heldDoneWritten _ => none
  | .queueBlockedTimeout _ _ => none
  | .threadSendQueueRoom _ _ => none
  | .waitDeadline _ _ => none
  | .barwaitRetry _ _ => none
  | .overflowReplay _ => none
  | .poolArbitration _ => none
  | .poolRebuildWriteback _ _ => none
  | .partwChange _ => none
  | .testerQuiesce _ _ _ => none
  | .testerAbort _ _ => none
  | .selfTestComplete _ _ _ _ => none
  | .pageMove _ _ _ => none
  | .pageLockRelease _ _ => none
  | .plannedOffline _ => none
  | .forcedOffline _ _ => none
  | .dieDrain _ => none
  | .dieRemap _ _ => none
  | .routeRecomputation => none
  | .routeTableInstall => none
  | .linkNarrow _ _ => none
  | .linkSleep _ _ => none
  | .linkWakeComplete _ _ => none
  | .stealRequest _ _ => none
  | .stealResponse _ => none
  | .stealPortTimeout _ _ => none
  | .hostCommand _ _ => none
  | .jobAccept _ _ => none
  | .jobCompletion _ => none
  | .idleCoreSearch _ => none
  | .idleSearchTimer _ => none
  | .recordPassLimit _ => none
  | .teamPlacement _ => none
  | .bandPlacement _ => none
  | .bandReservation _ => none
  | .preemptionMark _ _ => none
  | .forcedSave _ _ => none
  | .unitResume _ _ => none
  | .matrixJobStart _ => none
  | .matrixJobComplete _ => none
  | .engineSplitStop _ _ _ => none
  | .porterJobStart _ => none
  | .porterJobComplete _ _ => none
  | .parkedPieceReplay _ => none
  | .streamFifoEntry _ _ => none
  | .ringJobComplete _ => none
  | .stairJobStart _ => none
  | .stairJobComplete _ => none
  | .stairLinkFailure _ => none
  | .pageResident _ _ _ _ => none
  | .fabricInboundAccess _ _ _ _ _ => none
  | .windowWithdraw _ _ => none
  | .windowInvalidate _ _ => none
  | .securityAlarm _ => none
  | .bringUp => none
  | .thermalThrottle _ => none
  | .thermalShutdown => none
  | .mctpRequest _ => none
  | .lpqRemoveHead _ => none
  | .lpqClearCnt _ => none
  | .runControlResume _ => none
  | .memoryRequest _ _ _ _ _ => none
  | .pageRelease _ _ => none
  | .pageNonResident _ _ => none
  | .windowImport _ _ _ => none
  | .ringInstall _ _ _ _ _ => none
  | .ringMemberLoss _ _ => none
  | .overflowQueueExtend _ => none

/-- The two bytes of a parcel, little-endian (R211). -/
def parcelBytes (p : BitVec 16) : List Byte := [p.extractLsb' 0 8, p.extractLsb' 8 8]

/-- The bytes of an encoding as they stand in memory: parcel 0, the most significant, first. -/
def Encoding.bytes : Encoding → List Byte
  | .w16 w => parcelBytes w
  | .w32 w => parcelBytes (w.extractLsb' 16 16) ++ parcelBytes (w.extractLsb' 0 16)
  | .w80 w =>
    parcelBytes (w.extractLsb' 64 16) ++ parcelBytes (w.extractLsb' 48 16) ++ parcelBytes (w.extractLsb' 32 16)
      ++ parcelBytes (w.extractLsb' 16 16) ++ parcelBytes (w.extractLsb' 0 16)

/-- The bytes of an instruction word given as a number, its first `nbits` bits as the opcode table numbers them:
parcel 0 is the most significant parcel of a word of the table's width, and an instruction longer than that width
has zeros in its further parcels. -/
def tableBytes (nbits w : Nat) : List Byte :=
  let n := (nbits + 15) / 16
  let parcelAt (k : Nat) : BitVec 16 := if k < n then BitVec.ofNat 16 (w / 2 ^ (16 * (n - 1 - k))) else 0
  parcelBytes (parcelAt 0) ++ parcelBytes (parcelAt 1) ++ parcelBytes (parcelAt 2) ++ parcelBytes (parcelAt 3)
    ++ parcelBytes (parcelAt 4)

/-- What the decoder reads from an instruction whose bits are `w` in the opcode table's numbering. -/
noncomputable def decodeTableWord (nbits w : Nat) : Option Instr :=
  match decodeBytes (tableBytes nbits w) with
  | .ok (i, _) => some i
  | .error _ => none

end Sys2Proof
end

