-- ==== Sys2Proof/Machine/Fetch.lean ====
section
/-! DEFINITION. Sys2Proof/Machine/Fetch.lean: which slot issues (R183, R184, R415) and what it fetches (R157, R158, R211, R212, R437, R451). -/

namespace Sys2Proof.Machine

/-- The module's cores run: bring-up has started them and nothing has stopped them (R447, R451, R452). -/
def State.running (s : State) (c : Coord) : Bool :=
  5 ≤ s.pkg.bringUp && !s.pkg.shutdown && s.pkg.alarm < 2 && s.dieLive c.die

/-- A slot can issue in this cycle. -/
def canIssue (held : List Nat) (i : Nat) (x : Slot) : Bool :=
  x.st == .ready && !held.contains i && x.gang.leader.isNone

/-- The first of `l`, and of those as good as it by `better`, in index order. -/
def best {α : Type} (better : α → α → Bool) : List α → Option α
  | [] => none
  | x :: r =>
    match best better r with
    | none => some x
    | some y => if better y x then some y else some x

/-- IssueChoice (R415), over the slots that can issue in this cycle; on a halted core only a handler that runs (R400). -/
def issueChoice (c : Coord) (x : Core) (held : List Nat) : Option Nat :=
  let ready := (List.range (slotCount c)).filter fun i => canIssue held i (x.slotAt i)
  if ready.contains 0 then some 0
  else if x.halted then none
  else
    let old := ready.filter fun i => 2 * slotCount c ≤ (x.slotAt i).age
    match best (fun i j => (x.slotAt j).age < (x.slotAt i).age) old with
    | some i => some i
    | none =>
      best (fun i j => (x.slotAt j).pri < (x.slotAt i).pri ||
        ((x.slotAt j).pri == (x.slotAt i).pri && (x.slotAt i).stamp < (x.slotAt j).stamp)) ready

/-- The core after slot `i` has been chosen: its stamp is written, its age is 0, and the other slots that could have
issued are a cycle older, unless the handler slot is the one that issues (R415). -/
def stampIssue (x : Core) (held : List Nat) (i : Nat) : Core :=
  let n := x.stampCounter + 1
  { x with
    stampCounter := n
    slots := x.slots.map fun (j, y) =>
      if j = i then (j, { y with stamp := n, age := 0 })
      else if j ≠ 0 ∧ i ≠ 0 ∧ canIssue held j y then (j, { y with age := y.age + 1 })
      else (j, y) }

/-- What a fetch gives (R212). -/
inductive Fetched where
  | ok (i : Instr) (head : Word)
  /-- the bytes are no instruction -/
  | illegal (head : Word)
  | trap (cause : Nat) (eaddr : Word)
  /-- a translation miss at this address -/
  | miss (space : Space) (va : Nat) (eaddr : Word)
  | locked
  /-- the tester holds the bus of this frame (R85) -/
  | busy (pa : Nat)
deriving DecidableEq, Repr

/-- What an instruction fetch needs (R212). -/
def fetchNeed : Need := { x := true, fetch := true, element := true }

/-- The two bytes of parcel `k` of the instruction at the PC, checked by R47. -/
def State.fetchParcel (s : State) (k : Nat) : Check :=
  let x : Int := s.sl.pc.addr.toNat + 2 * k
  checkPart s { core := s.core, priv := s.sl.priv, job := s.jobNo } s.sl.pc fetchNeed x 2 x 2

/-- Bytes of the parcels from `k` on, `n` of them; each parcel is stored little-endian (R7). -/
def State.fetchParcels (s : State) : Nat → Nat → Check × List Byte
  | 0, _ => (.ok (.key 0), [])
  | n + 1, k =>
    match s.fetchParcel k with
    | .ok r =>
      match s.fetchParcels n (k + 1) with
      | (.ok q, l) => (.ok q, s.readBytes r.place 2 ++ l)
      | (c, l) => (c, l)
    | c => (c, [])

/-- Parcels 0 to 3 of an instruction, parcel 0 in [63:48], zero beyond its length (R421). -/
def headOf : List Byte → Nat → Nat
  | _, 0 => 0
  | b0 :: b1 :: r, n + 1 => (parcel b0 b1).toNat * 2 ^ (16 * n) + headOf r n
  | _, _ + 1 => 0

/-- What the bytes of a whole instruction give. -/
noncomputable def fetchDecode (l : List Byte) : Fetched :=
  match decodeBytes l with
  | .ok (i, _) => .ok i (word (headOf l 4))
  | .error _ => .illegal (word (headOf l 4))

/-- The end of a fetch that could not read every byte. -/
def fetchFails : Check → Fetched
  | .ok _ => .locked
  | .bad cause eaddr => .trap cause eaddr
  | .miss space va eaddr => .miss space va eaddr
  | .locked => .locked
  | .busy pa => .busy pa

/-- THE FETCH: parcel 0 gives the length, every byte is checked, and the bytes are decoded (R211, R212). DESIGN CHOICE (log 4): of
the bytes that R158 lets a fetch return where the steps of R157 have not been made, it returns the newest. -/
noncomputable def State.fetch (s : State) : Fetched :=
  match s.fetchParcels 1 0 with
  | (.ok _, b0 :: b1 :: _) =>
    match s.fetchParcels (parcelLength (parcel b0 b1) / 2) 0 with
    | (.ok _, l) => fetchDecode l
    | (c, _) => fetchFails c
  | (c, _) => fetchFails c

end Sys2Proof.Machine
end

