-- ==== Sys2Proof/Machine/Placement.lean ====
section
/-! DEFINITION. Sys2Proof/Machine/Placement.lean: how a thread, a team or a band comes into slots, and how a core changes its job (R57, R163, R169-R175, R308, R407, R411, R412, R435, R455-R457). -/

namespace Sys2Proof.Machine

/-! ### A core takes on a job (R407, R435) -/

/-- The key of the area whose accumulators are not in force, and its bytes (R352, R435). -/
def Core.idleArea (x : Core) (c : Coord) : Nat × Nat :=
  let p := x.partw
  (poolKey c (496 * (if x.eng.bank then vrs p else vrs p + acs p)), 496 * acs p)

/-- The key of the area in force. -/
def Core.activeArea (x : Core) (c : Coord) : Nat × Nat :=
  let p := x.partw
  (poolKey c (496 * (if x.eng.bank then vrs p + acs p else vrs p)), 496 * acs p)

/-- The unit was saved from the core and belongs to the job. -/
def SavedUnit.leftFrom (u : SavedUnit) (job : Nat) (c : Coord) : Bool := u.job == job && u.threads.any fun t => t.core == c

/-- Saved units changed, on every die. -/
def State.mapSaved (s : State) (f : SavedUnit → SavedUnit) : State :=
  { s with dies := s.dies.map fun (d, x) => (d, { x with saved := x.saved.map f }) }

/-- Accumulators of the unit stay resident on the core: its threads saved from it name it, and it is bound to the die (R429, R435). -/
def SavedUnit.bindTo (u : SavedUnit) (c : Coord) : SavedUnit :=
  { u with bound := some c.die, threads := u.threads.map fun x => if x.core = c then { x with home := some c } else x }

/-- The accumulators have left the core: the unit is bound no longer, unless other accumulators or a replay state hold it
(R429, R435). -/
def SavedUnit.unbindFrom (u : SavedUnit) (c : Coord) : SavedUnit :=
  let l := u.threads.map fun x => if x.home = some c then { x with home := none } else x
  { u with threads := l, bound := if l.any fun x => x.home.isSome || keepsReplay x then u.bound else none }

/-- A job has a saved unit from the core. -/
def State.leftOn (s : State) (job : Nat) (c : Coord) : Bool := s.dies.any fun (_, x) => x.saved.any fun u => u.leftFrom job c

/-- The resident accumulators of a third job go to its save area, and its images are unbound (R435). -/
def State.evictResident (s : State) (c : Coord) : State :=
  let x := s.coreAt c
  match x.resident with
  | some o =>
    let (k, n) := x.idleArea c
    let t := s.setJob o { s.jobAt o with saveArea := (c, s.readBytes k n) :: (s.jobAt o).saveArea.filter (·.1 != c) }
    (t.mapSaved fun u => if u.job == o then u.unbindFrom c else u).modCore c fun x => { x with resident := none }
  | none => s

/-- Accumulators in the save area come back to their core (R435, R439). -/
def State.restoreArea (s : State) (c : Coord) (job : Nat) : State :=
  let j := s.jobAt job
  match j.saveArea.find? (·.1 == c) with
  | some (_, l) =>
    let (k, n) := (s.coreAt c).activeArea c
    (s.writeBytes k (l.take n)).setJob job { j with saveArea := j.saveArea.filter (·.1 != c) }
  | none => s

/-- The swap of R435 is open: equal partitions with a shadow area, and accumulators worth keeping. -/
def State.maySwap (s : State) (c : Coord) (job : Nat) : Bool :=
  let x := s.coreAt c
  let p := x.partw
  p == look 0 (s.jobAt job).pw (tier c) && shs p == acs p && acs p != 0 &&
  match x.owner with
  | some o => o != job && (s.jobAt o).live && (s.leftOn o c || x.resident == some job)
  | none => false

/-- A quiet core takes on a job: where accumulators of a saved unit can stay resident they do (log 12). -/
def State.takeJob (s : State) (c : Coord) (job : Nat) : State :=
  let s := if (s.coreAt c).resident == some job then s else s.evictResident c
  let t :=
    if s.maySwap c job then
      let o := (s.coreAt c).owner.getD 0
      (s.takeOverResident c job).mapSaved fun u => if u.leftFrom o c then u.bindTo c else u
    else (s.evictResident c).takeOver c job
  t.restoreArea c job

/-- The core with the job as its owner, when it has it or can take it on (R407); while PARTSET waits there, nothing is placed on it
(R395). -/
def State.withJob (s : State) (c : Coord) (job : Nat) : Option State :=
  if (s.coreAt c).partPending.isSome then none
  else if (s.coreAt c).owner = some job then some s
  else if s.quiet c && partwValid c (look 0 (s.jobAt job).pw (tier c)) then some (s.takeJob c job)
  else none

/-! ### The start of a thread (R163, R308) -/

/-- The cluster handle and the tier pool handle (R456, R457). -/
def clusterHandle : Cap := makeCap 0xC40 0 0 (2 ^ 56) (2 ^ 56) (2 ^ 56)
def poolHandle : Cap := makeCap 0xC40 0 0 (3 * 2 ^ 56) (2 ^ 56) (3 * 2 ^ 56)

/-- The start handles of a record's threads on a core. -/
def startHandles (x : Core) (r : Record) : List (Nat × Cap) :=
  match recShape r with
  | 0 => [(5, scratchHandle x)]
  | 3 => []
  | _ => [(5, clusterHandle), (6, poolHandle)]

/-- A slot at the start of a thread (R163, R308); user privilege (log 7). -/
def startSlot (j : Job) (k : Kernel) (x : Core) (i : Nat) (r : Record) (mem : Membership) (frame : Option Nat) : Slot :=
  { gen := (x.slotAt i).gen, st := .ready, pc := codeAt j k.entry
    g := [(1, Cap.ofWord (recArg0 r)), (2, j.data), (3, Cap.ofWord (word mem.member)), (4, Cap.ofWord (recArg1 r))] ++ startHandles x r
    quota := if k.wayfarer then 0 else k.quota, wayfarer := k.wayfarer, mirmask := k.mirmask
    sys := { evec := j.evec }, frame, gang := { reserved := recGang r }, mem
    mpol := recPolicy r, pri := min (recPri r) j.pmax }

/-- A follower slot that a leader reserves, with its own frame (R57, R170, R171). -/
def followerSlot (x : Slot) (leader : Coord) (k : Kernel) (frame : Option Nat) : Slot :=
  { gen := x.gen, quota := k.quota, mirmask := k.mirmask, frame, gang := { leader := some leader } }

/-- A frame for a kernel on a core: none is needed for a wayfarer (R57). -/
def Core.frameFor (x : Core) (k : Kernel) : Option (Option Nat) :=
  if k.wayfarer then some none else (x.placeFrame (frameWords k.quota (k.mirmask != 0))).map some

/-- A slot of a core can take a thread. -/
def Slot.free (x : Slot) : Bool := x.st == .empty && x.gang.leader.isNone

/-- The lowest slot that is free on every member of a gang (R170, R411). -/
def State.gangSlot (s : State) (members : List Coord) (n : Nat) : Option Nat :=
  findBelow n fun i => i != 0 && members.all fun m => (s.slotAt m i).free

/-- The place of a thread on a core: its slot, its frame, and those of its followers (R57, R170, R411). -/
def State.findPlace (s : State) (c : Coord) (gang : Nat) (k : Kernel) : Option (Nat × Option Nat × List (Coord × Option Nat)) :=
  if gang != 1 && !leadsGang c gang then none
  else
    let followers := (List.range (gang - 1)).map fun i => gangMember c (i + 1)
    match s.gangSlot (c :: followers) (slotCount c), (s.coreAt c).frameFor k, followers.mapM fun m => (s.coreAt m).frameFor k with
    | some i, some f, some l => some (i, f, followers.zip l)
    | _, _, _ => none

/-- Every member core of a gang of a record has or takes on the job. -/
def State.withGang (s : State) (c : Coord) (gang job : Nat) : Option State :=
  ((List.range gang).map (gangMember c)).foldlM (fun t m => t.withJob m job) s

/-- The next unit number of a die, unique in the package (R308, log 12). -/
def State.newUnit (s : State) (die : Nat) : Nat × State :=
  let d := s.dieAt die
  let n := (d.unitCounter + 1) % 2 ^ 28
  (16 * n + die, s.setDie die { d with unitCounter := n })

/-- The counter of a task, which has one child: its thread, team or band (R173, R175). -/
def taskCounter (r : Record) (job : Nat) : Counter :=
  { count := 1, parent := some (recParent r), event := recEvent r, interrupt := recInterrupt r, job }

/-- A thread record starts on a core (R163, R308, R411): a level task brings its counter and its map (R181). -/
def State.placeThread (s : State) (c : Coord) (q : Queued) : Option State :=
  let j := s.jobAt q.job
  match j.kernels[recKernel q.record]?, s.withGang c (recGang q.record) q.job with
  | some k, some t =>
    match t.findPlace c (recGang q.record) k with
    | some (i, frame, followers) =>
      let (unit, t) := t.newUnit c.die
      let (ctr, t) := if q.level.isSome then (q.ctr, t) else t.newCounter c.die (taskCounter q.record q.job)
      let member := match q.level with
        | some l => levelRank (look 0 q.map l).toNat c
        | none => 0
      let mem : Membership := { job := q.job, unit, member, ctr, record := q.record, levels := if q.level.isSome then some q.map else none }
      let t := t.setSlot c i (startSlot (t.jobAt q.job) k (t.coreAt c) i q.record mem frame)
      some (followers.foldl (fun u (m, f) => u.modSlot m i fun y => followerSlot y c k f) t)
    | none => none
  | _, _ => none

/-! ### Teams and bands (R173, R308, R411, R412) -/

/-- A thread of a team dealt to a core: its lowest free slot, with a frame, is taken (R411). -/
def State.dealTo (s : State) (c : Coord) (job : Nat) (k : Kernel) : Option (State × Nat) :=
  match s.withJob c job with
  | some t =>
    match t.gangSlot [c] (slotCount c), (t.coreAt c).frameFor k with
    | some i, some f => some (t.modSlot c i fun x => { gen := x.gen, st := .ready, quota := k.quota, mirmask := k.mirmask, frame := f }, i)
    | _, _ => none
  | none => none

/-- One round over the cores of a cluster: `n` threads are left to deal. -/
def State.dealRound (s : State) (job : Nat) (k : Kernel) (n : Nat) (l : List (Coord × Nat)) : List Coord → State × Nat × List (Coord × Nat)
  | [] => (s, n, l)
  | c :: r =>
    if n = 0 then (s, n, l)
    else
      match s.dealTo c job k with
      | some (t, i) => t.dealRound job k (n - 1) (l ++ [(c, i)]) r
      | none => s.dealRound job k n l r

/-- Rounds until every thread is dealt (R411). -/
def State.deal : Nat → State → List Coord → Nat → Kernel → Nat → List (Coord × Nat) → Option (State × List (Coord × Nat))
  | 0, _, _, _, _, _, _ => none
  | fuel + 1, s, cores, job, k, n, l =>
    if n = 0 then some (s, l)
    else
      let (t, m, l') := s.dealRound job k n l cores
      if m = n then none else State.deal fuel t cores job k m l'

/-- Slots in the order of core index and slot (R308). -/
def inOrder (l : List (Coord × Nat)) : List (Coord × Nat) :=
  l.mergeSort fun a b => indexIn a.1 < indexIn b.1 || (indexIn a.1 == indexIn b.1 && a.2 ≤ b.2)

/-- A team's counter under `parent`, and its threads with it (R175). -/
def State.teamCounter (s : State) (die job parent : Nat) (l : List (Coord × Nat)) : State × List ((Coord × Nat) × Nat) :=
  let (h, t) := s.newCounter die { count := l.length, parent := some parent, job }
  (t, l.map fun p => (p, h))

/-- The counters of a team or band task: its own, the band's, and one for each team (R175). -/
def State.unitCounters (s : State) (die : Nat) (q : Queued) (teams : List (List (Coord × Nat))) :
    State × Nat × List ((Coord × Nat) × Nat) :=
  let (task, t) := s.newCounter die (taskCounter q.record q.job)
  let (parent, t) :=
    if recShape q.record = 2 then t.newCounter die { count := teams.length, parent := some task, job := q.job } else (task, t)
  let (t, l) := teams.foldl (fun (t, l) team =>
    let (u, m) := t.teamCounter die q.job parent team
    (u, l ++ m)) (t, [])
  (t, task, l)

/-- A team on each of some clusters, all together; none when one of them cannot take its team (R174, R411, R412). -/
def State.placeTeams (s : State) (clusters : List Coord) (q : Queued) : Option State :=
  let j := s.jobAt q.job
  match j.kernels[recKernel q.record]? with
  | none => none
  | some k =>
    let dealt := clusters.foldlM (fun (t, l) cl =>
      (State.deal 32 t (clusterCores cl) q.job k (recThreads q.record) []).map fun (u, m) => (u, l ++ [inOrder m])) (s, [])
    match dealt with
    | none => none
    | some (t, teams) =>
      let die := (clusters.headD 0).die
      let (unit, t) := t.newUnit die
      let (t, ctr, l) := t.unitCounters die q teams
      some (l.zipIdx.foldl (fun u (((c, i), team), member) =>
        let mem : Membership := { job := q.job, unit, member, ctr, team := some team, record := q.record }
        u.setSlot c i (startSlot (u.jobAt q.job) k (u.coreAt c) i q.record mem (u.slotAt c i).frame)) t)

end Sys2Proof.Machine
end

