-- ==== Sys2Proof/Machine/Scheduling.lean ====
section
/-! DEFINITION. Sys2Proof/Machine/Scheduling.lean: idle cores, steals, refills, teams and bands, and the pre-emption and the resume of units (R118, R186, R285, R407-R414, R427-R430). -/

namespace Sys2Proof.Machine

/-! ### Where something new may be placed (R412, R414) -/

/-- The clusters of a rectangle of a band's shape (R412). -/
def rectangle (tl : Coord) (q : Queued) : List Coord :=
  (List.range (recHeight q.record)).flatMap fun i => (List.range (recWidth q.record)).map fun k =>
    Coord.mk tl.die (tl.row + 2 * i) (tl.col + 4 * k)

/-- The core lies in a reserved rectangle. -/
def State.barred (s : State) (c : Coord) : Bool :=
  (s.dieAt c.die).reserved.any fun (tl, q) => (rectangle tl q).contains (clusterOf c)

/-- How often a record of a core's deque has been passed. -/
def Core.passedOf (x : Core) (r : Record) : Nat := ((x.passes.find? (·.1 == r)).map (·.2)).getD 0

/-- A record of the cluster has been passed 64 times: one of its queue, or of a deque of its cores (R408). -/
def State.mustClose (s : State) (cl : Coord) : Bool :=
  (s.clusterAt cl).queue.any (64 ≤ ·.passed) ||
  (clusterCores (clusterOf cl)).any fun c => (s.coreAt c).deque.any fun r => 64 ≤ (s.coreAt c).passedOf r

/-- A cluster closes for, or opens after, a record that has been passed too often (R408). -/
def State.noteClosed (s : State) (c : Coord) : State := s.setCluster c { s.clusterAt c with closed := s.mustClose c }

/-- Something new may be placed on the core. -/
def State.open_ (s : State) (c : Coord) : Bool :=
  coreExists c && s.dieLive c.die && !(s.dieAt c.die).draining && !s.barred c

/-! ### A saved unit resumes (R413, R429, R430) -/

/-- The top-left cluster of the cores of a unit (R308, R412). -/
def cornerOf (die : Nat) (l : List Coord) : Coord :=
  Coord.mk die (((least (l.map fun c => (clusterOf c).row))).getD 0) (((least (l.map fun c => (clusterOf c).col))).getD 0)

/-- The place of a core of a unit when the unit's corner moves from cluster `a` to cluster `b` (R172, R413). -/
def movedTo (a b x : Coord) : Coord :=
  let cx := clusterOf x
  let cl := Coord.mk b.die (b.row + (cx.row - a.row)) (b.col + (cx.col - a.col))
  if tierOf cl = tierOf x then (memberOf cl (indexIn x)).getD b else 0xFFFF

/-- A parked command of the thread as it is accepted again (R430). -/
def EngineJob.moved (j : EngineJob) (c : Coord) (i : Nat) (gen : BitVec 10) : EngineJob :=
  { j with core := c, slot := i, gen, stopped := false, told := false }

/-- A command that stopped comes after those that stopped before it and before those that have not begun, where its engine keeps
an order (R384, R390, log 12). -/
def State.requeueJob (s : State) (j : EngineJob) : State :=
  let put (q : List EngineJob) (j : EngineJob) : List EngineJob := q.takeWhile (·.stage != 0) ++ j :: q.dropWhile (·.stage != 0)
  if j.kind = kindStair then s.modCore j.seat fun x => { x with eng := { x.eng with
      stairQueue := put x.eng.stairQueue { j with parts := [] }, partials := x.eng.partials ++ j.parts } }
  else if j.kind = kindRing then
    let q := s.sequencer (j.ring / 256)
    s.setSequencer (j.ring / 256) { q with queue := put q.queue j }
  else s.enqueueJob j

/-- Parked commands accepted again with their ids and leases (R430); none when an id is in use or a queue is full. -/
def State.reaccept (s : State) (c : Coord) (i : Nat) (gen : BitVec 10) : List EngineJob → Option State
  | [] => some s
  | j :: r =>
    let k := j.moved c i gen
    let x := s.coreAt c
    if x.holdsId k.kind k.id || x.msg.pigeonhole.any (entryIs k.kind k.id) ||
        ({ s with core := if k.kind = kindStair then k.seat else c } : State).engineFull k.kind then none
    else ((s.modCore c fun y => { y with eng := { y.eng with jobs := y.eng.jobs ++ [k] } }).requeueJob k).reaccept c i gen r

/-- The opaque replay bytes of a parked command (R371, R433): what a stream copy still owes, chunks, or partials. -/
def EngineJob.replayBytes (j : EngineJob) : List Byte :=
  j.replay ++ j.kept.flatMap (fun p => match p with | .chunk _ _ _ _ _ _ _ _ data => data | _ => []) ++
    j.parts.flatMap fun p => leBytes 4 p.value.toNat

/-- The record of a parked command (R433), as doublewords: in a bound image the replay state of a ring or stair command stays in
its engine, and otherwise it is the record's LEN bytes. -/
def parkedWords (bound : Bool) (j : EngineJob) : List Nat :=
  let resident := bound && (j.kind == kindRing || j.kind == kindStair)
  let kept := if resident then [] else j.replayBytes
  let len := kept.length
  let tags := (List.range 7).map fun i => b2n (j.operand i).tag
  let bytes := (Encoding.w80 (wordEngine (BitVec.ofNat 8 j.op) j.f)).bytes
  let replay := (List.range (2 * ceilDiv len 16)).map fun i => leNat ((kept.drop (8 * i)).take 8)
  [leNat (bytes.take 8), leNat (bytes.drop 8), len + at_ 48 j.engc.toNat,
    j.done % 2 ^ 32 + at_ 40 (joinBits 1 tags) + at_ 47 (b2n resident) + at_ 48 j.kind + at_ 56 j.id] ++
    (List.range 7).flatMap (fun i => capDwords (j.operand i)) ++ replay

/-- The pigeonhole and engine blocks of an image (R433). -/
def SavedThread.blocks (x : SavedThread) (bound : Bool) : List Nat :=
  [x.entries.length, 0] ++ x.entries.flatMap (fun e => splitBits 64 8 e.toNat) ++ [x.parked.length, 0] ++ x.parked.flatMap (parkedWords bound)

/-- The image of a saved thread (R431-R433). -/
def SavedUnit.image (u : SavedUnit) (j : Job) (x : SavedThread) : Image :=
  { d := { kind := x.kind, bound := u.bound.isSome, home := x.home.getD 0, gmask := x.gmask, vmask := x.vmask, slot := x.slot
           lanes := x.slot :: x.followers.take (x.slot.gang.size - 1), job := u.job
           evec := if x.slot.wayfarer then j.evec else x.slot.sys.evec, blocks := x.blocks u.bound.isSome : ImageOf }.words }

/-- The slot of a thread that resumes (R430): its own new generation, and the waiting instruction issues afresh. DESIGN CHOICE
(log 35): an access that was refused a migration may migrate when it issues again after a resume (R168). -/
def resumedSlot (x : Slot) (gen : BitVec 10) (frame : Option Nat) : Slot :=
  { x with st := .ready, gen, frame, await := .none, pend := none, stamp := 0, age := 0, mark := none, noMigrate := false }

/-- The frames that a saved slot needs. -/
def slotKernel (x : Slot) : Kernel := { entry := 0, quota := x.quota, wayfarer := x.wayfarer, mirmask := x.mirmask }

/-- Carried entries join the tail of the pigeonhole, which must hold them (R430). -/
def State.carryEntries (s : State) (c : Coord) (l : List Entry) : Option State :=
  if (s.coreAt c).msg.pigeonhole.length + l.length ≤ 64 then
    some (if l.isEmpty then s else (s.modMsg c fun m => { m with pigeonhole := m.pigeonhole ++ l }).entryCame c)
  else none

/-- The registers of a resumed thread are those of its image; a wayfarer's are its context (R165, R430). -/
def State.loadSaved (s : State) (m : Image) (c : Coord) (i : Nat) : State :=
  if (s.slotAt c i).wayfarer then s
  else
    let t := m.load { s with core := c, slot := i }
    { t with core := s.core, slot := s.slot }

/-- One saved thread of a unit resumes on a core (R430). -/
def State.resumeThread (s : State) (w : SavedUnit) (x : SavedThread) (c : Coord) : Option State :=
  let job := w.job
  let gang := x.slot.gang.reserved
  if !s.open_ c || (s.clusterAt c).closed || tierOf c != tierOf x.core then none
  else
    ((s.releaseFollowers x).withGang c gang job).bind fun t =>
      (t.findPlace c gang (slotKernel x.slot)).bind fun (i, frame, followers) =>
        let gen := (t.slotAt c i).gen
        let u := t.setSlot c i (resumedSlot x.slot gen frame)
        let u := (followers.zip x.followers).foldl (fun v ((m, f), y) =>
          v.modSlot m i fun old => { y with st := .empty, gen := old.gen, frame := f, gang := { leader := some c } }) u
        let u := u.loadSaved (w.image (s.jobAt job) x) c i
        (u.reaccept c i gen x.parked).bind fun v => v.carryEntries c x.entries

/-- A unit resumes on a core, or with its top-left cluster at the core's, in the shape it had; a bound one only on its die, with each
thread that has accumulators resident on the core that holds them (R172, R429, R430). -/
def State.resumeAt (s : State) (u : SavedUnit) (c : Coord) : Option State :=
  let corner := cornerOf c.die (u.threads.map (·.core))
  let place (x : SavedThread) : Coord := if u.threads.length = 1 then c else movedTo corner (clusterOf c) x.core
  if u.threads.isEmpty || u.bound.any (· != c.die) || u.threads.any (fun x => x.home.any (· != place x)) then none
  else u.threads.foldlM (fun t x => t.resumeThread u x (place x)) s

/-- The `n`-th saved unit of a core's die, marked for resume, resumes at the core. -/
def State.resumeUnit (s : State) (c : Coord) (n : Nat) : Option State :=
  let d := s.dieAt c.die
  match d.saved[n]? with
  | some u =>
    if u.marked then (s.setDie c.die { d with saved := d.saved.take n ++ d.saved.drop (n + 1) }).resumeAt u c else none
  | none => none

/-- UNIT_RESUME (R413, R430). -/
def execUnitResume (c : Coord) (n : Nat) (s : State) : Answer := stepOr s (s.resumeUnit c n)

/-- A marked unit of a die and tier can resume now: it comes before any new record of its die (R413). -/
def State.resumesFirst (s : State) (die t : Nat) : Bool :=
  (s.dieAt die).saved.zipIdx.any fun (u, n) =>
    u.marked && (u.threads.head?.map fun x => tier x.core) == some t &&
    (coresOfDie die).any fun c => tier c == t && (s.resumeUnit c n).isSome

/-! ### The search of an idle core (R408-R410) -/

/-- A record of a deque with its job, which its parent counter names (R320). -/
def State.queuedOf (s : State) (r : Record) : Queued :=
  { record := r, job := (s.counterAt (recParent r)).job, since := s.ts.toNat }

/-- A record of a deque that it would start and that is no thread record is forwarded: a team to the cluster queue, a band
to the die queue (R407). -/
def State.forward (s : State) (c : Coord) (q : Queued) : Option State :=
  let cl := s.clusterAt c
  if recShape q.record = 1 then
    if cl.queue.length < 64 then some (s.setCluster c { cl with queue := cl.queue ++ [q] }) else none
  else if s.dieRoom c.die (tier c) then some (s.enqueueDie c.die (tier c) q)
  else none

/-- The deque of a core set, with the passes of the records that stand in it. -/
def State.setDeque (s : State) (c : Coord) (l : List Record) : State :=
  s.modCore c fun x => { x with deque := l, passes := x.passes.filter fun e => l.contains e.1 }

/-- A record placed from a deque has passed those before it (R408). -/
def State.passDeque (s : State) (c : Coord) (kept : List Record) : State :=
  s.modCore c fun x =>
    let again := kept.eraseDups.map fun r => (r, x.passedOf r + 1)
    { x with passes := again ++ x.passes.filter fun e => !kept.contains e.1 }

/-- The deque from the bottom: `kept` are the records passed over; true when one has been placed. A closed cluster places only
what has been passed 64 times (R408). -/
def State.searchDeque (s : State) (c : Coord) (kept : List Record) : List Record → State × Bool
  | [] => (s.setDeque c kept, false)
  | r :: rest =>
    let q := s.queuedOf r
    if recShape r = 1 ∨ recShape r = 2 then
      match s.forward c q with
      | some t => t.searchDeque c kept rest
      | none => s.searchDeque c (kept ++ [r]) rest
    else
      match if (s.clusterAt c).closed && (s.coreAt c).passedOf r < 64 then none else s.placeThread c q with
      | some t => (((t.passDeque c kept).setDeque c (kept ++ rest)).noteClosed c, true)
      | none => s.searchDeque c (kept ++ [r]) rest

/-- A record that a later one passes (R408). -/
def Queued.pass (q : Queued) : Queued := { q with passed := q.passed + 1 }

/-- The oldest record of a cluster queue that `place` places; those before it are passed. A cluster that a record has waited
too long for takes only such records (R408). -/
def pickRecord (place : Queued → Option State) (closed : Bool) (kept : List Queued) : List Queued → Option (State × List Queued)
  | [] => none
  | q :: rest =>
    match if closed && q.passed < 64 then none else place q with
    | some t => some (t, kept.map Queued.pass ++ rest)
    | none => pickRecord place closed (kept ++ [q]) rest

/-- What is left of a cluster queue after a placement. -/
def State.leaveQueue (s : State) (c : Coord) (l : List Queued) : State :=
  (s.setCluster c { s.clusterAt c with queue := l }).noteClosed c

/-- The cluster queue, oldest first (R408). -/
def State.searchCluster (s : State) (c : Coord) : Option State :=
  let cl := s.clusterAt c
  let place (q : Queued) : Option State := if recShape q.record = 1 then none else s.placeThread c q
  (pickRecord place cl.closed [] cl.queue).map fun (t, l) => t.leaveQueue c l

/-- ρmax of a tier (R409). -/
def stealReach (t : Nat) : Nat := match t with | 0 => 4 | 1 => 4 | 2 => 2 | _ => 1

/-- The distance of two numbers. -/
def apart (a b : Nat) : Nat := max a b - min a b

/-- The victims of a steal round, in order: rings of growing distance, each row by row (R409). -/
def stealVictims (c : Coord) : List Coord :=
  let peers := (coresOfDie c.die).filter fun x => tier x == tier c
  (span 1 (stealReach (tier c))).flatMap fun rho => peers.filter fun x => max (apart x.row c.row) (apart x.col c.col) == rho

/-- Requests or answers of a thief are on their way. -/
def State.stealing (s : State) (c : Coord) : Bool :=
  !(s.coreAt c).stealReply.isEmpty || s.cores.any fun (_, x) => x.stealPort.any fun e => e.1 == c

/-- The next victims of a round are asked, four at a time (R409). -/
def State.askVictims (s : State) (c : Coord) (n : Nat) : State :=
  (((stealVictims c).drop n).take 4).foldl (fun t v => t.modCore v fun x => { x with stealPort := x.stealPort ++ [(c, s.ts.toNat)] })
    (s.modCore c fun x => { x with stealRound := some (n + 4) })

/-- Team records of a die queue go to the lowest cluster whose queue has room (R410). -/
def State.forwardTeam (s : State) (die t : Nat) (q : Queued) : Option State :=
  ((clustersOfDie die t).find? fun cl => (s.clusterAt cl).queue.length < 64).map fun cl =>
    s.setCluster cl { s.clusterAt cl with queue := (s.clusterAt cl).queue ++ [q] }

/-- A refill over a die queue, oldest first: the records left in the queue, and at most four thread and wayfarer records
taken. A level task's thread is placed on the core at once, when the core is one of its level's and has taken nothing. -/
def State.refillScan (s : State) (c : Coord) (left : List Queued) (taken : List Record) :
    List Queued → State × List Queued × List Record × Bool
  | [] => (s, left, taken, false)
  | q :: rest =>
    let skip := s.refillScan c (left ++ [q]) taken rest
    if q.level.isSome then
      if taken.isEmpty && q.cores.contains c then
        match s.placeThread c q with
        | some t =>
          let q' := { q with cores := q.cores.filter (· != c) }
          (t, left ++ (if q'.cores.isEmpty then [] else [q']) ++ rest, [], true)
        | none => skip
      else skip
    else if recShape q.record = 1 then
      match s.forwardTeam c.die (tier c) q with
      | some t => t.refillScan c left taken rest
      | none => skip
    else if recShape q.record = 2 then skip
    else if taken.length < 4 && (s.coreAt c).roomFor (taken.length + 1) && (s.withJob c q.job).isSome then
      s.refillScan c left (taken ++ [q.record]) rest
    else skip

/-- A thread of a level task for the core, whose record a drain has moved to another die of the tier (R181, R414). -/
def State.levelAway (s : State) (c : Coord) : Option State :=
  let found := (List.range 16).findSome? fun d =>
    if d = c.die then none
    else ((s.dieAt d).queueOf (tier c)).findSome? fun q =>
      if q.level.isSome && q.cores.contains c then (s.placeThread c q).map fun t => (t, d, q) else none
  found.map fun (t, d, q) =>
    let q' := { q with cores := q.cores.filter (· != c) }
    t.setDie d ((t.dieAt d).withQueue (tier c) (((t.dieAt d).queueOf (tier c)).flatMap fun x =>
      if x == q then (if q'.cores.isEmpty then [] else [q']) else [x]))

/-- A refill (R410): the oldest of the records taken stands at the bottom of the deque and is placed first. -/
def State.refill (s : State) (c : Coord) : State :=
  let t := s.modCore c fun x => { x with stealRound := none }
  let (u, left, taken, placed) := t.refillScan c [] [] ((t.dieAt c.die).queueOf (tier c))
  let u := u.setDie c.die ((u.dieAt c.die).withQueue (tier c) left)
  if placed then u
  else
    match u.searchDeque c [] (taken ++ (u.coreAt c).deque) with
    | (v, true) => v
    | (v, false) => (v.levelAway c).getD v

/-- THE SEARCH of a core for work (R408): its deque, its cluster queue, a steal round, a refill, and no further than the
first record placed. A cluster closed by a record that waits takes nothing else, and a unit that can resume comes before every
new record of its die (R413). -/
def State.search (s : State) (c : Coord) : State :=
  if !s.open_ c || ((s.coreAt c).emptySlot (slotCount c)).isNone || s.resumesFirst c.die (tier c) then s
  else
    let closed := (s.clusterAt c).closed
    let (t, placed) := s.searchDeque c [] (s.coreAt c).deque
    if placed then t
    else
      match t.searchCluster c with
      | some u => u
      | none =>
        if closed || t.stealing c then t
        else
          let n := (t.coreAt c).stealRound.getD 0
          if n < (stealVictims c).length && (t.coreAt c).roomFor 4 then t.askVictims c n else t.refill c

/-- IDLE_CORE_SEARCH (R408). -/
def execIdleCoreSearch (c : Coord) (s : State) : Answer := .next (s.search c)

/-- IDLE_SEARCH_TIMER (R410): the search is repeated. -/
def execIdleSearchTimer (c : Coord) (s : State) : Answer := .next (s.search c)

/-- RECORD_PASS_LIMIT (R408). -/
def execRecordPassLimit (cl : Coord) (s : State) : Answer :=
  stepIf s (isCluster cl) (s.noteClosed cl)

/-! ### Steals (R118, R409) -/

/-- STEAL_REQUEST (R409): the victim's port serves its oldest request: the record at the top of the deque when it is
placeable on the thief, and otherwise empty. -/
def execStealRequest (thief victim : Coord) (s : State) : Answer :=
  let x := s.coreAt victim
  match x.stealPort with
  | (th, _) :: rest =>
    let r := x.deque.getLast?.filter fun r => (s.withJob thief (s.queuedOf r).job).isSome
    let t := s.modCore victim fun y =>
      { y with stealPort := rest, deque := if r.isSome then y.deque.dropLast else y.deque }
    let t := t.setDeque victim (t.coreAt victim).deque
    stepIf s (th == thief) (t.modCore thief fun y => { y with stealReply := y.stealReply ++ [r] })
  | [] => .next s

/-- STEAL_RESPONSE (R407, R409): the first record ends the round and is placed, or forwarded when it is a team's or a band's; a
record that comes after it, or that does not fit, goes to the bottom of the deque, as soon as that has room (log 22). -/
def execStealResponse (thief : Coord) (s : State) : Answer :=
  let x := s.coreAt thief
  match x.stealReply with
  | [] => .next s
  | answer :: rest =>
    let t := s.modCore thief fun y => { y with stealReply := rest }
    match answer with
    | none => .next t
    | some r =>
      let u := t.modCore thief fun y => { y with stealRound := none }
      let may := x.stealRound.isSome && u.open_ thief && !(u.clusterAt thief).closed && !u.resumesFirst thief.die (tier thief)
      let shape := recShape r
      match if !may then none
        else if shape = 1 ∨ shape = 2 then u.forward thief (u.queuedOf r) else u.placeThread thief (u.queuedOf r) with
      | some v => .next v
      | none => stepIf s (x.roomFor 1) (u.setDeque thief (r :: x.deque))

/-- STEAL_PORT_TIMEOUT (R118): a request that has found the port busy with an earlier one for 256 cycles is answered empty. -/
def execStealPortTimeout (thief victim : Coord) (s : State) : Answer :=
  let late (e : Coord × Nat) : Bool := e.1 == thief && s.elapsed victim e.2 256
  stepIf s ((s.coreAt victim).stealPort.tail.any late)
    ((s.modCore victim fun y => { y with stealPort := y.stealPort.take 1 ++ dropFirst late y.stealPort.tail }).modCore thief fun y =>
      { y with stealReply := y.stealReply ++ [none] })

/-! ### Teams and bands (R411, R412) -/

/-- TEAM_PLACEMENT (R411): the oldest team record of the cluster queue that fits the cluster. -/
def execTeamPlacement (cl : Coord) (s : State) : Answer :=
  let x := s.clusterAt cl
  let place (q : Queued) : Option State := if recShape q.record = 1 then s.placeTeams [cl] q else none
  if isCluster cl && s.open_ cl && !s.resumesFirst cl.die (tier cl) then
    stepOr s ((pickRecord place x.closed [] x.queue).map fun (t, l) => t.leaveQueue cl l)
  else .next s

/-- The die and the tier of a die queue: 0-15, and 16 for the T3 queue of D15 (R407). -/
def queuePlace (d : Nat) : Nat × Nat :=
  if d < 12 then (d, 0) else if d < 15 then (d, 1) else if d = 15 then (15, 2) else (15, 3)

/-- The top-left clusters of the rectangles of a band's shape, row by row. -/
def corners (die t : Nat) (q : Queued) : List Coord :=
  (clustersOfDie die t).filter fun tl => (rectangle tl q).all fun cl => isCluster cl && tier cl == t

/-- A band at a rectangle: its own reservation ends with it. Every other band's reservation keeps it out, but those made after its
own do not keep it out of the rectangle reserved for it (R412, log 22). -/
def State.placeBand (s : State) (die : Nat) (q : Queued) (tl : Coord) : Option State :=
  let l := (s.dieAt die).reserved
  let others := if l.contains (tl, q) then l.takeWhile (·.2 != q) else l.filter (·.2 != q)
  let before := s.setDie die { s.dieAt die with reserved := others }
  let left := s.setDie die { s.dieAt die with reserved := l.filter (·.2 != q) }
  if (rectangle tl q).all fun cl => before.open_ cl && !(s.clusterAt cl).closed then left.placeTeams (rectangle tl q) q else none

/-- A band at the lowest rectangle that can take it, once no unit can resume (R412, R413). -/
def State.placeBandSomewhere (s : State) (die t : Nat) (q : Queued) : Option State :=
  if s.resumesFirst die t then none else (corners die t q).findSome? (s.placeBand die q)

/-- BAND_PLACEMENT (R412): the oldest band record of a die queue that fits. -/
def execBandPlacement (d : Nat) (s : State) : Answer :=
  let (die, t) := queuePlace d
  let queue := (s.dieAt die).queueOf t
  let fits (q : Queued) : Option (State × Queued) :=
    if recShape q.record = 2 ∧ q.level = none then (s.placeBandSomewhere die t q).map fun u => (u, q) else none
  stepOr s ((queue.findSome? fits).map fun (u, q) => u.setDie die ((u.dieAt die).withQueue t (dropFirst (· == q) queue)))

/-- Thread slots of a cluster that are held, those of gang followers among them (R412). -/
def State.heldSlots (s : State) (cl : Coord) : Nat :=
  ((clusterCores cl).map fun c => ((List.range (slotCount c)).filter fun i => i != 0 && !(s.slotAt c i).free).length).foldl (· + ·) 0

/-- The first element with the least value. -/
def leastBy {α : Type} (f : α → Nat) : List α → Option α
  | [] => none
  | x :: r => match leastBy f r with
    | some y => if f y < f x then some y else some x
    | none => some x

/-- BAND_RESERVATION (R412): the oldest band that has waited 65,536 cycles and has no reservation. -/
def execBandReservation (d : Nat) (s : State) : Answer :=
  let (die, t) := queuePlace d
  let x := s.dieAt die
  let cl := (clustersOfDie die t).headD 0
  let waits (q : Queued) : Bool :=
    recShape q.record == 2 && q.level.isNone && s.elapsed cl q.since 65536 && !x.reserved.any (·.2 == q)
  match (x.queueOf t).find? waits with
  | some q =>
    let count (tl : Coord) : Nat := ((rectangle tl q).map s.heldSlots).foldl (· + ·) 0
    stepOr s ((leastBy count (corners die t q)).map fun tl => s.setDie die { x with reserved := x.reserved ++ [(tl, q)] })
  | none => .next s

/-! ### Pre-emption (R186, R285, R427) -/

/-- A slot marked for pre-emption: a mark that stands keeps its time (R427). -/
def Slot.marked (x : Slot) (now : Nat) : Slot := { x with mark := some (x.mark.getD now) }

/-- PREEMPTION_MARK (R427): every thread of the unit is marked; a unit whose threads all wait leaves at once. -/
def execPreemptionMark (c : Coord) (t : Nat) (s : State) : Answer :=
  let x := s.slotAt c t
  if t = 0 ∨ x.st == .empty then .next s
  else
    let u := (s.unitSlots c.die x.mem.job x.mem.unit).foldl (fun v (m, k) => v.modSlot m k fun y => y.marked s.ts.toNat) s
    .next (u.trySave c t)

/-- The replies that an instruction awaits are of reads that are made afresh on resume (R285). -/
def Completion.repeats : Completion → Bool
  | .load _ _ _ => true
  | .loadCap _ _ => true
  | .vload _ _ _ _ _ => true
  | .unpack _ _ => true
  | .curve _ => true
  | .descriptor _ => true
  | .imageHead _ => true
  | .image _ => true
  | _ => false

/-- A thread that a forced save can take now (R281, R285, R427). -/
def forcedPlace (x : Slot) : Bool :=
  savePlace x || x.st == .ready || (x.st == .stalled && match x.pend with | some p => p.fin.repeats | none => true)

/-- FORCED_SAVE (R427): the budget of 20,000 cycles has run out: every thread of the unit stops at its boundary, and the unit is
saved once the engines of every thread are settled (R428). -/
def execForcedSave (c : Coord) (t : Nat) (s : State) : Answer :=
  let x := s.slotAt c t
  match x.mark with
  | some since =>
    let stop (u : State) (p : Coord × Nat) : State :=
      let y := u.slotAt p.1 p.2
      if !savePlace y && forcedPlace y then u.stopThread p.1 p.2 else u
    stepIf s (t != 0 && s.elapsed c since 20000)
      (((s.unitSlots c.die x.mem.job x.mem.unit).foldl stop s).trySave c t)
  | none => .next s

end Sys2Proof.Machine
end

