-- ==== Sys2Proof/Machine/Pages.lean ====
section
/-! DEFINITION. Sys2Proof/Machine/Pages.lean: frames, page tables and the pages that firmware maps, moves and releases (R28, R39-R46, R76-R80, R87-R92, R438, R443). -/

namespace Sys2Proof.Machine

/-! ### Frames (R43, R76-R79, R87) -/

/-- A physical die or stack is in service: some virtual die names it (R28, R91). -/
def State.towerLive (s : State) (p : Nat) : Bool := (List.range 16).any fun d => s.dieLive d && s.physical d == p

/-- A cap frame that is in a slice, with a bus that is not retired (R78, R87). -/
def State.capUsable (s : State) (pa : Nat) : Bool :=
  match s.busOf pa with
  | some (cl, b) => !(s.busAt cl b).retired
  | none => false

/-- Where the DRAM of a stack ends for pages: 48 GB are taken as 48 GiB, and firmware keeps its page tables above the pages
on stack 0 (DESIGN CHOICE, log 12). -/
def dramEnd (stack : Nat) : Nat := if stack = 0 then 0xB00000000 else 0xC00000000

/-- A place of an imported window that is valid and reaches `n` bytes on (R443). -/
def State.windowHolds (s : State) (pa n : Nat) : Bool :=
  let w := (look 0 s.pkg.imported (bits pa 43 36)).toNat
  bit w 0 && bits pa 35 0 + n ≤ 65536 * bits w 39 20

/-- A frame of 2^`shift` bytes that may back a page (R43, R78, R87): frame 0 is not given out (log 12). -/
def State.frameUsable (s : State) (pa : Nat) (shift : Nat := 16) : Bool :=
  paValid pa && pa % 2 ^ shift == 0 && pa != 0 &&
  match paKind pa with
  | 0 => s.towerLive (bits pa 43 40) && bits pa 35 0 + 2 ^ shift ≤ dramEnd (bits pa 43 40)
  | 1 => shift == 16 && s.towerLive (bits pa 43 40) && s.capUsable pa
  | _ => s.windowHolds pa (2 ^ shift)

/-- Two aligned blocks of 2^`sa` and 2^`sb` bytes have bytes in common. -/
def overlap (a sa b sb : Nat) : Bool := a / 2 ^ max sa sb == b / 2 ^ max sa sb

/-- A frame backs a page or is part of a move. -/
def State.frameTaken (s : State) (pa : Nat) (shift : Nat := 16) : Bool :=
  (s.pkg.pages.any fun m => overlap m.frame m.shift pa shift) ||
  s.pkg.locks.any fun l => overlap l.old l.shift pa shift || overlap l.new l.shift pa shift

/-- A frame that firmware can map; fabric frames may back any number of pages. -/
def State.frameFree (s : State) (pa : Nat) (shift : Nat := 16) : Bool :=
  s.frameUsable pa shift && (paKind pa == 2 || !s.frameTaken pa shift)

/-- A request for memory by its physical address (R101, R102). -/
def Flight.forMemory (f : Flight) : Bool := !f.isScratch && !f.isControl && (f.op < 0x06 || f.op == 0x70 || f.op == 0x71)

/-- A request that `p` holds of is on its way, waits at its owner, or has been accepted and not been sent yet. -/
def State.requestOut (s : State) (p : Flight → Bool) : Bool :=
  let at_ (f : Flight) : Bool := f.forMemory && p f
  s.net.any at_ || s.cores.any fun (_, x) => x.msg.waitingAtomic.any at_ ||
    x.slots.any fun (_, y) => match y.pend with | some q => q.todo.any fun (_, f) => at_ f | none => false

/-- No access to a page's frame is on its way or waits at its owner. -/
def State.frameQuiet (s : State) (m : Mapped) : Bool := !s.requestOut fun f => f.addr / 2 ^ m.shift == m.frame / 2 ^ m.shift

/-! ### Page tables (R39-R42) -/

/-- Where the next table stands: firmware lays its tables one after another, in blocks of 4,096 bytes (log 12). -/
def State.nextTable (s : State) : Nat := 0xB00000000 + 4096 * s.pkg.tables

/-- A new table of `n` blocks, cleared. -/
def State.newTable (s : State) (n : Nat) : Nat × State :=
  (s.nextTable, { s with pkg := { s.pkg with tables := s.pkg.tables + n } }.clear s.nextTable (4096 * n))

/-- The level whose entries are leaves of 2^`shift` bytes (R40). -/
def leafLevel (shift : Nat) : Nat := match shift with | 30 => 2 | 21 => 1 | _ => 0

/-- The entry of a page written below a table, at level `stop`, with the tables on the way made where there are none (R40). -/
def State.mapFrom (s : State) (va e stop : Nat) : Nat → Nat → State
  | 0, base => s.writeNat (base + 8 * levelIndex va 0) 8 e
  | l + 1, base =>
    let k := base + 8 * levelIndex va (l + 1)
    let p := s.readNat k 8
    if stop = l + 1 then s.writeNat k 8 e
    else if pteValid p && !pteLeaf p then s.mapFrom va e stop l (bits p 47 8 * 256)
    else
      let (n, t) := s.newTable 1
      (t.writeNat k 8 (2 ^ 63 + n)).mapFrom va e stop l n

/-- Blocks of a column page table: 262,144 entries of 8 bytes (R41). -/
def columnBlocks : Nat := 8 * 262144 / 4096

/-- The entry of a page written in the tables of its job (R39-R41). -/
def State.writePte (s : State) (m : Mapped) (e : Nat) : State :=
  let j := s.jobAt m.job
  match m.space with
  | .dram =>
    let (root, t) := if j.dramRoot = 0 then s.newTable 1 else (j.dramRoot, s)
    (t.setJob m.job { j with dramRoot := root }).mapFrom m.va e (leafLevel m.shift) 4 root
  | .fabric =>
    let (root, t) := if j.fabricRoot = 0 then s.newTable 1 else (j.fabricRoot, s)
    (t.setJob m.job { j with fabricRoot := root }).mapFrom m.va e (leafLevel m.shift) 4 root
  | .column =>
    let die := bits m.va 55 52
    let old := look 0 j.columns die
    let (root, t) := if old = 0 then s.newTable columnBlocks else (old, s)
    (t.setJob m.job { j with columns := put j.columns die root }).writeNat
      (root + 8 * ((bits m.va 51 46 * 32 + bits m.va 45 40) * 256 + bits m.va 23 16)) 8 e

/-- Room for the tables that one page may need. -/
def State.tableRoom (s : State) : Bool := s.nextTable + 4096 * (columnBlocks + 5) ≤ 0xC00000000

/-- Attributes of a leaf (R42), apart from V, LF and FRAME. -/
def leafBits (cls : Nat) (sa pg cd ca ds w : Bool) : Nat :=
  at_ 60 cls + at_ 59 (b2n sa) + at_ 58 (b2n pg) + at_ 57 (b2n cd) + at_ 56 (b2n ca) + at_ 55 (b2n ds) + at_ 54 (b2n w) + at_ 53 1

/-- A valid leaf with the attributes of `a` and a frame. -/
def leafEntry (a frame : Nat) : Nat := 2 ^ 63 + 2 ^ 62 + a + frame

/-- Firmware writes a frame: a test that holds its bus ends at once, and is discarded (R85, R95). -/
def State.takeBus (s : State) (pa : Nat) : State :=
  match s.busOf pa with
  | some (cl, b) =>
    if s.busHeld pa then s.setBus cl b { s.busAt cl b with phase := none, demand := false, abortedAt := some s.ts.toNat } else s
  | none => s

/-- A page mapped in a job's tables, after its frame has been cleared (R79): fabric memory is not firmware's to clear. -/
def State.mapPage (s : State) (m : Mapped) (attrs : Nat) : State :=
  let t := if paKind m.frame = 2 then s else (s.takeBus m.frame).clear m.frame (2 ^ m.shift)
  let u := t.writePte m (leafEntry attrs m.frame)
  { u with pkg := { u.pkg with
      pages := m :: u.pkg.pages
      -- a page mapped afresh leaves the poison list (R90)
      poisoned := u.pkg.poisoned.filter fun p => p != (m.job, m.space, m.va) } }

/-- An address lies in a page. -/
def Mapped.holds (m : Mapped) (va : Nat) : Bool := m.va / 2 ^ m.shift == va / 2 ^ m.shift

/-- The page of a job that holds an address. -/
def State.pageOf (s : State) (job va : Nat) : Option Mapped := s.pkg.pages.find? fun m => m.job == job && m.holds va

/-- The package's translations of a page are gone, and walks that would find them come to nothing (R46, R396). -/
def State.invalidatePage (s : State) (m : Mapped) : State :=
  (List.range 16).foldl (fun t d => t.dropDie d 0 m.job m.va 0) s

/-- Every core tries what waits for room, or for the end of a lock. -/
def State.wakeAll (s : State) : State := s.cores.foldl (fun t (k, _) => t.wakeRoom (coordOf k)) s

/-! ### Firmware's choice of frames (R78, R80, log 12) -/

/-- The first `n` of the numbers `base`, `base + size`, … that satisfy `ok`; `fuel` bounds the search. -/
def firstFrames (ok : Nat → Bool) (size : Nat) : Nat → Nat → Nat → List Nat
  | 0, _, _ => []
  | fuel + 1, base, n =>
    if n = 0 then []
    else if ok base then base :: firstFrames ok size fuel (base + size) (n - 1) else firstFrames ok size fuel (base + size) n

/-- The lowest free DRAM frame of a stack. -/
def State.stackFrame (s : State) (shift p : Nat) : Option Nat :=
  (firstFrames (fun f => s.frameFree f shift) (2 ^ shift) (dramEnd p / 2 ^ shift) (at_ 40 p) 1).head?

/-- A list begun at its `i`th element, round and round. -/
def rotate {α : Type} (i : Nat) (l : List α) : List α := l.drop (i % l.length) ++ l.take (i % l.length)

/-- The DRAM frame of the `i`th page of a request: the stacks are taken in turn, and one without room is passed over. -/
def State.dramFrame (s : State) (towers : List Nat) (shift i : Nat) : Option Nat := (rotate i towers).findSome? (s.stackFrame shift)

/-- The stacks that a request names, or all 16 (R80). -/
def namedStacks (l : List Nat) : List Nat := if l.isEmpty then List.range 16 else l

/-- The frames of a core's slice, in order (R76). -/
def State.sliceFrames (s : State) (c : Coord) : List Nat :=
  (List.range (capFrames c)).map fun j => 2 ^ 44 + at_ 40 (s.physical c.die) + sliceBase c + 65536 * j

/-- The distance of two clusters. -/
def clusterDistance (a b : Coord) : Nat := max (apart a.row b.row) (apart a.col b.col)

/-- The clusters of a die, nearest to a core's first (R80; the measure of distance is log 12's). -/
def nearest (c : Coord) : List Coord :=
  ((coresOfDie c.die).filter fun x => clusterOf x == x).mergeSort fun a b =>
    clusterDistance a (clusterOf c) ≤ clusterDistance b (clusterOf c)

/-- The frame of the next activation page of a core, in R80's order: its own, borrowed from the nearest cluster, displaced on
its own tower's stack. -/
def State.activationFrame (s : State) (c : Coord) : Option Nat :=
  let free (l : List Coord) : Option Nat := l.findSome? fun x => (s.sliceFrames x).find? s.frameFree
  (free [c]).or ((free (((nearest c).flatMap clusterCores).filter (· != c))).or (s.stackFrame 16 (s.physical c.die)))

/-- The first of `n` free pages of a job's window on a core (R18). -/
def State.windowRun (s : State) (job : Nat) (c : Coord) (n : Nat) : Option Nat :=
  let base := at_ 56 2 + at_ 52 c.die + at_ 46 c.row + at_ 40 c.col
  (findBelow (257 - n) fun p => (List.range n).all fun i => (s.pageOf job (base + 65536 * (p + i))).isNone).map fun p => base + 65536 * p

/-- The first address of a page size beyond the pages that a job has in a space, where firmware maps the next (log 12). -/
def State.nextVa (s : State) (job : Nat) (space : Space) (shift : Nat) : Nat :=
  let base := match space with | .fabric => 0x0500000000010000 | _ => 0x0400001000000000
  let last :=
    ((s.pkg.pages.filter fun m => m.job == job && m.space == space && base ≤ m.va).map fun m => m.va + 2 ^ m.shift).foldl max base
  (last + 2 ^ shift - 1) / 2 ^ shift * 2 ^ shift

/-- `n` pages from `va` on, one after another, in the frames that `pick` gives; none when one finds no frame, or no room for
its tables. -/
def State.mapRun (s : State) (pick : State → Nat → Option Nat) (attrs : Nat → Nat) (m : Mapped) : Nat → Nat → Option State
  | 0, _ => some s
  | n + 1, i =>
    match if s.tableRoom then pick s i else none with
    | some frame => (s.mapPage { m with frame } (attrs frame)).mapRun pick attrs { m with va := m.va + 2 ^ m.shift } n (i + 1)
    | none => none

/-! ### Memory requests (R80) -/

/-- The attributes of a fabric page: those of its window (R443). -/
def State.fabricAttrs (s : State) (cls frame : Nat) : Nat :=
  let w := (look 0 s.pkg.imported (bits frame 43 36)).toNat
  leafBits cls (bit w 3) false false (!bit w 1) false (bit w 2)

/-- The tensor handle of a request: L, S and G (R80, log 12). -/
def tensorHandle (cls va n : Nat) : Cap := makeCap 0xC10 0 cls va n va

/-- Firmware's answer to a memory request. -/
def State.giveHandle (s : State) (job : Nat) (c : Cap) : State := { s with pkg := { s.pkg with handles := (job, c) :: s.pkg.handles } }

/-- The module takes commands: bring-up is done and no alarm has been raised (R447, R451). -/
def State.inService (s : State) : Bool := 7 ≤ s.pkg.bringUp && s.pkg.alarm == 0 && !s.pkg.shutdown

/-- The free frames of a core's own slice. -/
def State.ownLeft (s : State) (c : Coord) : Nat := ((s.sliceFrames c).filter s.frameFree).length

/-- `n` activation pages of a window from `va` on. -/
def State.fillWindow (s : State) (job : Nat) (c : Coord) (va n : Nat) : Option State :=
  s.mapRun (fun t _ => t.activationFrame c) (fun f => leafBits 2 false false false true (paKind f == 0) true)
    { job, space := .column, va, frame := 0 } n 0

/-- A window begun: its first pages in frames of its own slice; the core, its first page, and the pages in frames. -/
def State.beginWindow (job n : Nat) (acc : State × List (Coord × Nat × Nat)) (c : Coord) :
  Option (State × List (Coord × Nat × Nat)) :=
  match if coreExists c && acc.1.dieLive c.die then acc.1.windowRun job c n else none with
  | some va =>
    let k := min n (acc.1.ownLeft c)
    (acc.1.fillWindow job c va k).map fun t => (t, acc.2 ++ [(c, va, k)])
  | none => none

/-- Activation pages of several windows: every window is filled from its own slice before any borrows a frame (R80). -/
def State.placeWindows (s : State) (job n : Nat) (cores : List Coord) : Option State :=
  (cores.eraseDups.foldlM (State.beginWindow job n) (s, [])).bind fun (t, l) =>
    l.foldlM (fun u (c, va, k) =>
      (u.fillWindow job c (va + 65536 * k) (n - k)).map fun v => v.giveHandle job (tensorHandle 2 va (65536 * n))) t

/-- A memory request met in full, or none (R80). Job 0 is the host's address space. A request of class 0 is for FABRIC when it
names a place of a window. DESIGN CHOICE (log 26): the spec gives a mapped page its class alone; a DRAM page of class 0 has SA =
PG = 1 and of the other classes SA = PG = 0, with CA = W = U = 1. -/
def State.placeMemory (s : State) (job cls : Nat) (places : Places) (pages : PageCount) (frame : Nat) : Option State :=
  let n := pages.n
  let shift := pages.shift
  let sized := shift == 16 || shift == 21 || shift == 30
  let give (va : Nat) (t : State) : State := t.giveHandle job (tensorHandle cls va (2 ^ shift * n))
  if n = 0 ∨ !sized then none
  else if cls = 2 then (if shift = 16 ∧ !places.cores.isEmpty then s.placeWindows job n places.cores else none)
  else if cls = 1 ∨ (cls = 0 ∧ frame = 0) then
    let va := s.nextVa job .dram shift
    (s.mapRun (fun t i => t.dramFrame (namedStacks places.towers) shift i)
      (fun _ => leafBits cls (cls == 0) (cls == 0) false true false true)
      { job, space := .dram, va, frame := 0, shift } n 0).map (give va)
  else if paKind frame = 2 ∧ (cls = 0 ∨ cls = 3) then
    let va := s.nextVa job .fabric shift
    let at_ (t : State) (i : Nat) : Option Nat :=
      if t.frameFree (frame + 2 ^ shift * i) shift then some (frame + 2 ^ shift * i) else none
    (s.mapRun at_ (s.fabricAttrs cls) { job, space := .fabric, va, frame := 0, shift } n 0).map (give va)
  else none

/-- MEMORY_REQUEST (R80): pages of a size and of a class, in the windows of the named cores, on the named stacks, or from `frame`
of an imported window on. One that cannot be met in full is refused, and nothing of it is mapped. -/
def execMemoryRequest (job cls : Nat) (places : Places) (pages : PageCount) (frame : Nat) (s : State) : Answer :=
  if s.inService && (job == 0 || (s.jobAt job).live) then
    .next ((s.placeMemory job cls places pages frame).getD (s.giveHandle job {}))
  else .next s

/-- A page taken out of a job's address space (R90). -/
def State.releasePage (s : State) (m : Mapped) : State :=
  let t := (s.writePte m 0).invalidatePage m
  { t with pkg := { t.pkg with
      pages := t.pkg.pages.filter (· != m)
      poisoned := t.pkg.poisoned.filter fun p => p != (m.job, m.space, m.va) } }

/-- PAGE_RELEASE (R90): once the accesses on their way to the page have been answered. -/
def execPageRelease (job va : Nat) (s : State) : Answer :=
  match s.pageOf job va with
  | some m => stepIf s (s.frameQuiet m && !s.pageLocked job va) (s.releasePage m)
  | none => .next s

/-! ### Residence (R44, R438) -/

/-- The key of the entry of a page below a table, where its tables exist (R40). -/
def State.entryKeyFrom (s : State) (va stop : Nat) : Nat → Nat → Option Nat
  | 0, base => some (base + 8 * levelIndex va 0)
  | l + 1, base =>
    let k := base + 8 * levelIndex va (l + 1)
    let p := s.readNat k 8
    if stop = l + 1 then some k
    else if pteValid p && !pteLeaf p then s.entryKeyFrom va stop l (bits p 47 8 * 256) else none

/-- The key of the entry of a page, where its tables exist (R39-R41). -/
def State.pteKey (s : State) (m : Mapped) : Option Nat :=
  let j := s.jobAt m.job
  let below (root : Nat) (k : Option Nat) : Option Nat := if root = 0 then none else k
  let column := look 0 j.columns (bits m.va 55 52)
  match m.space with
  | .dram => below j.dramRoot (s.entryKeyFrom m.va (leafLevel m.shift) 4 j.dramRoot)
  | .fabric => below j.fabricRoot (s.entryKeyFrom m.va (leafLevel m.shift) 4 j.fabricRoot)
  | .column => below column (some (column + 8 * ((bits m.va 51 46 * 32 + bits m.va 45 40) * 256 + bits m.va 23 16)))

/-- The entry of a page as it stands; 0 where there is none. -/
def State.entryNow (s : State) (m : Mapped) : Nat :=
  match s.pteKey m with
  | some k => s.readNat k 8
  | none => 0

/-- PAGE_NON_RESIDENT (R42, R44): firmware keeps the page's contents (log 12). -/
def execPageNonResident (job va : Nat) (s : State) : Answer :=
  match s.pageOf job va with
  | some m =>
    let e := s.entryNow m
    stepIf s (pteValid e && ptePageable e && s.frameQuiet m && !s.pageLocked job va)
      ((s.writePte m (e - 2 ^ 63)).invalidatePage m)
  | none => .next s

/-- The contents, tags and poison of a frame copied to another (R88). -/
def State.copyFrame (s : State) (m : Mapped) (new : Nat) : State :=
  let old := m.frame
  let size := 2 ^ m.shift
  let t := ((s.takeBus old).takeBus new).clear new size
  let moved := (s.mem.filter fun c => old ≤ c.1 && c.1 < old + size).map fun c => (c.1 - old + new, c.2)
  let shift (l : List Nat) : List Nat := (l.filter fun g => old ≤ 16 * g && 16 * g < old + size).map fun g => g - old / 16 + new / 16
  { t with
    mem := if s.keys = 0 then moved.foldl (fun m c => Memory.write m c.1 c.2) t.mem
      else Memory.writeAll t.mem new (s.sealed new (s.readBytes old size))
    tags := t.tags ++ shift s.tags
    poison := t.poison ++ shift s.poison }

/-- A page's record names another frame. -/
def State.reframe (s : State) (m : Mapped) (frame : Nat) : State :=
  { s with pkg := { s.pkg with pages := s.pkg.pages.map fun x => if x == m then { m with frame } else x } }

/-- The attributes that an entry carries, with DS for its new frame (R88). -/
def attrsOf (e : Nat) (space : Space) (frame : Nat) : Nat :=
  leafBits (pteClass e) (pteSystemAtomic e) (ptePageable e) (pteCode e) (pteCacheable e) (space == .column && paKind frame == 0)
    (pteWritable e)

/-- The accesses that wait for a page translate afresh, on every die (R438). -/
def State.wakePage (s : State) (m : Mapped) : State :=
  let waits := awaitsPage m.job m.space m.va m.shift
  s.cores.foldl (fun t (k, _) => (t.wake (coordOf k) waits).wakeRoom (coordOf k)) s

/-- The accesses that wait for a page that cannot be made resident fault (R438). -/
def State.failPage (s : State) (m : Mapped) : State :=
  s.cores.foldl (fun t (k, _) => t.failSlots (coordOf k) (awaitsPage m.job m.space m.va m.shift)) s

/-- A resident request is for a page. -/
def Mapped.requested (m : Mapped) (r : Nat × Space × Nat) : Bool := r.1 == m.job && r.2.1 == m.space && m.holds (65536 * r.2.2)

/-- PAGE_RESIDENT (R438): the page comes back in a frame, or firmware reports that it cannot; then its entry is cleared, so
that engines meet page not present as well (log 12). -/
def execPageResident (job va frame : Nat) (ok : Bool) (s : State) : Answer :=
  match s.pageOf job va with
  | some m =>
    let t := { s with pkg := { s.pkg with residentRequests := s.pkg.residentRequests.filter fun r => !m.requested r } }
    let a := attrsOf (s.entryNow m) m.space frame
    if !s.pkg.residentRequests.any m.requested then .next s
    else if ok then
      let n : Mapped := { m with frame }
      let u := if frame = m.frame then t else (t.copyFrame m frame).reframe m frame
      stepIf s (frame == m.frame || (s.frameFree frame m.shift && paKind frame == paKind m.frame))
        ((u.writePte n (leafEntry a frame)).wakePage n)
    else .next ((t.releasePage m).failPage m)
  | none => .next s

/-! ### Moving a page (R88, R89) -/

/-- A frame that may back the page (R78, R92): a cap frame of the window's own die, or, where that die is unmapped, of
another die of its tier; a DRAM frame for any COLUMN page, and for a DRAM page. -/
def State.frameFits (s : State) (m : Mapped) (frame : Nat) : Bool :=
  let die := bits m.va 55 52
  let v := s.virtualOf (bits frame 43 40)
  match m.space with
  | .column =>
    paKind frame == 0 || (paKind frame == 1 && (if s.dieLive die then v == die else (queuePlace v).2 == (queuePlace die).2))
  | .dram => paKind frame == 0
  | .fabric => false

/-- The tower whose cap and stack come first for a COLUMN page: that of its window's die, or, where that die is unmapped, the one
that holds its frame (R88, R92, R94). -/
def State.moveTower (s : State) (m : Mapped) : Nat :=
  let die := bits m.va 55 52
  if s.dieLive die then s.physical die else bits m.frame 43 40

/-- A cap frame of that tower is free for the page. -/
def State.capLeft (s : State) (m : Mapped) : Bool :=
  let p := s.moveTower m
  s.towerLive p && (coresOfDie (s.virtualOf p)).any fun c => (s.sliceFrames c).any fun f => s.frameFree f && s.frameFits m f

/-- R88's order of destinations for a COLUMN page: a cap frame of its tower, DRAM on that tower's stack, DRAM elsewhere; a cap
frame of another tower, for a page of an unmapped die (R92), where its own has none. -/
def State.orderly (s : State) (m : Mapped) (frame : Nat) : Bool :=
  let p := s.moveTower m
  m.space != .column || (paKind frame == 1 && bits frame 43 40 == p) ||
    (!s.capLeft m && (paKind frame == 1 || bits frame 43 40 == p || (s.stackFrame 16 p).isNone))

/-- The endpoint of an address in a page's frame (R102). -/
def State.frameHome (s : State) (m : Mapped) (pa : Nat) : Coord :=
  let n := namedCore m.va
  if m.space = .column ∧ s.ownFrame n pa then n else s.endpointOf pa

/-- The watch-list entries for the objects of a page follow it to the home of its new frame, in their order; one for which
that list has no room is told to try again (R89, R312). -/
def State.moveWatchers (s : State) (m : Mapped) (new : Nat) : State :=
  let of_ (w : Watcher) : Bool := w.obj / 2 ^ m.shift == m.frame / 2 ^ m.shift
  let moved := s.cores.flatMap fun (_, x) => x.watch.filter of_
  let t := { s with cores := s.cores.map fun (k, x) => (k, { x with watch := x.watch.filter fun w => !of_ w }) }
  moved.foldl (fun u w =>
    let a := new + w.obj % 2 ^ m.shift
    let home := u.frameHome m a
    let reply := { w.reply with src := home }
    if (u.coreAt home).watch.length < 64 then u.modCore home fun x => { x with watch := x.watch ++ [{ obj := a, reply }] }
    else u.post { reply with op := 0x41 }) t

/-- Steps 2 to 4 of a move: contents, entry, translations (R88). -/
def State.movePage (s : State) (m : Mapped) (frame : Nat) : State :=
  let e := s.entryNow m
  let n : Mapped := { m with frame }
  ((((s.copyFrame m frame).writePte n (leafEntry (attrsOf e m.space frame) frame)).invalidatePage m).moveWatchers m frame).reframe m frame

/-- A message to a page's frame `old`, sent to the frame `m` has now (R88, step 5). One that has come to the old endpoint has
come to the new one; one that is still in the mesh sets out anew. -/
def State.redirected (s : State) (m : Mapped) (old : Nat) (f : Flight) : Flight :=
  if f.forMemory && f.addr / 2 ^ m.shift == old / 2 ^ m.shift then
    let a := m.frame + f.addr % 2 ^ m.shift
    let g := { f with addr := a, dst := s.frameHome m a }
    if f.travels then { g with landed := 0, flits := [] } else g
  else f

/-- Every access that stands at the old frame translates again and goes to the new one: those on the way, those not sent yet,
and, in the order in which they came, those that wait at the old endpoint (R88, R89, R159). -/
def State.redirect (s : State) (m : Mapped) (old : Nat) : State :=
  let go := s.redirected m old
  let held := (s.cores.flatMap fun (_, x) => x.msg.waitingAtomic).filter fun f => go f != f
  let pendTo (p : Pending) : Pending := { p with todo := p.todo.map fun (q, f) => (q, go f) }
  let cores := s.cores.map fun (k, x) =>
    (k, { x with
      msg := { x.msg with waitingAtomic := x.msg.waitingAtomic.filter fun f => go f == f }
      slots := x.slots.map fun (i, y) => (i, { y with pend := y.pend.map pendTo }) })
  { s with net := held.map (fun f => { go f with via := .queue 0 }) ++ s.net.map go, cores }

/-- PAGE_MOVE (R88, R89, R95): one page at a time; the lock stands until it is released. -/
def execPageMove (job va frame : Nat) (s : State) : Answer :=
  match s.pageOf job va with
  | some m =>
    let t := s.movePage m frame
    let lock : Lock := { job, va := m.va, old := m.frame, new := frame, shift := m.shift }
    stepIf s (s.pkg.locks.isEmpty && s.frameFree frame m.shift && s.frameFits m frame && s.orderly m frame && pteValid (s.entryNow m))
      { t with pkg := { t.pkg with locks := lock :: t.pkg.locks } }
  | none => .next s

/-- The lock of a moved page is released (R88, step 5). -/
def State.unlock (s : State) (l : Lock) : State :=
  let t := { s with pkg := { s.pkg with locks := s.pkg.locks.filter (· != l) } }
  (t.redirect { job := l.job, space := spaceOf l.va, va := l.va, frame := l.new, shift := l.shift } l.old).wakeAll

/-- PAGE_LOCK_RELEASE (R88, step 5). -/
def execPageLockRelease (job va : Nat) (s : State) : Answer :=
  match s.pkg.locks.find? fun l => l.job == job && l.va / 2 ^ l.shift == va / 2 ^ l.shift with
  | some l => .next (s.unlock l)
  | none => .next s

end Sys2Proof.Machine
end

