-- ==== Sys2Proof/Machine/Jobs.lean ====
section
/-! DEFINITION. Sys2Proof/Machine/Jobs.lean: launch images, job descriptors, and how firmware accepts and ends a job (R178, R194, R197, R200-R205, R320-R324, R402-R407, R426). -/

namespace Sys2Proof.Machine

/-! ### Job descriptors (R402) -/

def descImage (d : Nat) : Nat := bits d 1023 960
def descImageLen (d : Nat) : Nat := bits d 959 928
/-- The steward; 0xFFFF names (15, 8, 0). -/
def descSteward (d : Nat) : Coord := if bits d 927 912 = 0xFFFF then Coord.mk 15 8 0 else BitVec.ofNat 16 (bits d 927 912)
def descFirst (d : Nat) : Bool := bit d 911
def descPmax (d : Nat) : Nat := bits d 910 909
def descTasks (d : Nat) : Nat := bits d 895 832
def descCount (d : Nat) : Nat := bits d 831 816 + 1
def descEvent (d : Nat) : Nat := bits d 815 800
def descSignals (d : Nat) : Bool := bit d 799
def descInterrupt (d : Nat) : Bool := bit d 798
def descReport (d : Nat) : Nat := bits d 767 704
def descHandlers (d : Nat) : Nat := bits d 703 672
def descHandlerData (d : Nat) : Nat := bits d 671 640
def descHandlerLen (d : Nat) : Nat := bits d 639 608
def descSvec (d : Nat) : Nat := bits d 607 576
def descUvec (d : Nat) : Nat := bits d 575 544
def descLimit (d : Nat) : Nat := bits d 527 512
/-- PW0 to PW3. -/
def descPartw (d t : Nat) : Word := word (bits d (511 - 64 * t) (448 - 64 * t))

/-- The res0 fields of a descriptor are zero. -/
def descReserved (d : Nat) : Bool := bits d 908 896 == 0 && bits d 797 768 == 0 && bits d 543 528 == 0 && bits d 255 0 == 0

/-- A core of each tier, for the limits of R53. -/
def tierCore (t : Nat) : Coord := match t with | 0 => Coord.mk 0 0 0 | 1 => Coord.mk 12 0 0 | 2 => Coord.mk 15 0 0 | _ => Coord.mk 15 8 0

/-- A trap vector: even, and within the text segment unless zero (R404). -/
def vectorValid (text v : Nat) : Bool := v % 2 == 0 && (v == 0 || v < text)

/-! ### Launch images (R200-R205) -/

/-- Bytes of a list from a place. -/
def slice (l : List Byte) (off n : Nat) : List Byte := (l.drop off).take n

/-- The eight parts lie inside the image, in order, each at a multiple of 16 (R200, R201). -/
def partsOrdered (limit : Nat) : Nat → List (Nat × Nat) → Bool
  | _, [] => true
  | low, (off, n) :: r => off % 16 == 0 && low ≤ off && off + n ≤ limit && partsOrdered limit (off + n) r

/-- A launch image, read from its bytes. -/
structure LaunchImage where
  kernels : List Kernel
  levels : List Nat
  boards : List Board
  /-- home die of each event, 0xFF for the loader's choice, and the place of its name in the name table (R202) -/
  events : List (Nat × Nat)
  relocs : List Nat
  /-- the name table (R203) -/
  names : List Byte
  text : List Byte
  data : List Byte
deriving DecidableEq, Repr

/-- Entries of `n` bytes from a place. -/
def entriesAt (l : List Byte) (off n count : Nat) : List Nat := (List.range count).map fun i => leNat (slice l (off + n * i) n)

/-- A kernel table entry (R205). An entry whose Q is none of R205's, whose res0 is not zero or whose ENTRY lies outside the
text is taken as it stands (DESIGN CHOICE, log 34). -/
def kernelOf (e : Nat) : Kernel :=
  { entry := bits e 127 96, quota := bits e 37 32, wayfarer := bit e 39, mirmask := BitVec.ofNat 32 (bits e 95 64)
    spmax := bits e 63 48, name := bits e 31 0 }

/-- A board table entry (R202): the loader gives board `i` the handle `i` (log 12). A bad COUNT or HOME is taken as it stands
(DESIGN CHOICE, log 34). -/
def boardOf (e i : Nat) : Board :=
  { name := bits e 63 32, home := BitVec.ofNat 16 (bits e 31 16), count := bits e 9 0, handle := i }

/-- The image of a header that is as R201 gives; none when it is malformed. DESIGN CHOICE (log 34): R202 names no refusal for
res0 bits, so that those of a board entry ([15:10]) and of an event entry ([31:8]) are taken as they stand. -/
def parseImage (l : List Byte) : Option LaunchImage :=
  let h := leNat (l.take 80)
  let nk := bits h 575 544
  let ne := bits h 511 480
  let nr := bits h 479 448
  let text := bits h 415 384
  let data := bits h 383 352
  let parts := [(bits h 351 320, 16 * nk), (bits h 319 288, 64), (bits h 287 256, 8 * bits h 543 512), (bits h 255 224, 8 * ne),
    (bits h 223 192, bits h 447 416), (bits h 191 160, 16 * nr), (bits h 159 128, text), (bits h 127 96, data)]
  if 80 ≤ l.length && bits h 639 608 == 0x314C4245 && bits h 607 592 == 1 && bits h 591 576 == 0 && bits h 95 0 == 0 &&
      partsOrdered l.length 80 parts then
    some { kernels := (entriesAt l (bits h 351 320) 16 nk).map kernelOf, levels := entriesAt l (bits h 319 288) 8 8
           boards := (entriesAt l (bits h 287 256) 8 (bits h 543 512)).zipIdx.map fun (e, i) => boardOf e i
           names := slice l (bits h 223 192) (bits h 447 416),
             events := (entriesAt l (bits h 255 224) 8 ne).map fun e => (bits e 7 0, bits e 63 32)
           relocs := entriesAt l (bits h 191 160) 16 nr, text := slice l (bits h 159 128) text, data := slice l (bits h 127 96) data }
  else none

/-! ### Relocation (R194, R197, R204) -/

/-- The byte offsets at which instructions of a text segment begin (R211). -/
def instructionStarts (l : List Byte) : Nat → Nat → List Nat
  | 0, _ => []
  | fuel + 1, off =>
    match l.drop off with
    | b0 :: b1 :: _ => off :: instructionStarts l fuel (off + parcelLength (parcel b0 b1))
    | _ => []

/-- Parcel 0 of a 32-bit instruction of the I format (R214, R225-R227). -/
def iFormat (p : Nat) : Bool :=
  let j := bits p 11 6
  bits p 15 14 == 3 && match bits p 13 12 with
  | 0 => j == 31 || (32 ≤ j && j ≤ 41) || (57 ≤ j && j ≤ 63)
  | 1 => j ≤ 13 || j == 18
  | 2 => j ≤ 2 || (4 ≤ j && j ≤ 7) || (18 ≤ j && j ≤ 23) || j == 30
  | _ => false

/-- Parcel 0 of LI.W (R217, R265). -/
def liwParcel (p : Nat) : Bool := bits p 15 5 == 0x7FE

/-- A value fits a word of `n` bytes: the record gives no signedness, so that both readings of R197 are taken (DESIGN CHOICE,
log 34). -/
def fitsWord (v : Int) (n : Nat) : Bool := -(2 ^ (8 * n - 1) : Int) ≤ v && v < 2 ^ (8 * n)

/-- Bytes put at a place of a list. -/
def patch (l : List Byte) (off : Nat) (b : List Byte) : List Byte := l.take off ++ b ++ l.drop (off + b.length)

/-- The reserved values of a relocation record (R204). -/
def relocReserved (r : Nat) : Bool :=
  1 < bits r 95 92 || 2 < bits r 91 88 || (bits r 91 88 != 2 && bits r 87 86 != 0) || bits r 85 84 != 0 || bits r 79 64 != 0 ||
  bits r 83 80 == 0 || 4 < bits r 83 80 || (bits r 83 80 ≤ 2 && bits r 63 32 != 0)

/-- The value of a record: an offset, an event name, or a board's handle; an INDEX that names no event or board refuses the
image (DESIGN CHOICE, log 34). -/
def relocValue (names : List Nat) (boards : List Board) (r : Nat) : Option Int :=
  let i := bits r 63 32
  let add := signed (bits r 31 0) 32
  match bits r 83 80 with
  | 3 => (names[i]?).map fun (x : Nat) => (x : Int) + add
  | 4 => (boards[i]?).map fun b => (b.handle : Int) + add
  | _ => some add

/-- One relocation of the text and data segments; none refuses the image (R204). -/
def relocate (starts names : List Nat) (boards : List Board) (seg : List Byte × List Byte) (r : Nat) : Option (List Byte × List Byte) :=
  let at_ := bits r 127 96
  let text := seg.1
  let p0 := leNat (slice text at_ 2)
  match relocValue names boards r with
  | none => none
  | some v =>
    if relocReserved r then none
    else
      match bits r 91 88, bits r 95 92 with
      | 0, 0 =>
        if starts.contains at_ && at_ + 4 ≤ text.length && iFormat p0 && -2048 ≤ v && v ≤ 2047 then
          let p1 := leNat (slice text (at_ + 2) 2)
          some (patch text (at_ + 2) (leBytes 2 (p1 / 4096 * 4096 + wrap v 12)), seg.2)
        else none
      | 1, 0 =>
        if starts.contains at_ && at_ + 10 ≤ text.length && liwParcel p0 then
          some (patch text (at_ + 2) ((splitBits 16 4 (wrap v 64)).reverse.flatMap (leBytes 2)), seg.2)
        else none
      | 2, 1 =>
        let n := 2 ^ bits r 87 86
        if at_ + n ≤ seg.2.length && fitsWord v n then some (text, patch seg.2 at_ (leBytes n (wrap v (8 * n)))) else none
      | _, _ => none

/-- Every relocation, in order (R204). -/
def LaunchImage.relocated (m : LaunchImage) (names : List Nat) : Option (List Byte × List Byte) :=
  m.relocs.foldlM (relocate (instructionStarts m.text (m.text.length + 1) 0) names m.boards) (m.text, m.data)

/-! ### Reading what a submitter names -/

/-- The bytes of a submitter's address space, in DRAM or FABRIC; none where a page cannot be read. `fuel` is a bound on the
pages. -/
def State.readSpace (s : State) (job : Nat) : Nat → Nat → Nat → Option (List Byte)
  | 0, _, _ => some []
  | fuel + 1, va, n =>
    let m := min n (65536 - va % 65536)
    if n = 0 then some []
    else if region va != 4 && region va != 5 then none
    else
      match s.walk job (spaceOf va) va with
      | .leaf e shift =>
        let pa := pteFrame e + va % 2 ^ shift
        if s.pagePoisoned job (spaceOf va) va shift || s.poisonedAt pa m ||
            (paKind pa == 2 && !s.windowHolds pa m) then none
        else (s.readSpace job fuel (va + m) (n - m)).map (s.readBytes (s.memoryKey pa) m ++ ·)
      | _ => none

/-- The bytes of an address space from `va`. -/
def State.spaceBytes (s : State) (job va n : Nat) : Option (List Byte) := s.readSpace job (n / 65536 + 2) va n

/-! ### Acceptance (R403-R405) -/

/-- The die and the tier that an initial record's placement names; none when it is malformed (R402). -/
def placementOf (r : Record) : Option (Nat × Nat) :=
  let p := recParent r
  let die := bits p 23 20
  if bits p 18 0 ≠ 0 ∨ (bit p 19 ∧ die ≠ 15) then none
  else some (die, if bit p 19 then 3 else if die < 12 then 0 else if die < 15 then 1 else 2)

/-- An initial record is valid for the queue that it goes to (R320, R404). -/
def initialValid (j : Job) (r : Record) : Bool :=
  match placementOf r with
  | some (_, t) => recordValid j t r
  | none => false

/-- Names of events in use. -/
def State.namesTaken (s : State) : List Nat := (s.jobs.filter fun (_, j) => j.live).flatMap fun (_, j) => j.events

/-- Event names for a table of home dies: the lowest free index of each board; the loader's choice is die 15 (log 12). -/
def assignNames (taken : List Nat) : List Nat → Option (List Nat)
  | [] => some []
  | d :: r =>
    let die := if d = 0xFF then 15 else d
    (findBelow 4096 fun i => !taken.contains (4096 * die + i)).bind fun i =>
      (assignNames ((4096 * die + i) :: taken) r).map fun l => (4096 * die + i) :: l

/-- Where firmware puts the segments of a job in its address space (log 12). -/
def textVa : Nat := 0x0400000000010000
def dataVa : Nat := 0x0400000200000000

/-- The launch record of a job, but for its counter (R405). -/
def launchRecord (d : Nat) (m : LaunchImage) (names : List Nat) (data : List Byte) (sub : Submission) : Job :=
  let handler (i : Nat) : Nat :=
    let off := descHandlers d + 4 * i
    if off + 4 ≤ data.length then leNat (slice data off 4) else 0
  { live := true
    code := makeCap 0xA10 0 0 textVa m.text.length textVa
    data := makeCap 0xC10 0 0 dataVa m.data.length dataVa
    handlerData := if descHandlerLen d = 0 then {} else makeCap 0xC10 0 0 (dataVa + descHandlerData d) (descHandlerLen d) (dataVa + descHandlerData d)
    handlers := (List.range 64).map fun i => (i, handler i)
    pw := (List.range 4).map fun t => (t, descPartw d t)
    kernels := m.kernels, steward := descSteward d, evec := cleanEvec (word (at_ 32 (descSvec d) + descUvec d))
    levels := m.levels.zipIdx.map fun (e, i) => (i, word e)
    events := names, eventNames := m.events.map (·.2), boards := m.boards, limit := descLimit d, parent := sub.job
    doneEvent := if descSignals d then some (descEvent d) else none
    interrupt := descInterrupt d, reportTo := descReport d, pmax := descPmax d }

/-- The checks of R404 that need no image. -/
def descWellFormed (d : Nat) (host : Bool) : Bool :=
  descReserved d && ((List.range 4).all fun t => partwValid (tierCore t) (descPartw d t)) &&
  (!descFirst d || coreExists (descSteward d)) && !(host && descSignals d)

/-- The checks of R404 against the image's segments and tables. An event entry whose DIE is none of R202's is malformed (DESIGN
CHOICE, log 34). -/
def descFits (d : Nat) (m : LaunchImage) (j : Job) (records : List Record) : Bool :=
  vectorValid m.text.length (descSvec d) && vectorValid m.text.length (descUvec d) &&
  descHandlerData d + descHandlerLen d ≤ m.data.length && descHandlers d ≤ m.data.length &&
  m.levels.all levelValid && (m.events.all fun (e, _) => e < 16 || e == 0xFF) && records.all (initialValid j) &&
  !(descFirst d && (records.head?.map recShape) != some 0)

/-- What firmware makes of a descriptor: a reason of refusal, or what it will install. -/
inductive Verdict where
  | refuse (reason : Nat)
  | take (j : Job) (text data : List Byte) (records : List Record)
deriving DecidableEq, Repr

/-- Jobs that a job has outstanding through LAUNCH. -/
def State.children (s : State) (n : Nat) : Nat := (s.jobs.filter fun (_, j) => j.live && j.parent == some n).length

/-- Bytes put into the pages of a job from `va` on. -/
def State.fillPages (s : State) (job va : Nat) (l : List Byte) : State :=
  (List.range (ceilDiv l.length 65536)).foldl (fun t i =>
    match t.pageOf job (va + 65536 * i) with
    | some m => t.writeBytes m.frame (slice l (65536 * i) 65536)
    | none => t) s

/-- A segment placed in DRAM with class 0, on the stacks in turn from `stack` on (R80, R404, step 2); none when its memory cannot
be allocated. -/
def State.placeSegment (s : State) (stack job va attrs : Nat) (l : List Byte) : Option State :=
  (s.mapRun (fun t i => t.dramFrame (List.range 16) 16 (stack + i)) (fun _ => attrs) { job, space := .dram, va, frame := 0 }
    (ceilDiv l.length 65536) 0).map fun t => t.fillPages job va l

/-- Both segments of a job placed: text pages with CD = 1 and W = 0, data pages with CD = 0 and W = 1 (R404). -/
def State.placeSegments (s : State) (stack job : Nat) (text data : List Byte) : Option State :=
  (s.placeSegment stack job textVa (leafBits 0 false false true true false false) text).bind fun t =>
    t.placeSegment stack job dataVa (leafBits 0 false false false true false true) data

/-- THE JUDGEMENT of a descriptor (R404): malformed first, then the launching job's limit, then memory. A job for whose events or
boards no name or handle is left is refused with reason 1, before its other parts are looked at (DESIGN CHOICE, log 34). -/
def State.judge (s : State) (stack : Nat) (sub : Submission) : Verdict :=
  let d := sub.desc.toNat
  let space := sub.job.getD 0
  let image := (s.spaceBytes space (descImage d) (descImageLen d)).bind parseImage
  let tasks := s.spaceBytes space (descTasks d) (32 * descCount d)
  if !descWellFormed d sub.job.isNone then .refuse 2
  else
    match image, tasks with
    | some m, some l =>
      let records := (List.range (descCount d)).map fun i => BitVec.ofNat 256 (leNat (slice l (32 * i) 32))
      match if m.boards.length ≤ 65536 then assignNames s.namesTaken (m.events.map (·.1)) else none with
      | none => .refuse 1
      | some names =>
        match m.relocated names with
        | none => .refuse 2
        | some (text, data) =>
          let j := launchRecord d m names data sub
          let full : Bool := match sub.job with | some p => (s.jobAt p).limit ≤ s.children p | none => false
          if !descFits d m j records then .refuse 2
          else if full then .refuse 3
          else if ((s.setJob s.pkg.nextJob j).placeSegments stack s.pkg.nextJob text data).isSome then .take j text data records
          else .refuse 1
    | _, _ => .refuse 2

/-- The steward's deque can take record 0. Initial records for which a die queue has no room among its 4,096 stand behind it, in
order, and nothing else enters it meanwhile (R404, R407; DESIGN CHOICE, log 34). -/
def State.recordsFit (s : State) (j : Job) (first : Bool) : Bool := !first || (s.coreAt j.steward).dequeRoom

/-- An initial record enters its queue with the job counter as its parent (R322, R404). -/
def State.enqueueInitial (s : State) (n h : Nat) (steward : Option Coord) (r : Record) : State :=
  let q : Queued := { record := recWithParent r h, job := n, since := s.ts.toNat }
  match steward, placementOf r with
  | some c, _ => s.modCore c fun x => { x with deque := q.record :: x.deque }
  | none, some (d, t) => s.enqueueDie d t q
  | none, none => s

/-- The five steps of an accepted descriptor (R404): the state, and the job's number. -/
def State.install (s : State) (stack : Nat) (j : Job) (first : Bool) (text data : List Byte) (records : List Record) : State × Nat :=
  let n := s.pkg.nextJob
  let (h, t) := { s with pkg := { s.pkg with nextJob := n + 1 } }.newCounter j.steward.die { count := records.length, job := n }
  let t := t.setJob n { j with counter := h }
  let t := (t.placeSegments stack n text data).getD t
  let t := j.events.foldl (fun u e => u.setEvent e {}) t
  let t := records.zipIdx.foldl (fun u (r, i) => u.enqueueInitial n h (if first && i == 0 then some j.steward else none) r) t
  (t, n)

/-- The answer of a LAUNCH that waits (R324): the job number with bit 63, or the reason of the refusal. -/
def State.answerLaunch (s : State) (sub : Submission) (x : Nat) : State :=
  match sub.waiter with
  | some (c, i, gen) =>
    let y := s.slotAt c i
    match y.pend with
    | some p => if y.gen = gen then s.concludeSlot c i { p with buf := scatter [(0, 0, 8)] (leBytes 8 x) [] } else s
    | none => s
  | none => s

def State.setCommands (s : State) (q : Nat) (l : List Submission) : State :=
  { s with pkg := { s.pkg with commands := put s.pkg.commands q l } }

/-- HOST_COMMAND (R403): queue 63 carries every LAUNCH; a message that finds its queue full is answered with NAK reason 2; a module
that has not joined the fabric, since its identity is erased, receives none (R447). -/
def execHostCommand (q : Nat) (desc : BitVec 1024) (s : State) : Answer :=
  let l := look [] s.pkg.commands q
  stepIf s (s.inService && !s.pkg.identityErased && q < launchQueue)
    (if l.length < 64 then s.setCommands q (l ++ [{ desc := desc }])
     else { s with pkg := { s.pkg with commandNaks := q :: s.pkg.commandNaks } })

/-- The queue that firmware takes from: the first from its place in the rotation that holds a descriptor (R403). -/
def State.commandQueue (s : State) : Option Nat :=
  (findBelow 64 fun i => !(look [] s.pkg.commands ((s.pkg.commandTurn + i) % 64)).isEmpty).map fun i => (s.pkg.commandTurn + i) % 64

/-- JOB_ACCEPT (R403, R404): the oldest descriptor of a queue is refused or accepted, when the queue's turn has come; firmware
begins with DRAM at `stack`. -/
def execJobAccept (q stack : Nat) (s : State) : Answer :=
  if s.commandQueue ≠ some q then .next s
  else
    match look [] s.pkg.commands q with
    | sub :: rest =>
      let t := s.setCommands q rest
      let t := { t with pkg := { t.pkg with commandTurn := (q + 1) % 64 } }
      let first := descFirst sub.desc.toNat
      if !s.inService then .next s
      else
        match s.judge stack sub with
        | .refuse r => .next (t.answerLaunch sub r)
        | .take j text data records =>
          let (u, n) := t.install stack j first text data records
          stepIf s (s.recordsFit j first) (u.answerLaunch sub (2 ^ 63 + n))
    | [] => .next s

/-! ### The end of a job (R406, R426) -/

/-- A job's threads and handlers leave their slots, with the follower slots that they reserve; a requester of an ended
handler hears reason 2 (R422). -/
def State.removeThreads (s : State) (job : Nat) : State :=
  s.cores.foldl (fun t (k, x) =>
    let c := coordOf k
    let t := (List.range (slotCount c)).foldl (fun (u : State) i =>
      if i != 0 && (u.slotAt c i).st != .empty && (u.slotAt c i).mem.job == job then u.vacate c i else u) t
    if x.owner = some job ∧ x.msg.handling.isSome then
      match x.msg.handling with
      | some f => (t.refuseMessage f).endHandler c
      | none => t
    else t) s

/-- The engines forget a job's commands (R426). -/
def State.removeEngineJobs (s : State) (job : Nat) : State :=
  let keep (l : List EngineJob) : List EngineJob := l.filter fun j => j.job != job
  let mine (c : Coord) (id : Nat) : Bool := (s.coreAt c).eng.jobs.any fun j => j.job == job && j.id == id && j.kind == kindPorter
  let cores := s.cores.map fun (k, x) =>
    (k, { x with eng := { x.eng with
      jobs := keep x.eng.jobs, stairQueue := keep x.eng.stairQueue, stairRun := x.eng.stairRun.filter fun j => j.job != job } })
  let clusters := s.clusters.map fun (k, x) =>
    (k, { x with
      matrixQueue := keep x.matrixQueue, porterQueue := keep x.porterQueue, active := keep x.active
      running := x.running.filter fun j => j.job != job
      parked := x.parked.filter fun (c, id, _) => !mine c id })
  let sequencers := s.pkg.sequencers.map fun (k, q) =>
    (k, ({ run := q.run.filter fun j => j.job != job, queue := keep q.queue } : Sequencer))
  { s with cores, clusters, pkg := { s.pkg with sequencers } }

/-- The queues of the module lose a job's records, saved units and reservations (R406, R426). -/
def State.removeRecords (s : State) (job : Nat) : State :=
  let keep (l : List Queued) : List Queued := l.filter fun q => q.job != job
  let cores := s.cores.map fun (k, x) => (k, { x with deque := x.deque.filter fun r => (s.queuedOf r).job != job })
  let clusters := s.clusters.map fun (k, x) => (k, { x with queue := keep x.queue })
  let dies := s.dies.map fun (k, x) =>
    (k, { x with
      queue := keep x.queue, queueT3 := keep x.queueT3, saved := x.saved.filter fun u => u.job != job
      reserved := x.reserved.filter fun (_, q) => q.job != job })
  let gone := (s.dies.flatMap fun (_, x) => x.saved.filter fun u => u.job == job).flatMap (·.threads)
  gone.foldl State.releaseFollowers { s with cores, clusters, dies }

/-- What belongs to a job and to nothing else is freed: tables, segments, events, partials, rings, translations (R406). -/
def State.freeJob (s : State) (job : Nat) : State :=
  let t := (List.range 16).foldl (fun t d => t.dropDie d 1 job 0 0) s
  let t := (s.jobAt job).events.foldl (fun u e => u.setEvent e {}) t
  let cores := t.cores.map fun (k, x) =>
    (k, { x with
      owner := if x.owner = some job then none else x.owner
      resident := if x.resident = some job then none else x.resident
      eng := { x.eng with partials := x.eng.partials.filter fun p => p.job != job } })
  let u : State := { t with
    cores
    pkg := { t.pkg with
      pages := t.pkg.pages.filter fun m => m.job != job
      poisoned := t.pkg.poisoned.filter fun (j, _, _) => j != job
      locks := t.pkg.locks.filter fun l => l.job != job
      residentRequests := t.pkg.residentRequests.filter fun (j, _, _) => j != job
      rings := t.pkg.rings.filter fun (_, r) => r.job != job
      sequencers := t.pkg.sequencers.map fun (k, q) =>
        (k, ({ run := q.run.filter fun j => j.job != job, queue := q.queue.filter fun j => j.job != job } : Sequencer)) } }
  u.setJob job { u.jobAt job with live := false, events := [], eventNames := [] }

/-- The completion message: job number, status, TSNOW (R406). -/
def completionMessage (job : Nat) (lost : Bool) (ts : Word) : List Byte :=
  leBytes 4 job ++ leBytes 4 (if lost then 0x10 else 0) ++ leBytes 8 ts.toNat

/-- The reports of a job's end: message, event, interrupt (R406). -/
def State.reportEnd (s : State) (job : Nat) : State :=
  let j := s.jobAt job
  let t := if j.reportTo = 0 then s
    else { s with pkg := { s.pkg with hostMessages := (j.reportTo, completionMessage job j.lost s.ts) :: s.pkg.hostMessages } }
  let t := match j.doneEvent with
    | some name => t.post { dst := dieScheduler (name / 4096), src := firmware, op := 0xC1, pay := .event .sig name }
    | none => t
  if j.interrupt then { t with pkg := { t.pkg with interrupts := t.pkg.interrupts + 1 } } else t

/-- JOB_COMPLETION (R406): the job counter has reached zero, or the job is lost. -/
def execJobCompletion (job : Nat) (s : State) : Answer :=
  let j := s.jobAt job
  let t := s.reportEnd job
  if !j.live then .next s
  else if j.lost then .next ((((t.removeThreads job).removeEngineJobs job).removeRecords job).freeJob job)
  else stepIf s (s.counterAt j.counter).over ((t.removeRecords job).freeJob job)

end Sys2Proof.Machine
end

