-- ==== Sys2Proof/Machine/Routing.lean ====
section
/-! DEFINITION. Sys2Proof/Machine/Routing.lean: the recomputation of the tree, the power of links, and the moves of the mesh (R108-R110, R113, R119-R121, R128, R448). -/

namespace Sys2Proof.Machine

/-! ### The tree (R108, R109) -/

/-- The tree that firmware has computed: the one in force where it has computed no other. -/
def State.newTree (s : State) : Sparse Nat := s.pkg.nextTree.getD s.pkg.tree

/-- Firmware computes a tree, which the next bring-up or recomputation takes up; while injection is held it is settled. -/
def State.computeTree (s : State) (tree : Sparse Nat) : State :=
  if s.pkg.injectionHeld then s else { s with pkg := { s.pkg with nextTree := some tree } }

/-- ROUTE_RECOMPUTATION (R109, step 1): firmware has computed a spanning tree; injection stops, and sources stall. -/
def execRouteRecomputation (s : State) : Answer :=
  stepIf s (!s.pkg.injectionHeld && s.spans s.newTree)
    { s with pkg := { s.pkg with injectionHeld := true, heldSince := s.ts.toNat, nextTree := some s.newTree } }

/-- A message has left the mesh, or a retired link is in its way (R109, step 2). -/
def State.drained (s : State) (f : Flight) : Bool := f.via != .mesh || !((hopsOf (s.remaining f)).all fun (u, v) => s.linkUp u v)

/-- A time of which the part since injection was held does not count (R113). -/
def State.shiftHeld (s : State) (since : Nat) : Nat := since + (s.ts.toNat - max since s.pkg.heldSince)

/-- The blocked times of every endpoint without the time for which injection was held (R113). -/
def State.resumeCounts (s : State) : State :=
  let shift (l : Sparse Nat) : Sparse Nat := l.map fun (q, since) => (q, s.shiftHeld since)
  { s with cores := s.cores.map fun (k, x) =>
      (k, { x with msg := { x.msg with blocked := shift x.msg.blocked, roomAt := shift x.msg.roomAt } }) }

/-- ROUTE_TABLE_INSTALL (R109, steps 2 to 4): once every message in the mesh has been delivered, but for those of a retired
link, the new tables are in force in every router at once, and injection resumes. -/
def execRouteTableInstall (s : State) : Answer :=
  match s.pkg.nextTree with
  | some tree =>
    let t := s.resumeCounts
    stepIf s (s.pkg.injectionHeld && s.net.all s.drained)
      { t with
        pkg := { t.pkg with injectionHeld := false, tree, nextTree := none, routed := t.pkg.cut, installs := t.pkg.installs + 1 } }
  | none => .next s

/-! ### Link power (R119, R120) -/

/-- A power-managed link of a die (R119): a bridge, or the stair link from a core to its parent. -/
def linkExists (d l : Nat) : Bool :=
  d < 16 && ((l ≤ 16 && l != d) || (4096 ≤ l && l < 8192 && (parentOf (Coord.mk d ((l - 4096) / 64) (l % 64))).isSome))

/-- The stair unit of a core has a command that needs its link to `p`. -/
def Core.stairNeeds (x : Core) (p : Coord) : Bool := x.eng.stairRun.toList.any fun j => j.needsLink p

/-- A core's stair link to its parent carries the transfers of both ends. -/
def State.stairBusy (s : State) (c : Coord) : Bool :=
  match parentOf c with
  | some (p, _) => (s.coreAt c).stairNeeds p || (s.coreAt p).stairNeeds c
  | none => false

/-- No traffic waits for the link. -/
def State.linkIdle (s : State) (d l : Nat) : Bool :=
  if l ≤ 16 then
    let q := if l = 16 then 16 else s.physical l
    let near (p : Nat × Nat) : Bool := p == (s.physical d, q) || p == (q, s.physical d)
    !(s.net.any fun f => f.travels && (s.bridgesOn f.src f.dst).any near)
  else !s.stairBusy (Coord.mk d ((l - 4096) / 64) (l % 64))

/-- The link has carried nothing for `n` ticks of 1 ns (R120, R450). -/
def State.idleFor (s : State) (d l n : Nat) : Bool := n ≤ s.ts.toNat - look 0 s.pkg.linkUsed (linkKey d l)

/-- A link's state; a bridge is a link of both its dies. -/
def State.setLink (s : State) (d l : Nat) (p : LinkState) : State :=
  let one (t : State) (d l : Nat) : State :=
    t.setDie d { t.dieAt d with links := put (t.dieAt d).links l p, waking := (t.dieAt d).waking.filter (· != l) }
  if l < 16 then one (one s d l) l d else one s d l

/-- LINK_NARROW (R119): after NIDLE of idleness, in units of 100 ns, where NIDLE and FLOOR allow it. DESIGN CHOICE (log 20): a
bridge is a link of two dies, and the NIDLE, SIDLE and FLOOR that govern it are those of the die that the event names. -/
def execLinkNarrow (d l : Nat) (s : State) : Answer :=
  let x := s.dieAt d
  let nidle := bits x.linkpwr.toNat 47 40
  stepIf s (linkExists d l && look .full x.links l == .full && nidle != 0 && 1 ≤ bits x.linkpwr.toNat 1 0 && s.linkIdle d l &&
      s.idleFor d l (100 * nidle))
    (s.setLink d l .narrow)

/-- LINK_SLEEP (R119): after SIDLE, in units of 10 microseconds. -/
def execLinkSleep (d l : Nat) (s : State) : Answer :=
  let x := s.dieAt d
  let sidle := bits x.linkpwr.toNat 39 32
  stepIf s (linkExists d l && look .full x.links l == .narrow && !x.waking.contains l && sidle != 0 && bits x.linkpwr.toNat 1 0 == 2 &&
      s.linkIdle d l && s.idleFor d l (10000 * sidle))
    (s.setLink d l .sleep)

/-- LINK_WAKE_COMPLETE (R119): a link to which traffic has come, or which LWAKE wakes, is at full width again, and stays so
for NIDLE at least (R121). -/
def execLinkWakeComplete (d l : Nat) (s : State) : Answer :=
  let t := (s.setLink d l .full).usesLink d l
  stepIf s (linkExists d l && ((s.dieAt d).waking.contains l || !s.linkIdle d l)) (if l < 16 then t.usesLink l d else t)

/-! ### Moves (log 33) -/

/-- The bank of a word: 0-30 data, 31 + g parity. -/
def poolBank (w : Nat) : Nat := if w < 2 ^ 19 then w % 31 else 31 + w % 4

/-- A word of a pool takes an error (R67): a single bit is corrected in flight, with a record and a self-test; a double-bit error
stays until it is met. -/
def State.upset (s : State) (c : Coord) (w : Nat) (double : Bool) : State :=
  if double then { s with doubleErrors := poolGranule c w :: s.doubleErrors.filter (· != poolGranule c w) }
  else s.unitError 0 c (poolBank w)

end Sys2Proof.Machine
end

