-- ==== Sys2Proof/Machine/Firmware.lean ====
section
/-! DEFINITION. Sys2Proof/Machine/Firmware.lean: the pool, the testers, dies, links, windows, alarms and bring-up (R28, R56, R64-R67, R84-R93, R109, R119, R127, R155, R232, R414, R426, R439, R443-R453). -/

namespace Sys2Proof.Machine

/-! ### Pools (R56, R64, R67) -/

/-- POOL_ARBITRATION (R61-R65): one cycle of a core's pool; the rotation of the clients LS to SU begins one later. -/
def execPoolArbitration (c : Coord) (s : State) : Answer := .next (s.modPool c Pool.cycle)

/-- POOL_REBUILD_WRITEBACK (R67): a word with a double-bit error is rebuilt and loses its tag, or is poisoned when its group has
another error at its row; a parity word is recomputed, once no word of its group has an error that is still to be met. Words from
2^19 on are parity words. -/
def execPoolRebuildWriteback (c : Coord) (w : Nat) (s : State) : Answer :=
  let x := poolGranule c w
  let t := ({ s with doubleErrors := s.doubleErrors.filter (· != x) }).unitError 0 c (poolBank w)
  if !s.doubleErrors.contains x || (2 ^ 19 ≤ w && (groupMates x).any s.doubleErrors.contains) then .next s
  else if w < 2 ^ 19 ∧ s.wordLost x then .next { t with poison := t.poison ++ [x], tags := t.tags.filter (· != x) }
  else .next { t with tags := t.tags.filter (· != x) }

/-- The PARTSET of a core's handler slot that waits for its change retires with it (R395). -/
def State.endPartset (s : State) (c : Coord) : State :=
  let t : State := { s with core := c, slot := 0 }
  if t.sl.st == .stalled || t.sl.st == .ready then { t.retire 4 {} none with core := s.core, slot := s.slot } else s

/-- PARTW_CHANGE (R56, R395): a pending change is installed once the core is quiet, the PARTSET that asked for it retires, and what
waits for it in the cluster goes on. -/
def execPartwChange (c : Coord) (s : State) : Answer :=
  match (s.coreAt c).partPending with
  | some p =>
    stepIf s (s.quiet c)
      (((s.setPartition c p).modCore c fun x => { x with eng := { x.eng with bank := false } }).endPartset c |>.wakeCluster (clusterOf c))
  | none => .next s

/-! ### Testers and self-tests (R79, R84-R87, R448, R449) -/

/-- The tester of the tower works on another bus: on one at a time (R84). -/
def State.testing (s : State) (cl : Coord) (b : Nat) : Bool :=
  s.pkg.buses.any fun (k, x) => x.phase.isSome && k / 16384 == s.physical cl.die && k != s.busKey cl b

/-- TESTER_QUIESCE (R84-R86): the next of the four phases on a bus, of which no other frame, tag or word changes: no transfer is in
flight between two steps, and new ones are held off; a pattern is written to the test row (a free value, log 9); it is read
back, and `bad` is a mismatch; the bus is released. A test that a demand access has met goes no further (R85). -/
def execTesterQuiesce (cl : Coord) (bus : Nat) (bad : Bool) (s : State) : Answer :=
  let x := s.busAt cl bus
  let rested := match x.abortedAt with | some since => s.elapsed cl since 4096 | none => true
  if !isCluster cl || 4 ≤ bus || x.retired || x.demand then .next s
  else
    match x.phase with
    | none => stepIf s (rested && !s.testing cl bus) (s.setBus cl bus { x with phase := some .quiesced })
    | some .quiesced =>
      let (pattern, t) := s.freeNat 64
      .next (t.setBus cl bus { x with phase := some .pattern, row := BitVec.ofNat 512 pattern })
    | some .pattern =>
      let t := s.setBus cl bus { x with phase := some .checked }
      .next (if bad then t.unitError 1 cl bus else t)
    | some .checked => .next (s.setBus cl bus { x with phase := none, abortedAt := none }).wakeAll

/-- TESTER_ABORT (R85): a demand access has reached the bus: the test is discarded, the bus is released, and it is not quiesced
again within 4,096 cycles. -/
def execTesterAbort (cl : Coord) (bus : Nat) (s : State) : Answer :=
  let x := s.busAt cl bus
  stepIf s (x.phase.isSome && x.demand)
    (s.setBus cl bus { x with phase := none, demand := false, abortedAt := some s.ts.toNat }).wakeAll

/-- A page that cannot be kept is poisoned, and its entry kept: the accesses that wait for it meet that (R90, R93, R440). -/
def State.poisonPage (s : State) (m : Mapped) : State :=
  let t := s.invalidatePage m
  { t with pkg := { t.pkg with poisoned := (m.job, m.space, m.va) :: t.pkg.poisoned } }.wakePage m

/-- The pages behind a bus. -/
def State.pagesBehind (s : State) (cl : Coord) (b : Nat) : List Mapped :=
  s.pkg.pages.filter fun m => s.busOf m.frame == some (cl, b)

/-- Cap frames that a cluster has in service (R76, R87). -/
def State.capOf (s : State) (cl : Coord) : Nat :=
  ((List.range 4).filter fun b => !(s.busAt cl b).retired).length * (clusterSize cl * capFrames cl / 4)

/-- A bus leaves service until the next bring-up, with a capacity record; a test on it ends (R87, R95, R454). Firmware then
moves the pages behind it one by one (R88); those behind a bus that cannot be read are poisoned (R90). DESIGN CHOICE (log 26): an
access that has been translated already and is on its way to such a frame is served from the frame's bytes. -/
def State.retireBus (s : State) (cl : Coord) (b : Nat) (readable : Bool) : State :=
  let t := s.setBus cl b { retired := true }
  let t := { t with pkg := { t.pkg with
    capacity := (cl, b, t.capOf cl) :: t.pkg.capacity
    selfTests := t.pkg.selfTests.filter fun x => !(x.kind == 1 && x.place == cl && x.idx == b) } }
  (if readable then t else (s.pagesBehind cl b).foldl State.poisonPage t).wakeAll

/-- The action on a lasting fault (R448). A pool bank's words stay poisoned, a row is spared and a port goes on with 4 lanes:
these change nothing else before the next bring-up. The tree is recomputed by ROUTE_RECOMPUTATION (R109). -/
def State.retireUnit (s : State) (x : SelfTest) (readable : Bool) : State :=
  match x.kind with
  | 1 => if isCluster x.place && x.idx < 4 then s.retireBus x.place x.idx readable else s
  | 2 => s.cutLink x.place.toNat x.idx
  | 5 =>
    match parentOf x.place with
    | some (p, _) => (s.failStair x.place p).failStair p x.place
    | none => s
  | _ => s

/-- SELF_TEST_COMPLETE (R448, R449): the passes that failed and the errors met meanwhile count together; the fault is
lasting when they are 2 or more, and the configuration image then records it. -/
def execSelfTestComplete (kind : Nat) (place : Coord) (idx : Nat) (result : TestResult) (s : State) : Answer :=
  match s.pkg.selfTests.find? fun x => x.kind == kind && x.place == place && x.idx == idx with
  | some x =>
    let t := { s with pkg := { s.pkg with selfTests := s.pkg.selfTests.filter (· != x) } }
    if result.fails + x.errors < 2 then .next t
    else .next ({ t with pkg := { t.pkg with lasting := (kind, place, idx) :: t.pkg.lasting } }.retireUnit x result.readable)
  | none => .next s

/-! ### Draining a die (R414) -/

/-- The other live dies of a die's tier that are not draining: a die that drains itself takes neither records nor pages (R91 does
not say so of its cap frames: DESIGN CHOICE, log 26). -/
def State.peers (s : State) (d : Nat) : List Nat :=
  (List.range 16).filter fun e => e != d && s.dieLive e && !(s.dieAt e).draining && (queuePlace e).2 == (queuePlace d).2

/-- Queued records of a die go to its peers in order, in rotation (log 12), as long as one has room. -/
def State.moveRecords (s : State) (d : Nat) : State :=
  let x := s.dieAt d
  let l := s.peers d
  let t := (queuePlace d).2
  if l.isEmpty then s
  else
    x.queue.zipIdx.foldl (fun u (q, i) =>
      let turn := l.drop (i % l.length) ++ l.take (i % l.length)
      match turn.find? fun e => u.dieRoom e t with
      | some e => u.enqueueDie e t q
      | none => u.enqueueDie d t q) (s.setDie d { x with queue := [], reserved := [] })

/-- A bound unit forced to a full save (R439): the replay state that engines keep is copied into its image. -/
def State.fullSave (s : State) (u : SavedUnit) : SavedUnit :=
  { u with bound := none, threads := u.threads.map fun x => { x with home := none, parked := x.parked.map s.imageParts } }

/-- Every unit bound to the die has a full save, and resident accumulators are in their save areas (R435, R439). -/
def State.unbindDie (s : State) (d : Nat) : State :=
  let t := (coresOfDie d).foldl (fun t c => t.evictResident c) s
  t.mapSaved fun u => if u.bound = some d then t.fullSave u else u

/-- The saved units of the die go to its peers in order, in rotation, and hold no follower slot on it; those bound to it are
unbound first, by full saves (R414; log 25). -/
def State.moveUnits (s : State) (d : Nat) : State :=
  let l := s.peers d
  if l.isEmpty then s
  else
    let s := s.unbindDie d
    let x := s.dieAt d
    x.saved.zipIdx.foldl (fun v (u, i) =>
      let e := nth 0 l (i % l.length)
      u.threads.foldl State.releaseFollowers
        (v.setDie e { v.dieAt e with saved := (v.dieAt e).saved ++ [u] })) (s.setDie d { x with saved := [] })

/-- A record of a deque goes to the die queue, or stays when that is full (R407). -/
def State.gatherDeque (s : State) (c : Coord) : State :=
  (s.coreAt c).deque.foldl (fun u r =>
    if u.dieRoom c.die (tier c) then u.enqueueDie c.die (tier c) (s.queuedOf r)
    else u.setDeque c ((u.coreAt c).deque ++ [r])) (s.setDeque c [])

/-- A record of a cluster queue likewise. -/
def State.gatherCluster (s : State) (cl : Coord) : State :=
  ((s.clusterAt cl).queue.foldl (fun u q =>
    if u.dieRoom cl.die (tier cl) then u.enqueueDie cl.die (tier cl) q
    else u.setCluster cl { u.clusterAt cl with queue := (u.clusterAt cl).queue ++ [q] })
      (s.setCluster cl { s.clusterAt cl with queue := [] })).noteClosed cl

/-- Deques and cluster queues empty into the die queue, as far as it has room (R407, R414). -/
def State.gatherRecords (s : State) (d : Nat) : State :=
  let t := (coresOfDie d).foldl State.gatherDeque s
  ((coresOfDie d).filter fun c => clusterOf c == c).foldl State.gatherCluster t

/-- No record stands in a deque or a cluster queue of the die, or is on its way to a thief of it. -/
def State.gathered (s : State) (d : Nat) : Bool :=
  (coresOfDie d).all fun c => (s.coreAt c).deque.isEmpty && (s.clusterAt c).queue.isEmpty && (s.coreAt c).stealReply.all Option.isNone

/-- Every thread of the die is marked, and a unit that waits leaves at once (R427). -/
def State.markDie (s : State) (d : Nat) : State :=
  let slots := (coresOfDie d).flatMap fun c =>
    ((List.range (slotCount c)).filter fun i => i != 0 && (s.slotAt c i).st != .empty).map fun i => (c, i)
  let t := slots.foldl (fun u (c, i) => u.modSlot c i fun y => y.marked s.ts.toNat) s
  slots.foldl (fun u (c, i) => u.trySave c i) t

/-- DIE_DRAIN (R414): nothing new is placed on the die, and its records and saved units move away; where the queues of the other
dies were full, the drain goes on when it is made again. -/
def execDieDrain (d : Nat) (s : State) : Answer :=
  if d < 16 && s.dieLive d then
    let t := (s.setDie d { s.dieAt d with draining := true }).gatherRecords d
    .next (((t.markDie d).moveRecords d).moveUnits d)
  else .next s

/-- The die holds no placed unit, no handler runs on it, and no message waits in one of its cores. -/
def State.dieEmpty (s : State) (d : Nat) : Bool :=
  (coresOfDie d).all fun c =>
    let x := s.coreAt c
    x.eng.jobs.isEmpty && x.msg.handling.isNone && x.msg.reqCount == 0 && x.msg.tags.isEmpty && x.partPending.isNone &&
      x.slots.all fun (_, y) => y.st == .empty

/-! ### Dies going offline (R91-R95, R426) -/

/-- A destination for a page of a tower that leaves service (R78, R88, R91, R92): a cap frame of its own die, or of the other
dies of the tier when its window's die is the one that leaves; then DRAM of its own tower's stack, and of the others. -/
def State.destination (s : State) (d : Nat) (m : Mapped) : Option Nat :=
  let die := bits m.va 55 52
  let own := s.dieLive die
  let caps := if m.space = .column then (if own then [die] else s.peers d) else []
  let towers := (if m.space = .column ∧ own then [s.physical die] else []) ++ List.range 16
  ((caps.flatMap fun e => (coresOfDie e).flatMap s.sliceFrames).find? fun f => s.frameFree f && s.frameFits m f).or
    (s.dramFrame towers m.shift 0)

/-- The pages that have a frame in a physical tower, class 2 first, then class 1, then class 0 (R91). -/
def State.towerPages (s : State) (p : Nat) : List Mapped :=
  let l := s.pkg.pages.filter fun m => paKind m.frame < 2 && bits m.frame 43 40 == p
  let ofClass (n : Nat) : List Mapped := l.filter fun m => (if m.space = .column then 2 else pteClass (s.entryNow m)) == n
  ofClass 2 ++ ofClass 1 ++ ofClass 0 ++ ofClass 3

/-- A page moved at once, with the accesses that stand at its old frame (R88). -/
def State.carryPage (s : State) (m : Mapped) (frame : Nat) : State :=
  ((s.movePage m frame).redirect { m with frame } m.frame).wakeAll

/-- A page moved off a die; none when there is no room. -/
def State.evacuate (s : State) (d : Nat) (m : Mapped) : Option State := (s.destination d m).map fun f => s.carryPage m f

/-- A virtual die is unmapped, and its tower out of service until the next bring-up (R91, R94). -/
def State.unmapDie (s : State) (d : Nat) : State :=
  let t := s.setDie d { s.dieAt d with offline := true, draining := false, tlb := [] }
  { t with pkg := { t.pkg with gone := s.physical d :: t.pkg.gone } }

/-- Live pages of a tower stand behind a retired bus: its retirement has not ended (R88, R95). -/
def State.retiring (s : State) (p : Nat) : Bool :=
  s.pkg.pages.any fun m => paKind m.frame == 1 && bits m.frame 43 40 == p && !s.capUsable m.frame &&
    !s.pkg.poisoned.contains (m.job, m.space, m.va)

/-- The answer to a request that can no longer be served (R28, R93, R105, R107). -/
def lostAnswer (f : Flight) : Option Flight :=
  if f.op < 0x06 then some (f.answer 0x42 (.fault 0x10 (word f.addr)))
  else if f.op = 0x06 ∧ f.rq then some (f.answer 0x43 (.reason 2))
  else if f.op = 0x60 then some (f.answer 0x45 (.reason 0))
  else
    match f.pay with
    | .engine core id _ _ va _ _ =>
      if f.op = 0x70 ∨ f.op = 0x71 then some (f.answer 0x42 (.engineFault core id 0x10 (word va))) else none
    | _ => none

/-- A board operation on a board of a core of the die (R154): its home is the core whose window holds the page. -/
def State.boardOn (s : State) (d : Nat) (f : Flight) : Bool :=
  (match f.pay with | .board _ _ => true | _ => false) && f.forMemory &&
    s.pkg.pages.any fun m => m.space == .column && bits m.va 55 52 == d && f.addr / 2 ^ m.shift == m.frame / 2 ^ m.shift

/-- The pieces that a slot has accepted and not sent, and that can no longer be served, are home lost (R28, R93). -/
def State.dropTodo (s : State) (dead : Flight → Bool) (p : Coord × Nat) : State :=
  match (s.slotAt p.1 p.2).pend with
  | some q =>
    if q.todo.any fun (_, f) => dead f then
      let lost := q.todo.filter fun (_, f) => dead f
      let r := lost.foldl (fun r (x, _) => r.noteFault (firstPlace x.runs) 0x10 (word x.addr))
        { q with todo := q.todo.filter fun (_, f) => !dead f }
      let t := s.modSlot p.1 p.2 fun y => { y with pend := some r }
      if r.pieces.isEmpty && r.todo.isEmpty then { (t.concludeSlot p.1 p.2 r).leaves p.1 p.2 with core := s.core, slot := s.slot }
      else t
    else s
  | none => s

/-- What was on its way to or from the cores of a die that is gone, what waited in them, and what was on its way to a frame that
is gone, or to a board of the die: it is answered as home lost. A reply of such a core, to an access that has been performed, goes
on (R28, R93, R154; log 12). -/
def State.dropTraffic (s : State) (d : Nat) (gone : Nat → Bool) : State :=
  let core (c : Coord) : Bool := c.die == d && coreExists c
  let dead (f : Flight) : Bool := core f.dst || (f.forMemory && gone f.addr) || s.boardOn d f
  let left := (s.net.filter fun f => !core f.src || opClass f.op == 1).map fun f => if core f.src then { f with via := .mesh } else f
  let held := (coresOfDie d).flatMap fun c =>
    let m := (s.coreAt c).msg
    m.handling.toList ++ m.waitingActive ++ m.waitingAtomic ++ m.waitingPort.toList
  let answers := ((left.filter dead ++ held).filterMap lostAnswer).map fun (f : Flight) => { f with ts := s.ts }
  let t := { s with net := left.filter (fun f => !dead f) ++ answers }
  let slots := (t.cores.filter fun (k, _) => !core (coordOf k)).flatMap fun (k, x) => x.slots.map fun (i, _) => (coordOf k, i)
  slots.foldl (fun u p => u.dropTodo dead p) t

/-- PLANNED_OFFLINE (R91, R95): of a drained die, once no page is being moved and no retirement is under way; refused as a whole
when a class lacks room, and always for D15, and then the die is open again. Page tables that stand on the stack of tower 0 are
read there for good, also when that tower leaves service (DESIGN CHOICE, log 12). -/
def execPlannedOffline (d : Nat) (s : State) : Answer :=
  let x := s.dieAt d
  let reopened := (s.setDie d { x with draining := false }).wakeAll
  if 15 ≤ d || !s.dieLive d || !x.draining then stepIf s (d == 15) reopened
  else if !s.dieEmpty d || !x.queue.isEmpty || !s.gathered d || !x.saved.isEmpty || !s.pkg.locks.isEmpty ||
      s.retiring (s.physical d) then .next s
  else
    match (s.towerPages (s.physical d)).foldlM (fun t m => t.evacuate d m) (s.unmapDie d) with
    | some t => .next (t.dropTraffic d fun _ => false)
    | none => .next reopened

/-- The fault records of a die's threads (R425, R426). -/
def State.reportLost (s : State) (d : Nat) : State :=
  (coresOfDie d).foldl (fun t c => (List.range (slotCount c)).foldl (fun (u : State) i =>
    let y := u.slotAt c i
    if i != 0 && y.st != .empty then
      u.report (dieScheduler d) (faultRecord 0x11 0 c i y.gen y.mem.job u.ts y.pc.addr 0)
    else u) t) s

/-- The jobs with a unit, an engine job, a handler or a bound context on a die (R426). -/
def State.jobsOn (s : State) (d : Nat) : List Nat :=
  ((coresOfDie d).flatMap fun c =>
    let x := s.coreAt c
    (x.slots.filter fun (i, y) => i != 0 && y.st != .empty).map (fun (_, y) => y.mem.job) ++ x.eng.jobs.map (·.job) ++
      (if x.msg.handling.isSome then x.owner.toList else [])) ++
    (s.dies.flatMap fun (_, x) => (x.saved.filter fun u => u.bound == some d).map (·.job))

/-- The cores, the pools and the clusters of a die as they are after a reset. -/
def State.resetDie (s : State) (d : Nat) : State :=
  let t := (coresOfDie d).foldl (fun t c => (t.clearStripes c 0 (stripes c)).dropWatchers c) s
  { t with
    pools := t.pools.filter fun (k, _) => (coordOf k).die != d
    cores := (t.cores.filter fun (k, x) => (coordOf k).die != d || !coreExists (coordOf k) || !x.watch.isEmpty).map fun (k, x) =>
      if (coordOf k).die = d ∧ coreExists (coordOf k) then (k, { watch := x.watch }) else (k, x)
    clusters := t.clusters.filter fun (k, _) => (coordOf k).die != d }

/-- The jobs with a record that a dead die still holds, since no die of its tier could take it (log 12). -/
def State.stranded (s : State) (d : Nat) : List Nat :=
  let x := s.dieAt d
  (x.queue ++ x.queueT3).map (·.job) ++ (coresOfDie d).flatMap fun c =>
    (s.coreAt c).deque.map (fun r => (s.queuedOf r).job) ++ (s.clusterAt c).queue.map (·.job)

/-- FORCED_OFFLINE (R93, R95, R426): the die's work is lost at once; a move under way ends; the pages of the cap and of the stack
that can be read move while destinations last, and every other page of the tower is poisoned. -/
def execForcedOffline (d : Nat) (left : Readable) (s : State) : Answer :=
  if 16 ≤ d || !s.dieLive d then .next s
  else
    let p := s.physical d
    let gone (a : Nat) : Bool := paKind a < 2 && bits a 43 40 == p
    let t := (s.jobsOn d).foldl State.loseJob (s.reportLost d)
    let t := (t.pkg.locks.filter fun l => gone l.old || gone l.new).foldl State.unlock t
    let t := (t.towerPages p).foldl (fun u m =>
      match if (if paKind m.frame = 1 then left.cap else left.stack) then u.evacuate d m else none with
      | some v => v
      | none => u.poisonPage m) (t.unmapDie d)
    let t := ((t.gatherRecords d).moveRecords d).moveUnits d
    let t := (t.stranded d).foldl State.loseJob t
    .next ((t.dropTraffic d gone).resetDie d).wakeAll

/-! ### Remapping a virtual die (R28, R439) -/

/-- A frame at the same place of another tower. -/
def otherTower (frame p : Nat) : Nat := frame - at_ 40 (bits frame 43 40) + at_ 40 p

/-- A page moved to the same place of the die's new tower, or, where a bus of that tower is retired, elsewhere (R87, R439). -/
def State.follow (s : State) (d p : Nat) (m : Mapped) : Option State :=
  let f := otherTower m.frame p
  if s.frameFree f m.shift then some (s.carryPage m f) else s.evacuate d m

/-- DIE_REMAP (R439): a drained die that holds no placed unit and no work outside its die queue is given a physical die of its
tier that is in service and that no virtual die names; resident accumulators go to their save areas, the pages move, and placement
resumes. -/
def execDieRemap (d phys : Nat) (s : State) : Answer :=
  let x := s.dieAt d
  let old := s.physical d
  if 16 ≤ d || 16 ≤ phys || (queuePlace phys).2 != (queuePlace d).2 || !s.dieLive d || !x.draining || !s.dieEmpty d || !s.gathered d ||
      s.towerLive phys || s.pkg.gone.contains phys || !s.pkg.locks.isEmpty then .next s
  else
    let t := s.unbindDie d
    let pages := t.towerPages old
    let t := t.setDie d { t.dieAt d with physical := some phys, draining := false, tlb := [] }
    match pages.foldlM (fun u m => u.follow d phys m) t with
    | some u => .next (u.resetDie d).wakeAll
    | none => .next s

/-! ### Fabric windows (R155, R156, R443, R444) -/

/-- An entry that may be installed (R443). -/
def windowValid (imp : Bool) (e : Nat) : Bool :=
  bit e 0 && bits e 47 45 == 0 && bits e 44 40 < 24 && bits e 39 20 != 0 && bits e 19 4 == 0 &&
  (imp || (paKind (bits e 127 64) == 0 && paValid (bits e 127 64) && bits e 127 112 == 0))

/-- The table of imported or exported windows. -/
def State.windows (s : State) (imp : Bool) : Sparse (BitVec 128) := if imp then s.pkg.imported else s.pkg.exported
def State.setWindow (s : State) (imp : Bool) (w : Nat) (e : BitVec 128) : State :=
  { s with pkg := if imp then { s.pkg with imported := put s.pkg.imported w e } else { s.pkg with exported := put s.pkg.exported w e } }

/-- Windows of a table. -/
def windowCount (imp : Bool) : Nat := if imp then 256 else 64

/-- WINDOW_IMPORT (R443): trusted firmware writes a valid entry; without its identity it joins no fabric (R447). -/
def execWindowImport (imp : Bool) (w : Nat) (e : BitVec 128) (s : State) : Answer :=
  stepIf s (6 ≤ s.pkg.bringUp && s.pkg.alarm == 0 && !s.pkg.identityErased && w < windowCount imp &&
      !bit (look 0 (s.windows imp) w).toNat 0 && windowValid imp e.toNat)
    (s.setWindow imp w e)

/-- WINDOW_WITHDRAW (R444, step 1). -/
def execWindowWithdraw (imp : Bool) (w : Nat) (s : State) : Answer :=
  let e := (look 0 (s.windows imp) w).toNat
  stepIf s (bit e 0) (s.setWindow imp w (BitVec.ofNat 128 (e - 1)))

/-- A physical address lies in an imported window (R43). -/
def inWindow (w pa : Nat) : Bool := paKind pa == 2 && bits pa 43 36 == w

/-- WINDOW_INVALIDATE (R444, steps 2 and 3): when the accesses accepted before have been answered. -/
def execWindowInvalidate (imp : Bool) (w : Nat) (s : State) : Answer :=
  let pages := s.pkg.pages.filter fun m => inWindow w m.frame
  stepIf s (!bit (look 0 (s.windows imp) w).toNat 0 && (!imp || !s.requestOut fun f => inWindow w f.addr))
    (if imp then pages.foldl State.invalidatePage s else s)

/-- A peer's operation as a request at the home agent: OP in the low four bits as in R101; the high four bits are the bytes of
a load or a store minus one, or the operation of an AMO (log 12). -/
def inboundRequest (pa : Nat) (op : BitVec 8) (data : BitVec 64) : Option (Nat × Payload) :=
  let h := bits op.toNat 7 4
  let ops : List AtomOp := [.add, .and, .or, .xor, .min, .max, .minu, .maxu, .swap, .faddF32, .faddBf16]
  match bits op.toNat 3 0 with
  | 0 => some (h % 8 + 1, .none)
  | 1 => some (h % 8 + 1, .bytes (leBytes (h % 8 + 1) data.toNat))
  | 4 => if h < 9 ∧ pa % 8 = 0 then some (8, .atom (nth .add ops h) 8 data) else none
  | 5 => if pa % 4 = 0 then some (4, .cas 4 (word (bits data.toNat 31 0)) (word (bits data.toNat 63 32))) else none
  | 6 =>
    let n := if h = 10 then 2 else 4
    if h < 11 ∧ pa % n = 0 then some (n, .atom (nth .add ops h) n data) else none
  | _ => none

/-- The page behind a frame permits host atomics (R155, R156). -/
def State.hostAtomics (s : State) (pa : Nat) : Bool :=
  s.pkg.pages.any fun m => overlap m.frame m.shift pa 0 && pteSystemAtomic (s.entryNow m)

/-- The answer given to a peer through exported window `win`, with its prefix (R441). -/
def State.answerPeer (s : State) (win peer : Nat) (a : Option (List Byte)) : State :=
  let port := fabricPort (bits (look 0 s.pkg.exported win).toNat 44 40)
  let f : Flight := match a with
    | some [] => { dst := port, src := port, op := 0x41 }
    | some l => { dst := port, src := port, op := 0x40, bc := l.length - 1, pay := .bytes l }
    | none => { dst := port, src := port, op := 0x43, pay := .reason 2 }
  { s with pkg := { s.pkg with answers := (peer, a) :: s.pkg.answers } }.prefixed (256 + win) (BitVec.ofNat 16 peer) f

/-- FABRIC_INBOUND_ACCESS (R443, R155, R156): refused with reason 2, or performed at its home agent. -/
def execFabricInboundAccess (peer win off : Nat) (op : BitVec 8) (data : BitVec 64) (s : State) : Answer :=
  let w := (look 0 s.pkg.exported win).toNat
  let pa := bits w 127 64 + off
  let no := s.answerPeer win peer none
  let atomic := 4 ≤ bits op.toNat 3 0
  if s.pkg.alarm ≠ 0 ∨ s.pkg.shutdown ∨ s.pkg.bringUp < 6 ∨ s.pkg.identityErased ∨ s.frameLocked pa then .next s
  else
    match inboundRequest pa op data with
    | none => .next no
    | some (n, pay) =>
      if !bit w 0 || peer != bits w 63 48 || 65536 * bits w 39 20 < off + n || !paValid pa || paKind pa != 0 ||
          (bits op.toNat 3 0 != 0 && !bit w 2) || (atomic && !(bit w 3 && s.hostAtomics pa)) then .next no
      else if s.poisonedAt pa n then .next no
      else
        match s.serve (s.endpointOf pa) pa (bits op.toNat 3 0) n pay
          { dst := fabricPort (bits w 44 40), src := fabricPort (bits w 44 40), op := 0 } with
        | (t, .bytes l) => .next (t.answerPeer win peer (some l))
        | (t, .ack) => .next (t.answerPeer win peer (some []))
        | (t, _) => .next (t.answerPeer win peer none)

/-! ### Alarms, heat, bring-up (R447, R451-R453) -/

/-- Every live job is lost, and nothing of it goes on. -/
def State.loseAll (s : State) : State :=
  (s.jobs.filter fun (_, j) => j.live).foldl (fun t (n, _) =>
    (((t.loseJob n).removeThreads n).removeEngineJobs n).removeRecords n) s

/-- The keys of DRAM are erased: its data remains, and can no longer be read in clear (R447). -/
def State.eraseKeys (s : State) : State :=
  { s with keys := s.keys + 1, tags := s.tags.filter fun g => 2 ^ 44 ≤ 16 * g, pkg := { s.pkg with keysErased := true } }

/-- An alarm of a level (R447): keys are erased, and at level 2 the identity too; every job is lost, and the device takes no command
until the next bring-up. -/
def State.raiseAlarm (s : State) (lvl : Nat) : State :=
  let t := s.loseAll.eraseKeys
  { t with pkg := { t.pkg with alarm := max t.pkg.alarm lvl, identityErased := t.pkg.identityErased || lvl == 2, commands := [] } }

/-- SECURITY_ALARM (R447). -/
def execSecurityAlarm (lvl : Nat) (s : State) : Answer := stepIf s (lvl == 1 || lvl == 2) (s.raiseAlarm lvl)

/-- The module from its reset, with what outlives it: the DRAM stacks, the retired buses and stair links of the configuration
image, the identity, and what firmware and the host have been told (R11, R87, R447, R448). -/
def State.restart (s : State) : State :=
  let buses := (s.pkg.buses.filter fun (_, b) => b.retired).map fun (k, _) => (k, ({ retired := true } : Bus))
  let cores := (s.cores.filter fun (_, x) => !x.eng.stairRetired.isEmpty).map fun (k, x) =>
    (k, ({ eng := { stairRetired := x.eng.stairRetired } } : Core))
  { State.reset with
    agenda := s.agenda, core := s.core, slot := s.slot, free := s.free, keys := s.keys, cores
    mem := s.mem.filter fun c => c.1 < 2 ^ 44 || Config.peerBase ≤ c.1
    pkg := { bringUp := 1, records := s.pkg.records, hostMessages := s.pkg.hostMessages, identityErased := s.pkg.identityErased
             cut := s.pkg.cut, buses, lasting := s.pkg.lasting, capacity := s.pkg.capacity,
               nextJob := s.pkg.nextJob, nextCounter := s.pkg.nextCounter, sideband := s.pkg.sideband
             testMode := s.pkg.testMode } }

/-- The module takes up its fabric identity, a free value (log 9), unless it is erased (R447, R451). -/
def State.takeIdentity (s : State) : State :=
  let (x, u) := s.freeNat 2
  if s.pkg.identityErased then s else { u with pkg := { u.pkg with identity := some (BitVec.ofNat 16 x) } }

/-- The module is provisioned again: it has an identity, and joins the fabric, at once when bring-up has come past that step (R447,
R451). -/
def State.provision (s : State) : State :=
  let t := { s with pkg := { s.pkg with identityErased := false } }
  if s.pkg.identityErased && 6 ≤ s.pkg.bringUp then t.takeIdentity else t

/-- No job is left to report. -/
def State.noJobs (s : State) : Bool := s.jobs.all fun (_, j) => !j.live

/-- BRING_UP (R451): the next of the seven steps; step 4 installs the routing tree that firmware has computed (R108), and step 6
takes up the fabric identity. After an alarm or a shutdown the module begins again, once every lost job has been reported (R447).
-/
def execBringUp (s : State) : Answer :=
  if s.pkg.alarm ≠ 0 ∨ s.pkg.shutdown then stepIf s s.noJobs s.restart
  else
    let n := s.pkg.bringUp
    let t := { s with pkg := { s.pkg with bringUp := n + 1 } }
    match n with
    | 3 => stepIf s (s.spans s.newTree)
      { t with pkg := { t.pkg with tree := s.newTree, nextTree := none, routed := s.pkg.cut, installs := t.pkg.installs + 1 } }
    | 5 => .next t.takeIdentity
    | _ => stepIf s (n < 7) t

/-- THERMAL_THROTTLE (R452): an island's clock goes down by 1/16 of its nominal clock. -/
def execThermalThrottle (island : Nat) (s : State) : Answer :=
  let n := look 0 s.pkg.throttle island
  stepIf s (island < 284 && n < 15) { s with pkg := { s.pkg with
    throttle := put s.pkg.throttle island (n + 1), slowed := (island, s.ts.toNat, n + 1) :: s.pkg.slowed } }

/-- THERMAL_SHUTDOWN (R452): the module stops and every job is lost. -/
def execThermalShutdown (s : State) : Answer :=
  let t := s.loseAll
  .next { t with pkg := { t.pkg with shutdown := true } }

/-- MCTP_REQUEST (R453): general firmware answers a telemetry request, once bring-up has started it (R451), and trusted firmware
an attestation request, refusing it when the identity is erased (R447); a module that has stopped answers neither (R452). -/
def execMctpRequest (attest : Bool) (s : State) : Answer :=
  stepIf s (!s.pkg.shutdown && (if attest then 1 else 7) ≤ s.pkg.bringUp)
    { s with pkg := { s.pkg with sideband := (!attest || !s.pkg.identityErased) :: s.pkg.sideband } }

/-! ### The control space (R127, R232) -/

/-- LPQ_REMOVE_HEAD (R127). -/
def execLpqRemoveHead (c : Coord) (s : State) : Answer := .next (s.modMsg c fun m => lpqWrite m (word (2 ^ 63)))

/-- LPQ_CLEAR_CNT (R127). -/
def execLpqClearCnt (c : Coord) (s : State) : Answer := .next (s.modMsg c fun m => lpqWrite m (word (2 ^ 62)))

/-- RUN_CONTROL_RESUME (R232). -/
def execRunControlResume (c : Coord) (s : State) : Answer := .next (s.resumeCore c)

/-! ### Moves (log 33) -/

/-- A move of the mesh; where nothing can move, nothing happens (log 11). -/
def State.move (s : State) : Move → State
  | .hop n k => (s.hop n k).getD s
  | .receive n k => (s.receiveFlit n k).getD s
  | .acknowledge u v => s.ackBridge u v
  | .resend u v => s.resendBridge u v
  | .receiveAgain u v => (s.receiveAgain u v).getD s
  | .fabricAck n => { s with pkg := { s.pkg with unacknowledged := dropFirst (·.1 == n) s.pkg.unacknowledged } }
  | .enqueue n => (s.enqueue n).getD s
  | .inject c => (s.inject c).getD s
  | .answerShoot d => s.answerShoots d
  | .computeTree tree => s.computeTree tree
  | .unitError kind place idx => s.unitError kind place idx
  | .poolRequest c client reads writes =>
    if client < 7 && (reads.isEmpty || writes.isEmpty) then s.askPool c { client, reads, updates := rowUpdates writes } else s
  | .porterPiece cl n k => s.porterPiece cl n k
  | .provision => s.provision
  | .testImage on => if s.pkg.bringUp < 3 then { s with pkg := { s.pkg with testMode := on } } else s
  | .testAccess => if s.pkg.testMode then s else s.raiseAlarm 1
  | .upset c w double => if coreExists c && w < 2 ^ 20 then s.upset c w double else s

end Sys2Proof.Machine
end

