-- ==== Sys2Proof/Machine/Neighbour.lean ====
section
/-! DEFINITION. Sys2Proof/Machine/Neighbour.lean: the neighbour search (R345-R349). -/

namespace Sys2Proof.Machine

/-- The key of no cell. -/
def noKey : Nat := 0xFFFFFFFF

/-- RN32 of an exact result (R345): IEEE 754 binary32, nearest even; its flags are not raised. -/
def rn32 (x : Num × Nat) : Num := decodeNum 1 (roundIeee 1 0 x.1).1

/-- Lane `i` of a value, as a number and as F32. -/
def laneNat (x i : Nat) : Nat := elem 32 x i
def laneFp (x i : Nat) : Num := decodeNum 1 (elem 32 x i)

/-- ⌊t⌋ clamped to 0 … cnt - 1; infinities clamp (R345). -/
def clampCell (cnt : Nat) (t : Num) : Int :=
  match t with
  | .fin neg man exp =>
    let i : Int := if man = 0 then 0 else if neg then 0 else if 40 ≤ exp then 2 ^ 40 else if 0 ≤ exp then man * 2 ^ exp.toNat else man / 2 ^ (-exp).toNat
    min ((cnt : Int) - 1) (max 0 i)
  | .inf neg => if neg then 0 else (cnt : Int) - 1
  | .nan _ => 0

/-- The offset of neighbour index `o` on an axis (R345). -/
def axisOffset (o axis : Nat) : Int := (o / 3 ^ axis % 3 : Nat) - (1 : Int)

/-- The cell of a position on one axis: `none` outside the grid or for a NaN (R345). -/
def cellOf (pos org inv : Num) (cnt o axis : Nat) : Option Nat :=
  let t := rn32 ((rn32 (pos.add 0 org.neg)).mul inv)
  if t.isNaN then none
  else
    let c := clampCell cnt t + axisOffset o axis
    if c < 0 ∨ (cnt : Int) ≤ c then none else some c.toNat

/-- A parameter error on an axis: a count outside 1-1,024, or an inverse width that is not finite and positive. -/
def axisBad (params axis : Nat) : Bool :=
  let cnt := laneNat params (6 + axis)
  cnt < 1 || 1024 < cnt || match laneFp params (3 + axis) with
    | .fin neg man _ => neg || man == 0
    | _ => true

/-- The linear key of cells (R345). -/
def linearKey (cnt cells : List Nat) : Nat :=
  nth 0 cells 0 + nth 1 cnt 0 * (nth 0 cells 1 + nth 1 cnt 1 * nth 0 cells 2)

/-- The interleaved key: key bit dim·i + a is bit i of c[a] (R345). -/
def zOrderKey (dim : Nat) (cells : List Nat) : Nat :=
  joinBits 1 ((List.range (dim * 10)).map fun k => bits (nth 0 cells (k % dim)) (k / dim) (k / dim))

/-- All values of a list of options, when there is none missing. -/
def allSome {α : Type} : List (Option α) → Option (List α)
  | [] => some []
  | none :: _ => none
  | some x :: r => (allSome r).map (x :: ·)

/-- The key of element `e` (R345), from the position registers and the parameters. -/
def gridKey (dim o : Nat) (zOrder : Bool) (pos : List Nat) (params e : Nat) : Nat :=
  let cell (a : Nat) : Option Nat :=
    cellOf (laneFp (nth 0 pos a) e) (laneFp params a) (laneFp params (3 + a)) (laneNat params (6 + a)) o a
  match allSome ((List.range dim).map cell) with
  | none => noKey
  | some c => if zOrder then zOrderKey dim c else linearKey ((List.range dim).map fun a => laneNat params (6 + a)) c

/-- The registers of a group, each across the gang. -/
def State.group (t : State) (r n : Nat) : List Nat := (List.range n).map fun i => t.vec (r + i)

/-- VKEY (R345). -/
def execVkey (f : SForm) (s : State) : Answer :=
  vecOp (.vkey f) noPre (fun t x =>
    let dim := f.md.toNat % 4
    let bad := (List.range dim).any (axisBad x.b)
    let pos := t.group f.va.toNat 3
    x.done t (x.map fun e => if bad then noKey else gridKey dim (f.fs.toNat % 32) (f.md.getLsbD 2) pos x.b e)
      (if bad && !x.actives.isEmpty then fNV else 0)) s

/-- The bucket of a key (R346). -/
def hashOf (m k : Nat) : Nat := if k = noKey then noKey else k * 0x6A5D39E9 % 2 ^ 32 / 2 ^ (32 - m)

/-- VHASH (R346). -/
def execVhash (f : SForm) (s : State) : Answer :=
  elementOp (.vhash f) (fun _ _ a _ _ => (hashOf (f.fs.toNat % 32) a, 0)) s

/-- VBIN (R347): rank among the lower equal keys, and whether no higher key is equal. -/
def execVbin (f : SForm) (s : State) : Answer :=
  vecOp (.vbin f) noPre (fun t x =>
    let same (e : Nat) : List Nat := x.actives.filter fun i => elem 32 x.a i == elem 32 x.a e
    let k := x.test x.c fun e => !(same e).any fun i => e < i
    .done t (some (x.producer [(f.vd.toNat, x.map fun e => ((same e).filter fun i => i < e).length)] []
      [(f.vc.toNat, k)]))) s

/-- d of R348 on the axes of element `e`, from query and candidate registers. -/
def pairDistance (dim : Nat) (query cand : List Nat) (e : Nat) : Num :=
  (List.range dim).foldl (fun d a =>
    let x := rn32 ((laneFp (nth 0 query a) e).add 0 (laneFp (nth 0 cand a) e).neg)
    if a = 0 then rn32 (x.mul x) else rn32 (Num.fma 0 x x d)) (.fin false 0 0)

/-- VPAIR (R348): the candidates in va, the queries in vb, the cutoff squared in gc. -/
def execVpair (f : SForm) (s : State) : Answer :=
  vecRun f (specPair f) pairReach noPre (fun t x =>
    let cand := t.group f.va.toNat 4
    let query := t.group f.vb.toNat 4
    let r2 := decodeNum 1 (bits (t.ga f.vc).toNat 31 0)
    let near (e : Nat) : Bool :=
      let d := pairDistance (f.md.toNat % 4) query cand e
      (d.lt r2 || d.eqv r2) && !(f.md.getLsbD 2 && laneNat (nth 0 query 3) e == laneNat (nth 0 cand 3) e)
    .done t (some (x.producer [] [] [(f.vd.toNat, x.test x.d near)]))) s

end Sys2Proof.Machine
end

