-- ==== Sys2Proof/Machine/Special.lean ====
section
/-! DEFINITION. Sys2Proof/Machine/Special.lean: the correctly rounded special functions (R344). A reciprocal and a root are exact up to a sticky bit; a transcendental value is enclosed between two fixed-point numbers that are refined until both round to the same code with the same flags. No dyadic operand but those of the table and those named here has a value on a rounding boundary, so that the refinement decides. -/

namespace Sys2Proof.Machine

/-- An enclosure: a real number lies between lo × 2^(-p) and hi × 2^(-p). -/
structure Enclosure where
  p : Nat
  lo : Int
  hi : Int
deriving DecidableEq, Repr

/-- ⌊a / b⌋ and ⌈a / b⌉ of integers. -/
def floorDiv (a b : Int) : Int := a.fdiv b
def ceilDivI (a b : Int) : Int := -((-a).fdiv b)

/-- A multiple of 2^(-p) as a value. -/
def fixedNum (p : Nat) (i : Int) : Num := Num.ofInt i (-(p : Int)) false

/-- The code and the flags on which both ends of an enclosure agree, both rounded to nearest even. -/
def Enclosure.decide (t : Nat) (x : Enclosure) : Option (Nat × Nat) :=
  let l := roundIeee t 0 (fixedNum x.p x.lo)
  let h := roundIeee t 0 (fixedNum x.p x.hi)
  if l = h ∧ (0 < x.lo ∨ x.hi < 0) then some l else none

/-- The first decided enclosure of a list. -/
def firstDecided (t : Nat) (f : Nat → Enclosure) : List Nat → Nat × Nat
  | [] => roundIeee t 0 (fixedNum 0 0)
  | p :: r =>
    match (f p).decide t with
    | some x => x
    | none => firstDecided t f r

/-- The precisions tried. -/
def precisions : List Nat := [96, 192, 384, 768, 1536]

def Enclosure.neg (x : Enclosure) : Enclosure := { x with lo := -x.hi, hi := -x.lo }

/-! ### Series in fixed point: every term is rounded down, and the errors are bounded by the number of terms -/

/-- The terms z^k / k! of steps k, k + 1, …, from `term` on, while they are not zero: even-numbered and odd-numbered
sums. -/
def powerTerms (p z : Nat) : Nat → Nat → Nat → Nat × Nat
  | 0, _, _ => (0, 0)
  | n + 1, k, term =>
    if term = 0 then (0, 0)
    else
      let (e, o) := powerTerms p z n (k + 1) (term * z / (2 ^ p * (k + 1)))
      (term + o, e)

/-- e^z for 0 ≤ z < 2 (as z × 2^(-p)): its sum and an error bound. -/
def expSum (p z : Nat) : Nat :=
  let (e, o) := powerTerms p z (2 * p) 0 (2 ^ p)
  e + o

def seriesError (p : Nat) : Nat := 8 * p + 16

/-- Σ z^(2i+1) / (2i+1) with z² given, or its alternating form: the sums of even-numbered and of odd-numbered terms. -/
def oddTerms (p zz : Nat) : Nat → Nat → Nat → Nat × Nat
  | 0, _, _ => (0, 0)
  | n + 1, i, power =>
    if power = 0 then (0, 0)
    else
      let (e, o) := oddTerms p zz n (i + 1) (power * zz / 2 ^ p)
      (power / (2 * i + 1) + o, e)

/-- ln 2 = 2 atanh(1/3). -/
def ln2 (p : Nat) : Enclosure :=
  let z := 2 ^ p / 3
  let (e, o) := oddTerms p (2 ^ p / 9) (2 * p) 0 z
  { p, lo := 2 * (e + o), hi := 2 * (e + o) + seriesError p }

/-- atan(1/q). -/
def atanInv (p q : Nat) : Enclosure :=
  let (e, o) := oddTerms p (2 ^ p / (q * q)) (2 * p) 0 (2 ^ p / q)
  { p, lo := (e : Int) - o - seriesError p, hi := (e : Int) - o + seriesError p }

/-- π = 16 atan(1/5) - 4 atan(1/239). -/
def piOf (p : Nat) : Enclosure :=
  let a := atanInv p 5
  let b := atanInv p 239
  { p, lo := 16 * a.lo - 4 * b.hi, hi := 16 * a.hi - 4 * b.lo }

/-- man × 2^exp at precision p, rounded down and up. -/
def fixedOf (p man : Nat) (exp : Int) : Int × Int :=
  let e := exp + p
  if 0 ≤ e then ((man : Int) * 2 ^ e.toNat, (man : Int) * 2 ^ e.toNat)
  else (floorDiv man (2 ^ (-e).toNat), ceilDivI man (2 ^ (-e).toNat))

/-- e^z for a real z between zlo and zhi, 0 ≤ z < 2. -/
def expBetween (p : Nat) (zlo zhi : Int) : Int × Int := (expSum p zlo.toNat, expSum p zhi.toNat + seriesError p)

/-- y = j × ln 2 + r with 0 ≤ r: j, and bounds of r (a negative lower bound leaves the case open). -/
def byLn2 (p : Nat) (ylo yhi : Int) : Int × Int × Int :=
  let l := ln2 p
  let j := floorDiv ylo l.hi
  (j, ylo - j * l.hi, yhi - j * l.lo)

/-- An enclosure that decides nothing. -/
def openEnclosure (p : Nat) : Enclosure := { p, lo := -1, hi := 1 }

/-- 2^x for x = n + man × 2^exp with n an integer and 0 < man × 2^exp < 1. -/
def exp2Of (man : Nat) (exp : Int) (p : Nat) : Enclosure :=
  let l := ln2 p
  let d := 2 ^ (-exp).toNat
  let (lo, hi) := expBetween p (floorDiv (man * l.lo) d) (ceilDivI (man * l.hi) d)
  { p, lo, hi }

/-- ln m for m = man / 2^k in [1, 2): 2 atanh((m - 1)/(m + 1)). -/
def lnOf (p man k : Nat) : Int × Int :=
  let num := man - 2 ^ k
  let den := man + 2 ^ k
  let z := num * 2 ^ p / den
  let up := z + 1
  let sum (z : Nat) : Nat := let (e, o) := oddTerms p (z * z / 2 ^ p) (2 * p) 0 z; e + o
  (2 * sum z, 2 * sum up + seriesError p)

/-- log2 x for x = man × 2^exp that is no power of two. -/
def log2Of (man : Nat) (exp : Int) (p : Nat) : Enclosure :=
  let k := bitLength man - 1
  let (lo, hi) := lnOf p man k
  let l := ln2 p
  let whole := (exp + (k : Int)) * 2 ^ p
  { p, lo := whole + floorDiv (lo * 2 ^ p) l.hi, hi := whole + ceilDivI (hi * 2 ^ p) l.lo }

/-- The terms z^k / k! of steps k, k + 1, …, with the signs they have in sin (odd k) and cos (even k). -/
def circularTerms (p z : Nat) : Nat → Nat → Nat → Int × Int
  | 0, _, _ => (0, 0)
  | n + 1, k, term =>
    if term = 0 then (0, 0)
    else
      let (s, c) := circularTerms p z n (k + 1) (term * z / (2 ^ p * (k + 1)))
      let x : Int := if k % 4 < 2 then term else -(term : Int)
      if k % 2 = 0 then (s, c + x) else (s + x, c)

/-- sin z and cos z for 0 ≤ z < 2. -/
def sinCosSum (p z : Nat) : Int × Int := circularTerms p z (2 * p) 0 (2 ^ p)

/-- sin x, or cos x, for x = man × 2^exp > 0. -/
def sinCosOf (cosine : Bool) (man : Nat) (exp : Int) (p : Nat) : Enclosure :=
  let q := p + 160
  let pi := piOf q
  let (xlo, xhi) := fixedOf q man exp
  let k := floorDiv (2 * xlo) pi.hi
  let rlo := floorDiv (2 * xlo - k * pi.hi) 2
  let rhi := ceilDivI (2 * xhi - k * pi.lo) 2
  let err : Int := seriesError q
  let (slo, chi) := sinCosSum q rlo.toNat
  let (shi, clo) := sinCosSum q rhi.toNat
  let sin : Enclosure := { p := q, lo := slo - err, hi := shi + err }
  let cos : Enclosure := { p := q, lo := clo - err, hi := chi + err }
  if rlo < 0 then openEnclosure q
  else
    match ((k + if cosine then 1 else 0) % 4).toNat with
    | 0 => sin
    | 1 => cos
    | 2 => sin.neg
    | _ => cos.neg

/-- tanh x for 0 < x < 64: (F - 1)/(F + 1) with F = e^(2x). -/
def tanhOf (man : Nat) (exp : Int) (p : Nat) : Enclosure :=
  let (ylo, yhi) := fixedOf p man (exp + 1)
  let (j, rlo, rhi) := byLn2 p ylo yhi
  if rlo < 0 then openEnclosure p
  else
    let (flo, fhi) := expBetween p rlo rhi
    let one : Int := 2 ^ p
    let flo := flo * 2 ^ j.toNat
    let fhi := fhi * 2 ^ j.toNat
    { p, lo := floorDiv ((flo - one) * one) (flo + one), hi := ceilDivI ((fhi - one) * one) (fhi + one) }

/-! ### The functions on exact values -/

/-- 1/x with a sticky bit. -/
def numRcp (x : Num) : Num × Nat := (Num.fin false 1 0).div x

/-- 1/√x with a sticky bit, for x = man × 2^exp > 0. -/
def numRsq (man : Nat) (exp : Int) : Num :=
  let odd := exp % 2 != 0
  let m := if odd then 2 * man else man
  let e := if odd then exp - 1 else exp
  let k := 2 * (stickyBits + bitLength m)
  let q := isqrt (2 ^ k / m)
  .fin false (2 * q + if q * q * m = 2 ^ k then 0 else 1) (-(e / 2) - (k / 2 : Nat) - 1)

/-- A function of R344 on codes of type t: what a NaN gives, then the function's own rule. -/
def specialOn (t : Nat) (f : Num → Nat × Nat) (a : Nat) : Nat × Nat :=
  let x := decodeNum t a
  if x.isNaN then (canonicalNaN t, signallingFlag x) else f x

def invalid (t : Nat) : Nat × Nat := (canonicalNaN t, fNV)

def fnRcp (t : Nat) (x : Num) : Nat × Nat := finish t 0 (numRcp x)

def fnRsq (t : Nat) (x : Num) : Nat × Nat :=
  match x with
  | .fin neg man exp =>
    if man = 0 then finish t 0 (.inf neg, fDZ) else if neg then invalid t else roundIeee t 0 (numRsq man exp)
  | .inf neg => if neg then invalid t else roundIeee t 0 (.fin false 0 0)
  | .nan _ => invalid t

/-- The integer part and the fraction, as a mantissa at the same exponent, of ±man × 2^exp. -/
def splitValue (neg : Bool) (man : Nat) (exp : Int) : Int × Nat :=
  if 0 ≤ exp then (scaled neg man (min exp 40) 0, 0)
  else
    let d : Int := 2 ^ (-exp).toNat
    let m : Int := if neg then -(man : Int) else man
    (floorDiv m d, (m - floorDiv m d * d).toNat)

/-- An exponent beyond which every format overflows, or underflows to the same result. -/
def clampExp (i : Int) : Int := max (-5000) (min 5000 i)

def fnExp2 (t : Nat) (x : Num) : Nat × Nat :=
  match x with
  | .fin neg man exp =>
    let (i, fr) := splitValue neg man exp
    let k := clampExp i
    if fr = 0 then roundIeee t 0 (.fin false 1 k)
    else
      -- the enclosure of 2^fraction, moved by k at the rounding
      let at2 (p : Nat) : Option (Nat × Nat) :=
        let e := exp2Of fr exp p
        let l := roundIeee t 0 ((fixedNum p e.lo).scale k)
        let h := roundIeee t 0 ((fixedNum p e.hi).scale k)
        if l = h then some l else none
      (precisions.findSome? at2).getD (roundIeee t 0 (.fin false 1 k))
  | .inf neg => roundIeee t 0 (if neg then .fin false 0 0 else .inf false)
  | .nan _ => invalid t

def fnLog2 (t : Nat) (x : Num) : Nat × Nat :=
  match x with
  | .fin neg man exp =>
    if man = 0 then finish t 0 (.inf true, fDZ)
    else if neg then invalid t
    else
      let k := bitLength man - 1
      if man = 2 ^ k then roundIeee t 0 (Num.ofInt (exp + (k : Int)) 0 false)
      else firstDecided t (log2Of man exp) precisions
  | .inf neg => if neg then invalid t else roundIeee t 0 (.inf false)
  | .nan _ => invalid t

def fnSin (t : Nat) (x : Num) : Nat × Nat :=
  match x with
  | .fin neg man exp =>
    if man = 0 then roundIeee t 0 (.fin neg 0 0)
    else firstDecided t (fun p => if neg then (sinCosOf false man exp p).neg else sinCosOf false man exp p) precisions
  | _ => invalid t

def fnCos (t : Nat) (x : Num) : Nat × Nat :=
  match x with
  | .fin _ man exp =>
    if man = 0 then roundIeee t 0 (.fin false 1 0) else firstDecided t (sinCosOf true man exp) precisions
  | _ => invalid t

/-- A magnitude below 1 that every format rounds to 1, inexactly: tanh of any magnitude from 64 on lies as close. -/
def nearlyOne (neg : Bool) : Num := .fin neg (2 ^ 100 - 1) (-100)

def fnTanh (t : Nat) (x : Num) : Nat × Nat :=
  match x with
  | .fin neg man exp =>
    if man = 0 then roundIeee t 0 (.fin neg 0 0)
    else if !x.abs.magLt (.fin false 64 0) then roundIeee t 0 (nearlyOne neg)
    else firstDecided t (fun p => if neg then (tanhOf man exp p).neg else tanhOf man exp p) precisions
  | .inf neg => roundIeee t 0 (.fin neg 1 0)
  | .nan _ => invalid t

/-- A special function of every active element. -/
def specialOp (i : Instr) (f : Nat → Num → Nat × Nat) (s : State) : Answer :=
  elementOp i (fun t _ a _ _ => specialOn t (f t) a) s

/-- VRCP (R344). -/
def execVrcp (f : SForm) (s : State) : Answer := specialOp (.vrcp f) fnRcp s

/-- VRSQ (R344). -/
def execVrsq (f : SForm) (s : State) : Answer := specialOp (.vrsq f) fnRsq s

/-- VEXP2 (R344). -/
def execVexp2 (f : SForm) (s : State) : Answer := specialOp (.vexp2 f) fnExp2 s

/-- VLOG2 (R344). -/
def execVlog2 (f : SForm) (s : State) : Answer := specialOp (.vlog2 f) fnLog2 s

/-- VSIN (R344). -/
def execVsin (f : SForm) (s : State) : Answer := specialOp (.vsin f) fnSin s

/-- VCOS (R344). -/
def execVcos (f : SForm) (s : State) : Answer := specialOp (.vcos f) fnCos s

/-- VTANH (R344). -/
def execVtanh (f : SForm) (s : State) : Answer := specialOp (.vtanh f) fnTanh s

end Sys2Proof.Machine
end

