-- ==== Sys2Proof/Machine/Sync.lean ====
section
/-! DEFINITION. Sys2Proof/Machine/Sync.lean: barrier, event and notice-board instructions (R307, R310-R312, R315, R318, R319). -/

namespace Sys2Proof.Machine

/-! ### Barriers (R310) -/

/-- What an access to a barrier object or a board needs (R310, R318). -/
def objectNeed : Need := { l := true, s := true, a := true, align := 64, poolOrColumn := true }

/-- The same for a board, whose operations also need its home core's die (R154). -/
def boardNeed : Need := { objectNeed with board := true }

/-- An operation on the barrier object at g[a] (R310). -/
def State.barrier (t : State) (a : GReg) (op : BarOp) (fin : Completion) (st : SlotState) (w : Await) : Ret :=
  t.access 4 (t.g a) objectNeed (.barrier op t.sl.mem.unit) fin (partsOf t.core (t.ga a).toNat 192 0) st w

/-- A barrier instruction of a member of no unit raises illegal operand: a handler or a wayfarer (R310). -/
def noMember (t : State) : Bool := t.inHandler || t.sl.wayfarer

/-- BARINIT (R310, R311). -/
def execBarinit (a b : GReg) (s : State) : Answer :=
  issuePre s 4 (usesG [] [a, b])
    (fun t => if noMember t || (t.ga b).toNat = 0 || 512 < (t.ga b).toNat then some 0x02 else none) fun t =>
    t.barrier a (.init (t.ga b).toNat) .silent .stalled .none

/-- BARARR and BARDROP (R311). -/
def arriveOp (drop : Bool) (d a b : GReg) (s : State) : Answer :=
  issuePre s 4 (usesG [d] [a, b]) (fun t => if noMember t then some 0x02 else none) fun t =>
    t.barrier a (.arrive (t.ga b).toNat drop) (.phase d) .stalled .none

/-- BARARR (R311). -/
def execBararr (d a b : GReg) (s : State) : Answer := arriveOp false d a b s

/-- BARDROP (R311). -/
def execBardrop (d a b : GReg) (s : State) : Answer := arriveOp true d a b s

/-- BARWAIT (R312): the thread is Waiting until the home answers; handler wait in the handler slot. -/
def execBarwait (d a b : GReg) (s : State) : Answer :=
  issuePre s 4 (usesG [d] [a, b]) (fun t => if t.sl.wayfarer then some 0x02 else none) fun t =>
    if t.inHandler then .trap t 0x0E 0
    else t.barrier a (.wait (t.ga b).toNat) (.barWait d) .waiting .barrier

/-- BAREXP (R311). -/
def execBarexp (a b : GReg) (s : State) : Answer :=
  issuePre s 4 (usesG [] [a, b]) (fun t => if noMember t || 2 ^ 32 ≤ (t.ga b).toNat then some 0x02 else none) fun t =>
    t.barrier a (.expect (t.ga b).toNat) .silent .stalled .none

/-! ### Named events (R315) -/

/-- An EVENT message to the home of the named event, and the wait for its answer (R315). -/
def State.eventAsk (t : State) (name : Nat) (op : EventOp) (fin : Completion) (st : SlotState) (w : Await) : Ret :=
  if !t.job.events.contains name then trapFree t 0x07
  else if !t.dieLive (name / 4096) then trapFree t 0x10
  else
    match freeTag t.cr.msg with
    | none => .stay (t.awaiting .stalled .room)
    | some tag =>
      let f : Flight := { dst := dieScheduler (name / 4096), src := t.core, op := 0xC1, rq := true, slot := t.slot
                          gen := t.sl.gen, tag, pay := .event op name, via := t.via }
      if t.sendRoom false then
        let u := t.modCr fun x => { x with msg := { x.msg with tags := tag :: x.msg.tags } }
        let p : Pending := { pieces := [{ tag, addr := 0, runs := [(0, 0, 8)] }], len := 4, fin }
        .stay ((u.modSl fun x => { x with st, await := w, pend := some p }).post f)
      else if t.inHandler then .trap t 0x0D (word f.dst.toNat)
      else .stay (t.awaiting .stalled .room)

/-- An event name has bits [63:16] zero (R307, R315). -/
def eventCheck (a : GReg) (t : State) : Option Nat := if 2 ^ 16 ≤ (t.ga a).toNat then some 0x02 else none

/-- EVSIG (R315): it retires once the home has performed it. -/
def execEvsig (a : GReg) (s : State) : Answer :=
  issuePre s 4 (usesG [] [a]) (eventCheck a) fun t => t.eventAsk (t.ga a).toNat .sig .silent .stalled .none

/-- EVWAIT (R315, R316): handler wait in the handler slot. -/
def execEvwait (d a : GReg) (s : State) : Answer :=
  issuePre s 4 (usesG [d] [a]) (eventCheck a) fun t =>
    if t.inHandler then .trap t 0x0E 0
    else t.eventAsk (t.ga a).toNat .wait (.word d) .waiting (.event (t.ga a).toNat)

/-- EVCLR (R315). -/
def execEvclr (a : GReg) (s : State) : Answer :=
  issuePre s 4 (usesG [] [a]) (eventCheck a) fun t => t.eventAsk (t.ga a).toNat .clr .silent .stalled .none

/-- EVQRY (R315). -/
def execEvqry (d a : GReg) (s : State) : Answer :=
  issuePre s 4 (usesG [d] [a]) (eventCheck a) fun t => t.eventAsk (t.ga a).toNat .qry (.word d) .stalled .none

/-! ### Notice boards (R318, R319) -/

/-- An operation on the board at g[a] (R318). The issuer is the leader's core (R319). -/
def State.board (t : State) (a : GReg) (op : BoardOp) (fin : Completion) : Ret :=
  t.access 4 (t.g a) boardNeed (.board op t.core) fin (partsOf t.core (t.ga a).toNat 5248 0)

/-- A slot index has bits [63:9] zero (R307, R318). -/
def slotIndexCheck (r : GReg) (t : State) : Option Nat := if 512 ≤ (t.ga r).toNat then some 0x02 else none

/-- BRDINIT (R318, R319). -/
def execBrdinit (a b : GReg) (s : State) : Answer :=
  issuePre s 4 (usesG [] [a, b]) (fun t =>
      let x := (t.ga b).toNat
      if bits x 63 26 != 0 || bits x 25 16 == 0 || 512 < bits x 25 16 then some 0x02 else none) fun t =>
    t.board a (.init (bits (t.ga b).toNat 15 0) (bits (t.ga b).toNat 25 16)) .silent

/-- POSTV (R318, R319). -/
def execPostv (d a b : GReg) (v : BitVec 2) (s : State) : Answer :=
  issuePre s 4 { usesG [] [d, a, b] with ownOnly := true } (slotIndexCheck d) fun t =>
    t.board a (.post (t.ga d).toNat (t.ga b)) (.view v.toNat none)

/-- BRDREAD (R318, R319). -/
def execBrdread (d a b : GReg) (v : BitVec 2) (s : State) : Answer :=
  issuePre s 4 { usesG [d] [a, b] with ownOnly := true } (slotIndexCheck b) fun t =>
    t.board a (.read (t.ga b).toNat) (.view v.toNat (some d))

/-- BRDCLR (R318, R319). -/
def execBrdclr (a : GReg) (s : State) : Answer :=
  issue s 4 (usesG [] [a]) fun t => t.board a .clear .silent

end Sys2Proof.Machine
end

