-- ==== Sys2Proof/Machine/Dispatch.lean ====
section
/-! DEFINITION. Sys2Proof/Machine/Dispatch.lean: one arm per constructor of `Instr`, each a direct call of its meaning. -/

namespace Sys2Proof.Machine

/-- The meaning of an instruction or of a step of another agent. -/
def exec (i : Instr) (s : State) : Host.Outcome State Fault Refusal :=
  match i with
  | .add d a b w => Sys2Proof.Machine.execAdd d a b w s
  | .sub d a b w => Sys2Proof.Machine.execSub d a b w s
  | .mul d a b w => Sys2Proof.Machine.execMul d a b w s
  | .mulh d a b w => Sys2Proof.Machine.execMulh d a b w s
  | .mulhu d a b w => Sys2Proof.Machine.execMulhu d a b w s
  | .div d a b w => Sys2Proof.Machine.execDiv d a b w s
  | .divu d a b w => Sys2Proof.Machine.execDivu d a b w s
  | .rem d a b w => Sys2Proof.Machine.execRem d a b w s
  | .remu d a b w => Sys2Proof.Machine.execRemu d a b w s
  | .and d a b w => Sys2Proof.Machine.execAnd d a b w s
  | .or d a b w => Sys2Proof.Machine.execOr d a b w s
  | .xor d a b w => Sys2Proof.Machine.execXor d a b w s
  | .shl d a b w => Sys2Proof.Machine.execShl d a b w s
  | .shr d a b w => Sys2Proof.Machine.execShr d a b w s
  | .sar d a b w => Sys2Proof.Machine.execSar d a b w s
  | .rol d a b w => Sys2Proof.Machine.execRol d a b w s
  | .clz d a w => Sys2Proof.Machine.execClz d a w s
  | .ctz d a w => Sys2Proof.Machine.execCtz d a w s
  | .popc d a w => Sys2Proof.Machine.execPopc d a w s
  | .min d a b w => Sys2Proof.Machine.execMin d a b w s
  | .max d a b w => Sys2Proof.Machine.execMax d a b w s
  | .minu d a b w => Sys2Proof.Machine.execMinu d a b w s
  | .maxu d a b w => Sys2Proof.Machine.execMaxu d a b w s
  | .sel d a b c => Sys2Proof.Machine.execSel d a b c s
  | .seq d a b w => Sys2Proof.Machine.execSeq d a b w s
  | .sne d a b w => Sys2Proof.Machine.execSne d a b w s
  | .slt d a b w => Sys2Proof.Machine.execSlt d a b w s
  | .sltu d a b w => Sys2Proof.Machine.execSltu d a b w s
  | .mov d a => Sys2Proof.Machine.execMov d a s
  | .extN64 d a b l => Sys2Proof.Machine.execExtN64 d a b l s
  | .extI64 d a b l => Sys2Proof.Machine.execExtI64 d a b l s
  | .ins d a b l => Sys2Proof.Machine.execIns d a b l s
  | .ret a => Sys2Proof.Machine.execRet a s
  | .addi d a imm => Sys2Proof.Machine.execAddi d a imm s
  | .andi d a imm => Sys2Proof.Machine.execAndi d a imm s
  | .ori d a imm => Sys2Proof.Machine.execOri d a imm s
  | .xori d a imm => Sys2Proof.Machine.execXori d a imm s
  | .shli d a u => Sys2Proof.Machine.execShli d a u s
  | .shri d a u => Sys2Proof.Machine.execShri d a u s
  | .sari d a u => Sys2Proof.Machine.execSari d a u s
  | .li d imm => Sys2Proof.Machine.execLi d imm s
  | .lih d a imm => Sys2Proof.Machine.execLih d a imm s
  | .caddi d a imm => Sys2Proof.Machine.execCaddi d a imm s
  | .cadd d a b => Sys2Proof.Machine.execCadd d a b s
  | .csub d a b => Sys2Proof.Machine.execCsub d a b s
  | .csetb d a b => Sys2Proof.Machine.execCsetb d a b s
  | .csetp d a b => Sys2Proof.Machine.execCsetp d a b s
  | .csetf d a b => Sys2Proof.Machine.execCsetf d a b s
  | .csetc d a b => Sys2Proof.Machine.execCsetc d a b s
  | .cgeta d a => Sys2Proof.Machine.execCgeta d a s
  | .cgetb d a => Sys2Proof.Machine.execCgetb d a s
  | .cgett d a => Sys2Proof.Machine.execCgett d a s
  | .cgetp d a => Sys2Proof.Machine.execCgetp d a s
  | .cgetf d a => Sys2Proof.Machine.execCgetf d a s
  | .ctag d a => Sys2Proof.Machine.execCtag d a s
  | .cclr d a => Sys2Proof.Machine.execCclr d a s
  | .br o => Sys2Proof.Machine.execBr o s
  | .jal d o => Sys2Proof.Machine.execJal d o s
  | .jalr d a imm => Sys2Proof.Machine.execJalr d a imm s
  | .bccEq d a imm => Sys2Proof.Machine.execBccEq d a imm s
  | .bccNe d a imm => Sys2Proof.Machine.execBccNe d a imm s
  | .bccLt d a imm => Sys2Proof.Machine.execBccLt d a imm s
  | .bccGe d a imm => Sys2Proof.Machine.execBccGe d a imm s
  | .bccLtu d a imm => Sys2Proof.Machine.execBccLtu d a imm s
  | .bccGeu d a imm => Sys2Proof.Machine.execBccGeu d a imm s
  | .ldI8 d a imm => Sys2Proof.Machine.execLdI8 d a imm s
  | .ldI16 d a imm => Sys2Proof.Machine.execLdI16 d a imm s
  | .ldI32 d a imm => Sys2Proof.Machine.execLdI32 d a imm s
  | .ldI64 d a imm => Sys2Proof.Machine.execLdI64 d a imm s
  | .ldN8 d a imm => Sys2Proof.Machine.execLdN8 d a imm s
  | .ldN16 d a imm => Sys2Proof.Machine.execLdN16 d a imm s
  | .ldN32 d a imm => Sys2Proof.Machine.execLdN32 d a imm s
  | .ldN64 d a imm => Sys2Proof.Machine.execLdN64 d a imm s
  | .st8 d a imm => Sys2Proof.Machine.execSt8 d a imm s
  | .st16 d a imm => Sys2Proof.Machine.execSt16 d a imm s
  | .st32 d a imm => Sys2Proof.Machine.execSt32 d a imm s
  | .st64 d a imm => Sys2Proof.Machine.execSt64 d a imm s
  | .ldc d a imm => Sys2Proof.Machine.execLdc d a imm s
  | .stc d a imm => Sys2Proof.Machine.execStc d a imm s
  | .ldAcq d a b w => Sys2Proof.Machine.execLdAcq d a b w s
  | .stRel d a b z => Sys2Proof.Machine.execStRel d a b z s
  | .fence a o => Sys2Proof.Machine.execFence a o s
  | .ifence => Sys2Proof.Machine.execIfence s
  | .pref h a imm => Sys2Proof.Machine.execPref h a imm s
  | .casN32 d a b c o => Sys2Proof.Machine.execCasN32 d a b c o s
  | .casN64 d a b c o => Sys2Proof.Machine.execCasN64 d a b c o s
  | .send d a b => Sys2Proof.Machine.execSend d a b s
  | .sendx d a b => Sys2Proof.Machine.execSendx d a b s
  | .hret a v m => Sys2Proof.Machine.execHret a v m s
  | .amoAddN32 d a b c o => Sys2Proof.Machine.execAmoAddN32 d a b c o s
  | .amoAddN64 d a b c o => Sys2Proof.Machine.execAmoAddN64 d a b c o s
  | .amoAndN32 d a b c o => Sys2Proof.Machine.execAmoAndN32 d a b c o s
  | .amoAndN64 d a b c o => Sys2Proof.Machine.execAmoAndN64 d a b c o s
  | .amoOrN32 d a b c o => Sys2Proof.Machine.execAmoOrN32 d a b c o s
  | .amoOrN64 d a b c o => Sys2Proof.Machine.execAmoOrN64 d a b c o s
  | .amoXorN32 d a b c o => Sys2Proof.Machine.execAmoXorN32 d a b c o s
  | .amoXorN64 d a b c o => Sys2Proof.Machine.execAmoXorN64 d a b c o s
  | .amoMinI32 d a b c o => Sys2Proof.Machine.execAmoMinI32 d a b c o s
  | .amoMinI64 d a b c o => Sys2Proof.Machine.execAmoMinI64 d a b c o s
  | .amoMaxI32 d a b c o => Sys2Proof.Machine.execAmoMaxI32 d a b c o s
  | .amoMaxI64 d a b c o => Sys2Proof.Machine.execAmoMaxI64 d a b c o s
  | .amoMinuN32 d a b c o => Sys2Proof.Machine.execAmoMinuN32 d a b c o s
  | .amoMinuN64 d a b c o => Sys2Proof.Machine.execAmoMinuN64 d a b c o s
  | .amoMaxuN32 d a b c o => Sys2Proof.Machine.execAmoMaxuN32 d a b c o s
  | .amoMaxuN64 d a b c o => Sys2Proof.Machine.execAmoMaxuN64 d a b c o s
  | .amoSwapN32 d a b c o => Sys2Proof.Machine.execAmoSwapN32 d a b c o s
  | .amoSwapN64 d a b c o => Sys2Proof.Machine.execAmoSwapN64 d a b c o s
  | .amoFaddF32 d a b c o => Sys2Proof.Machine.execAmoFaddF32 d a b c o s
  | .amoFaddBf16 d a b c o => Sys2Proof.Machine.execAmoFaddBf16 d a b c o s
  | .putreg a b p => Sys2Proof.Machine.execPutreg a b p s
  | .putregV a b p => Sys2Proof.Machine.execPutregV a b p s
  | .bindMbx d => Sys2Proof.Machine.execBindMbx d s
  | .bindStr d a => Sys2Proof.Machine.execBindStr d a s
  | .unbind d => Sys2Proof.Machine.execUnbind d s
  | .pget d => Sys2Proof.Machine.execPget d s
  | .pgetV d => Sys2Proof.Machine.execPgetV d s
  | .ppeek d => Sys2Proof.Machine.execPpeek d s
  | .ppeekV d => Sys2Proof.Machine.execPpeekV d s
  | .migrate d a => Sys2Proof.Machine.execMigrate d a s
  | .lwake a z => Sys2Proof.Machine.execLwake a z s
  | .barinit a b => Sys2Proof.Machine.execBarinit a b s
  | .bararr d a b => Sys2Proof.Machine.execBararr d a b s
  | .bardrop d a b => Sys2Proof.Machine.execBardrop d a b s
  | .barwait d a b => Sys2Proof.Machine.execBarwait d a b s
  | .barexp a b => Sys2Proof.Machine.execBarexp a b s
  | .evsig a => Sys2Proof.Machine.execEvsig a s
  | .evwait d a => Sys2Proof.Machine.execEvwait d a s
  | .evclr a => Sys2Proof.Machine.execEvclr a s
  | .evqry d a => Sys2Proof.Machine.execEvqry d a s
  | .brdinit a b => Sys2Proof.Machine.execBrdinit a b s
  | .postv d a b v => Sys2Proof.Machine.execPostv d a b v s
  | .brdread d a b v => Sys2Proof.Machine.execBrdread d a b v s
  | .brdclr a => Sys2Proof.Machine.execBrdclr a s
  | .gang imm => Sys2Proof.Machine.execGang imm s
  | .ungang => Sys2Proof.Machine.execUngang s
  | .yield => Sys2Proof.Machine.execYield s
  | .wait d a w => Sys2Proof.Machine.execWait d a w s
  | .tsync => Sys2Proof.Machine.execTsync s
  | .retire => Sys2Proof.Machine.execRetire s
  | .nop => Sys2Proof.Machine.execNop s
  | .brk imm => Sys2Proof.Machine.execBrk imm s
  | .qpush d a => Sys2Proof.Machine.execQpush d a s
  | .qpop d a => Sys2Proof.Machine.execQpop d a s
  | .spawn d a t => Sys2Proof.Machine.execSpawn d a t s
  | .launch d a => Sys2Proof.Machine.execLaunch d a s
  | .cplsig => Sys2Proof.Machine.execCplsig s
  | .cplsigTask a => Sys2Proof.Machine.execCplsigTask a s
  | .mwait d a => Sys2Proof.Machine.execMwait d a s
  | .mstat d a => Sys2Proof.Machine.execMstat d a s
  | .cstat d a => Sys2Proof.Machine.execCstat d a s
  | .lvlmap a l => Sys2Proof.Machine.execLvlmap a l s
  | .lvlrun a b p l => Sys2Proof.Machine.execLvlrun a b p l s
  | .trap imm => Sys2Proof.Machine.execTrap imm s
  | .eret => Sys2Proof.Machine.execEret s
  | .srr d imm => Sys2Proof.Machine.execSrr d imm s
  | .srw a imm => Sys2Proof.Machine.execSrw a imm s
  | .srs d a imm => Sys2Proof.Machine.execSrs d a imm s
  | .src d a imm => Sys2Proof.Machine.execSrc d a imm s
  | .partset a => Sys2Proof.Machine.execPartset a s
  | .tlbinv a b k => Sys2Proof.Machine.execTlbinv a b k s
  | .ctxsave d a => Sys2Proof.Machine.execCtxsave d a s
  | .ctxload a => Sys2Proof.Machine.execCtxload a s
  | .curve a c => Sys2Proof.Machine.execCurve a c s
  | .tsread d => Sys2Proof.Machine.execTsread d s
  | .halt => Sys2Proof.Machine.execHalt s
  | .cAdd d a => Sys2Proof.Machine.execCAdd d a s
  | .cSub d a => Sys2Proof.Machine.execCSub d a s
  | .cAnd d a => Sys2Proof.Machine.execCAnd d a s
  | .cOr d a => Sys2Proof.Machine.execCOr d a s
  | .cXor d a => Sys2Proof.Machine.execCXor d a s
  | .cShl d a => Sys2Proof.Machine.execCShl d a s
  | .cShr d a => Sys2Proof.Machine.execCShr d a s
  | .cSar d a => Sys2Proof.Machine.execCSar d a s
  | .cMul d a => Sys2Proof.Machine.execCMul d a s
  | .cMin d a => Sys2Proof.Machine.execCMin d a s
  | .cMax d a => Sys2Proof.Machine.execCMax d a s
  | .cMinu d a => Sys2Proof.Machine.execCMinu d a s
  | .cMaxu d a => Sys2Proof.Machine.execCMaxu d a s
  | .cSlt d a => Sys2Proof.Machine.execCSlt d a s
  | .cMov d a => Sys2Proof.Machine.execCMov d a s
  | .cAddi d imm => Sys2Proof.Machine.execCAddi d imm s
  | .cLi d imm => Sys2Proof.Machine.execCLi d imm s
  | .cShli d u => Sys2Proof.Machine.execCShli d u s
  | .cShri d u => Sys2Proof.Machine.execCShri d u s
  | .cSari d u => Sys2Proof.Machine.execCSari d u s
  | .cAndi d imm => Sys2Proof.Machine.execCAndi d imm s
  | .cCaddi d imm => Sys2Proof.Machine.execCCaddi d imm s
  | .cNop => Sys2Proof.Machine.execCNop s
  | .cRet => Sys2Proof.Machine.execCRet s
  | .cYield => Sys2Proof.Machine.execCYield s
  | .cTsync => Sys2Proof.Machine.execCTsync s
  | .cRetire => Sys2Proof.Machine.execCRetire s
  | .cUngang => Sys2Proof.Machine.execCUngang s
  | .cBrk imm => Sys2Proof.Machine.execCBrk imm s
  | .liW d imm => Sys2Proof.Machine.execLiW d imm s
  | .safept gm vm => Sys2Proof.Machine.execSafept gm vm s
  | .vadd f => Sys2Proof.Machine.execVadd f s
  | .vsub f => Sys2Proof.Machine.execVsub f s
  | .vmul f => Sys2Proof.Machine.execVmul f s
  | .vfma f => Sys2Proof.Machine.execVfma f s
  | .vfms f => Sys2Proof.Machine.execVfms f s
  | .vfnma f => Sys2Proof.Machine.execVfnma f s
  | .vdiv f => Sys2Proof.Machine.execVdiv f s
  | .vsqrt f => Sys2Proof.Machine.execVsqrt f s
  | .vmin f => Sys2Proof.Machine.execVmin f s
  | .vmax f => Sys2Proof.Machine.execVmax f s
  | .vabs f => Sys2Proof.Machine.execVabs f s
  | .vneg f => Sys2Proof.Machine.execVneg f s
  | .vcmp f => Sys2Proof.Machine.execVcmp f s
  | .vsel f => Sys2Proof.Machine.execVsel f s
  | .vand f => Sys2Proof.Machine.execVand f s
  | .vor f => Sys2Proof.Machine.execVor f s
  | .vxor f => Sys2Proof.Machine.execVxor f s
  | .vnot f => Sys2Proof.Machine.execVnot f s
  | .vshl f => Sys2Proof.Machine.execVshl f s
  | .vshr f => Sys2Proof.Machine.execVshr f s
  | .vsar f => Sys2Proof.Machine.execVsar f s
  | .viadd f => Sys2Proof.Machine.execViadd f s
  | .visub f => Sys2Proof.Machine.execVisub f s
  | .vimul f => Sys2Proof.Machine.execVimul f s
  | .vcvt f => Sys2Proof.Machine.execVcvt f s
  | .vscl f => Sys2Proof.Machine.execVscl f s
  | .vpack f => Sys2Proof.Machine.execVpack f s
  | .vunpk f => Sys2Proof.Machine.execVunpk f s
  | .vred f => Sys2Proof.Machine.execVred f s
  | .vscan f => Sys2Proof.Machine.execVscan f s
  | .vperm f => Sys2Proof.Machine.execVperm f s
  | .vbcast f => Sys2Proof.Machine.execVbcast f s
  | .vbcastE f => Sys2Proof.Machine.execVbcastE f s
  | .vmovgG f => Sys2Proof.Machine.execVmovgG f s
  | .vmovgV f => Sys2Proof.Machine.execVmovgV f s
  | .vidx f => Sys2Proof.Machine.execVidx f s
  | .vcomp f => Sys2Proof.Machine.execVcomp f s
  | .vexpd f => Sys2Proof.Machine.execVexpd f s
  | .vrcp f => Sys2Proof.Machine.execVrcp f s
  | .vrsq f => Sys2Proof.Machine.execVrsq f s
  | .vexp2 f => Sys2Proof.Machine.execVexp2 f s
  | .vlog2 f => Sys2Proof.Machine.execVlog2 f s
  | .vsin f => Sys2Proof.Machine.execVsin f s
  | .vcos f => Sys2Proof.Machine.execVcos f s
  | .vtanh f => Sys2Proof.Machine.execVtanh f s
  | .vkey f => Sys2Proof.Machine.execVkey f s
  | .vhash f => Sys2Proof.Machine.execVhash f s
  | .vbin f => Sys2Proof.Machine.execVbin f s
  | .vpair f => Sys2Proof.Machine.execVpair f s
  | .ldv f => Sys2Proof.Machine.execLdv f s
  | .stv f => Sys2Proof.Machine.execStv f s
  | .ldvs f => Sys2Proof.Machine.execLdvs f s
  | .stvs f => Sys2Proof.Machine.execStvs f s
  | .ldvx f => Sys2Proof.Machine.execLdvx f s
  | .stvx f => Sys2Proof.Machine.execStvx f s
  | .mma f => Sys2Proof.Machine.execMma f s
  | .mld f => Sys2Proof.Machine.execMld f s
  | .mst f => Sys2Proof.Machine.execMst f s
  | .mzero f => Sys2Proof.Machine.execMzero f s
  | .mswap f => Sys2Proof.Machine.execMswap f s
  | .mcvt f => Sys2Proof.Machine.execMcvt f s
  | .sigrst f => Sys2Proof.Machine.execSigrst f s
  | .sigadv f => Sys2Proof.Machine.execSigadv f s
  | .sigjoin f => Sys2Proof.Machine.execSigjoin f s
  | .siglog f => Sys2Proof.Machine.execSiglog f s
  | .sigld f => Sys2Proof.Machine.execSigld f s
  | .sigst f => Sys2Proof.Machine.execSigst f s
  | .cpy f => Sys2Proof.Machine.execCpy f s
  | .cpyM f => Sys2Proof.Machine.execCpyM f s
  | .cpyS f => Sys2Proof.Machine.execCpyS f s
  | .cgat f => Sys2Proof.Machine.execCgat f s
  | .csct f => Sys2Proof.Machine.execCsct f s
  | .cfill f => Sys2Proof.Machine.execCfill f s
  | .coll f => Sys2Proof.Machine.execColl f s
  | .wload f => Sys2Proof.Machine.execWload f s
  | .restrictFine f => Sys2Proof.Machine.execRestrictFine f s
  | .restrictCoarse f => Sys2Proof.Machine.execRestrictCoarse f s
  | .prolongCoarse f => Sys2Proof.Machine.execProlongCoarse f s
  | .prolongFine f => Sys2Proof.Machine.execProlongFine f s
  | .load src dst => Sys2Proof.Machine.execLoad src dst s
  | .store src dst => Sys2Proof.Machine.execStore src dst s
  | .loadcap src dst => Sys2Proof.Machine.execLoadcap src dst s
  | .storecap src dst => Sys2Proof.Machine.execStorecap src dst s
  | .amo src dst => Sys2Proof.Machine.execAmo src dst s
  | .cas src dst => Sys2Proof.Machine.execCas src dst s
  | .active src dst => Sys2Proof.Machine.execActive src dst s
  | .portw src dst => Sys2Proof.Machine.execPortw src dst s
  | .dataRpl src dst => Sys2Proof.Machine.execDataRpl src dst s
  | .ackRpl src dst => Sys2Proof.Machine.execAckRpl src dst s
  | .faultRpl src dst => Sys2Proof.Machine.execFaultRpl src dst s
  | .nakRpl src dst => Sys2Proof.Machine.execNakRpl src dst s
  | .hreply src dst => Sys2Proof.Machine.execHreply src dst s
  | .migack src dst => Sys2Proof.Machine.execMigack src dst s
  | .wayfarer src dst => Sys2Proof.Machine.execWayfarer src dst s
  | .ewrite src dst => Sys2Proof.Machine.execEwrite src dst s
  | .eread src dst => Sys2Proof.Machine.execEread src dst s
  | .edata src dst => Sys2Proof.Machine.execEdata src dst s
  | .done src dst => Sys2Proof.Machine.execDone src dst s
  | .chunk src dst => Sys2Proof.Machine.execChunk src dst s
  | .probe src dst => Sys2Proof.Machine.execProbe src dst s
  | .event src dst => Sys2Proof.Machine.execEvent src dst s
  | .wake src dst => Sys2Proof.Machine.execWake src dst s
  | .walk src dst => Sys2Proof.Machine.execWalk src dst s
  | .walkrpl src dst => Sys2Proof.Machine.execWalkrpl src dst s
  | .shoot src dst => Sys2Proof.Machine.execShoot src dst s
  | .record src dst => Sys2Proof.Machine.execRecord src dst s
  | .handlerStart c => Sys2Proof.Machine.execHandlerStart c s
  | .builtinAtomicDispatch c => Sys2Proof.Machine.execBuiltinAtomicDispatch c s
  | .mailboxPortwDelivery c => Sys2Proof.Machine.execMailboxPortwDelivery c s
  | .heldDoneWritten c => Sys2Proof.Machine.execHeldDoneWritten c s
  | .queueBlockedTimeout c q => Sys2Proof.Machine.execQueueBlockedTimeout c q s
  | .threadSendQueueRoom c t => Sys2Proof.Machine.execThreadSendQueueRoom c t s
  | .waitDeadline c t => Sys2Proof.Machine.execWaitDeadline c t s
  | .barwaitRetry c t => Sys2Proof.Machine.execBarwaitRetry c t s
  | .overflowReplay ev => Sys2Proof.Machine.execOverflowReplay ev s
  | .poolArbitration c => Sys2Proof.Machine.execPoolArbitration c s
  | .poolRebuildWriteback c w => Sys2Proof.Machine.execPoolRebuildWriteback c w s
  | .partwChange c => Sys2Proof.Machine.execPartwChange c s
  | .testerQuiesce cl bus bad => Sys2Proof.Machine.execTesterQuiesce cl bus bad s
  | .testerAbort cl bus => Sys2Proof.Machine.execTesterAbort cl bus s
  | .selfTestComplete kind place idx result => Sys2Proof.Machine.execSelfTestComplete kind place idx result s
  | .pageMove job va frame => Sys2Proof.Machine.execPageMove job va frame s
  | .pageLockRelease job va => Sys2Proof.Machine.execPageLockRelease job va s
  | .plannedOffline d => Sys2Proof.Machine.execPlannedOffline d s
  | .forcedOffline d left => Sys2Proof.Machine.execForcedOffline d left s
  | .dieDrain d => Sys2Proof.Machine.execDieDrain d s
  | .dieRemap d phys => Sys2Proof.Machine.execDieRemap d phys s
  | .routeRecomputation => Sys2Proof.Machine.execRouteRecomputation s
  | .routeTableInstall => Sys2Proof.Machine.execRouteTableInstall s
  | .linkNarrow d l => Sys2Proof.Machine.execLinkNarrow d l s
  | .linkSleep d l => Sys2Proof.Machine.execLinkSleep d l s
  | .linkWakeComplete d l => Sys2Proof.Machine.execLinkWakeComplete d l s
  | .stealRequest thief victim => Sys2Proof.Machine.execStealRequest thief victim s
  | .stealResponse thief => Sys2Proof.Machine.execStealResponse thief s
  | .stealPortTimeout thief victim => Sys2Proof.Machine.execStealPortTimeout thief victim s
  | .hostCommand q desc => Sys2Proof.Machine.execHostCommand q desc s
  | .jobAccept q stack => Sys2Proof.Machine.execJobAccept q stack s
  | .jobCompletion job => Sys2Proof.Machine.execJobCompletion job s
  | .idleCoreSearch c => Sys2Proof.Machine.execIdleCoreSearch c s
  | .idleSearchTimer c => Sys2Proof.Machine.execIdleSearchTimer c s
  | .recordPassLimit cl => Sys2Proof.Machine.execRecordPassLimit cl s
  | .teamPlacement cl => Sys2Proof.Machine.execTeamPlacement cl s
  | .bandPlacement d => Sys2Proof.Machine.execBandPlacement d s
  | .bandReservation d => Sys2Proof.Machine.execBandReservation d s
  | .preemptionMark c t => Sys2Proof.Machine.execPreemptionMark c t s
  | .forcedSave c t => Sys2Proof.Machine.execForcedSave c t s
  | .unitResume c n => Sys2Proof.Machine.execUnitResume c n s
  | .matrixJobStart cl => Sys2Proof.Machine.execMatrixJobStart cl s
  | .matrixJobComplete cl => Sys2Proof.Machine.execMatrixJobComplete cl s
  | .engineSplitStop cl kind n => Sys2Proof.Machine.execEngineSplitStop cl kind n s
  | .porterJobStart cl => Sys2Proof.Machine.execPorterJobStart cl s
  | .porterJobComplete cl n => Sys2Proof.Machine.execPorterJobComplete cl n s
  | .parkedPieceReplay cl => Sys2Proof.Machine.execParkedPieceReplay cl s
  | .streamFifoEntry cl n => Sys2Proof.Machine.execStreamFifoEntry cl n s
  | .ringJobComplete port => Sys2Proof.Machine.execRingJobComplete port s
  | .stairJobStart c => Sys2Proof.Machine.execStairJobStart c s
  | .stairJobComplete c => Sys2Proof.Machine.execStairJobComplete c s
  | .stairLinkFailure c => Sys2Proof.Machine.execStairLinkFailure c s
  | .pageResident job va frame ok => Sys2Proof.Machine.execPageResident job va frame ok s
  | .fabricInboundAccess peer win off op data => Sys2Proof.Machine.execFabricInboundAccess peer win off op data s
  | .windowWithdraw imp w => Sys2Proof.Machine.execWindowWithdraw imp w s
  | .windowInvalidate imp w => Sys2Proof.Machine.execWindowInvalidate imp w s
  | .securityAlarm lvl => Sys2Proof.Machine.execSecurityAlarm lvl s
  | .bringUp => Sys2Proof.Machine.execBringUp s
  | .thermalThrottle island => Sys2Proof.Machine.execThermalThrottle island s
  | .thermalShutdown => Sys2Proof.Machine.execThermalShutdown s
  | .mctpRequest attest => Sys2Proof.Machine.execMctpRequest attest s
  | .lpqRemoveHead c => Sys2Proof.Machine.execLpqRemoveHead c s
  | .lpqClearCnt c => Sys2Proof.Machine.execLpqClearCnt c s
  | .runControlResume c => Sys2Proof.Machine.execRunControlResume c s
  | .memoryRequest job cls places pages frame => Sys2Proof.Machine.execMemoryRequest job cls places pages frame s
  | .pageRelease job va => Sys2Proof.Machine.execPageRelease job va s
  | .pageNonResident job va => Sys2Proof.Machine.execPageNonResident job va s
  | .windowImport imp w e => Sys2Proof.Machine.execWindowImport imp w e s
  | .ringInstall port idx job rank size => Sys2Proof.Machine.execRingInstall port idx job rank size s
  | .ringMemberLoss port idx => Sys2Proof.Machine.execRingMemberLoss port idx s
  | .overflowQueueExtend ev => Sys2Proof.Machine.execOverflowQueueExtend ev s

end Sys2Proof.Machine
end

