-- ==== Sys2Proof/Machine/Step.lean ====
section
/-! DEFINITION. Sys2Proof/Machine/Step.lean: one step of the module, and the placing of an instruction where the next step fetches it. -/

namespace Sys2Proof.Machine

/-- The issuing slot does what its fetch gives: it executes the instruction, takes the trap of the fetch, or waits for
the page (R212, R224, R437). -/
noncomputable def State.runSlot (s : State) : Answer :=
  match s.fetch with
  | .ok i head => exec i { s with fetched := head }
  | .illegal head => .next ({ s with fetched := head }.takeTrap 0x01 s.sl.pc.addr head)
  | .trap cause eaddr => .next (s.takeTrap cause s.sl.pc.addr eaddr)
  | .miss space va eaddr => .next (s.startWalk s.jobNo space va eaddr)
  | .locked => .next (s.awaiting .stalled .room)
  | .busy pa => .next ((s.demandBus pa).awaiting .stalled .room)

/-- Slot `i` of core `c` is about to issue. -/
def State.issuing (s : State) (c : Coord) (held : List Nat) (i : Nat) : State :=
  { s.modCore c fun x => stampIssue x held i with core := c, slot := i }

/-- One cycle of a core (R415): the chosen slot issues one instruction, and a thread that is marked for pre-emption may leave
after it (R427). A slot whose register-file request the pool has still to serve does not issue (R59). -/
noncomputable def State.cycle (s : State) (c : Coord) (held : List Nat) : Answer :=
  if coreExists c then
    if s.running c then
      let held := held ++ s.filing c
      match issueChoice c (s.coreAt c) held with
      | some i =>
        match (s.issuing c held i).runSlot with
        | .next t => .next (t.leaves c i)
        | r => r
      | none => .next s
    else .next s
  else .fault (.noSuchCore c)

/-- The instruction is a step of another agent, which no parcel encodes. -/
def isEvent (i : Instr) : Bool := (encode i).isNone

/-- A step of another agent; the issuing core and slot stay as they are. -/
def State.happen (s : State) (i : Instr) : Answer :=
  if isEvent i then
    match exec i s with
    | .next t => .next { t with core := s.core, slot := s.slot }
    | r => r
  else .next s

/-- ONE STEP: the head of the agenda, or, when the agenda is empty, a cycle of the core at hand and, where no slot of it
can issue, a tick of TSNOW, and a cycle of the pools (log 1). -/
noncomputable def step (s : State) : Host.Outcome State Fault Refusal :=
  match s.agenda with
  | .cycle c held :: r => { s with agenda := r }.cycle c held
  | .event i :: r => { s with agenda := r }.happen i
  | .move m :: r => .next ({ s with agenda := r }.move m)
  | .tick n :: r => .next { s with agenda := r, ts := s.ts + word n }
  | [] =>
    if coreExists s.core && s.running s.core && (issueChoice s.core s.cr (s.filing s.core)).isSome then s.cycle s.core []
    else .next { s with ts := s.ts + 1, pools := s.pools.map fun (k, x) => (k, x.cycle) }

/-! ### Placing an instruction -/

/-- The virtual address, and the frame, at which `withFetchWord` places an instruction. -/
def placeVa : Nat := 0x0400000000010000
def placeFrame : Nat := 0x10000

/-- The core and the slot that run it: core (0, 0, 0), slot 1. -/
def placeCore : Coord := 0

/-- The leaf of the page: valid, code, writable, user (R42). -/
def placeLeaf : Nat := 2 ^ 63 + 2 ^ 62 + 2 ^ 57 + 2 ^ 54 + 2 ^ 53 + placeFrame

/-- The code capability of the placed job: L, X and G over the page (R405). -/
def placeCode : Cap := makeCap 0xA10 0 0 placeVa 0x10000 placeVa

/-- The job of the placed thread. -/
def placeJob : Nat := 1

/-- The slot that issues the placed instruction: a live thread with the PC at it (R163, R405). -/
def placedSlot (x : Slot) : Slot :=
  { x with st := .ready, pc := placeCode, quota := 32, gang := {}, wayfarer := false, mem := { x.mem with job := placeJob } }

/-- The core with that slot and the page's translation (R436). -/
def placedCore (x : Core) : Core :=
  { x.setSlot 1 (placedSlot (x.slotAt 1)) with
    halted := false, owner := some placeJob
    tlb := { job := placeJob, space := .dram, va := placeVa, shift := 16, entry := placeLeaf } :: x.tlb }

/-- The state with an instruction of the opcode table stored where the next step fetches it (log 10): the job, the
thread, the translation and the bytes are those of a program that the module's loader has placed, bring-up is done,
and the next move is a cycle of that core in which only that slot can issue. -/
def State.withFetchWord (s : State) (nbits w : Nat) : State :=
  let t := s.writeBytes placeFrame (tableBytes nbits w)
  let t := t.modCore placeCore placedCore
  let t := t.setJob placeJob { t.jobAt placeJob with live := true, code := placeCode }
  let t := t.setDie 0 { t.dieAt 0 with offline := false }
  { t with
    pkg := { t.pkg with bringUp := 7, shutdown := false, alarm := 0
                        locks := t.pkg.locks.filter fun l => !(l.job == placeJob && l.va / 2 ^ l.shift == placeVa / 2 ^ l.shift) }
    agenda := .cycle placeCore ((List.range 32).filter (· != 1)) :: t.agenda }

end Sys2Proof.Machine
end

