-- ==== Sys2Proof/Safety.lean ====
section
/-! DEFINITION. Sys2Proof/Safety.lean: the terms in which claims speak: when an instruction passes the checks of issue, what an effect leaves as it was, and the invariant of the memory. -/

namespace Sys2Proof.Machine

/-- The instruction with the uses `u` passes the checks of R224 and IssueCheck (R220) at `s`: no register that it names, and none
that a result lands in before it, is leased (R223). Its own effect starts from `t`: the state in which the results that IssueCheck lands have landed. -/
structure Issues (s : State) (u : Uses) (t : State) : Prop where
  privileged : u.sysOnly = true → s.sl.priv = true
  formed : u.bad = false
  aligned : misaligned u = false
  bounded : outOfBounds s.sl u = false
  lands : ∃ l k, issueCheck u s.sl.haz = some (l, k) ∧ s.leaseOn u l = none ∧ t = (s.landAll l).modSl fun x => { x with haz := k }

/-- Everything outside the issuing slot is in `n` as it was in `t`. -/
structure SameAround (t n : State) : Prop where
  bytes : ∀ k, n.byteAt k = t.byteAt k
  keys : n.keys = t.keys
  tags : n.tags = t.tags
  poison : n.poison = t.poison
  doubleErrors : n.doubleErrors = t.doubleErrors
  net : n.net = t.net
  clusters : n.clusters = t.clusters
  dies : n.dies = t.dies
  jobs : n.jobs = t.jobs
  counters : n.counters = t.counters
  pkg : n.pkg = t.pkg
  ts : n.ts = t.ts
  core : n.core = t.core
  slot : n.slot = t.slot
  otherCores : ∀ c, c ≠ t.core → n.coreAt c = t.coreAt c
  otherSlots : ∀ i, i ≠ t.slot → n.slotAt t.core i = t.slotAt t.core i
  ownCore : { n.cr with slots := [] } = { t.cr with slots := [] }

/-- Of a slot, everything but the g registers, the PC and the marks of progress is as it was. -/
structure SameSlot (x y : Slot) : Prop where
  v : y.v = x.v
  k : y.k = x.k
  b : y.b = x.b
  sys : y.sys = x.sys
  priv : y.priv = x.priv
  inUser : y.inUser = x.inUser
  inSystem : y.inSystem = x.inSystem
  trapUser : y.trapUser = x.trapUser
  trapSystem : y.trapSystem = x.trapSystem
  gen : y.gen = x.gen
  quota : y.quota = x.quota
  frame : y.frame = x.frame
  gang : y.gang = x.gang
  mem : y.mem = x.mem

/-- Every g register but those of the list is as it was. -/
def SameG (l : List GReg) (t n : State) : Prop := ∀ r, r ∉ l → n.g r = t.g r

/-- The instruction of `len` bytes has retired from `t`, and beside the g registers of `l` nothing has changed but the
PC, which names the next instruction. -/
structure Retired (len : Nat) (l : List GReg) (t n : State) : Prop where
  around : SameAround t n
  kept : SameSlot t.sl n.sl
  others : SameG l t n
  ready : n.sl.st = .ready
  pc : n.sl.pc = { t.sl.pc with addr := t.sl.pc.addr + BitVec.ofNat 64 len }

/-- The instruction has retired from `t` by a transfer of control to `c`, and beside the g registers of `l` and the PC
nothing has changed. -/
structure Jumped (c : Cap) (l : List GReg) (t n : State) : Prop where
  around : SameAround t n
  kept : SameSlot t.sl n.sl
  others : SameG l t n
  ready : n.sl.st = .ready
  pc : n.sl.pc = c

/-- A result of the width of code `w`, extended by sign, or by zero when bit 2 of the code is set (R260). -/
def extended (w : BitVec 3) {n : Nat} (x : BitVec n) : Word :=
  if w.getLsbD 2 then x.setWidth 64 else x.signExtend 64

/-- The whole access of `n` bytes at `x` through `c` passes the checks of R47 in one piece that the core itself serves,
at key `k`. -/
def Reaches (t : State) (c : Cap) (need : Need) (x n k : Nat) : Prop :=
  ∃ p, partsOf t.core x n 0 = [p] ∧ p.x = x ∧ p.n = n ∧ p.off = 0 ∧
    checkPart t { core := p.core, priv := t.sl.priv, job := t.jobNo } c need p.x0 p.n0 p.x p.n = .ok (.key k)

/-- The access straddles two granules: its first `m` bytes at key `k1` and the rest at `k2`, both served by the core. -/
def ReachesTwo (t : State) (c : Cap) (need : Need) (x n m k1 k2 : Nat) : Prop :=
  ∃ p q, partsOf t.core x n 0 = [p, q] ∧ p.n = m ∧ q.n = n - m ∧
    checkPart t { core := p.core, priv := t.sl.priv, job := t.jobNo } c need p.x0 p.n0 p.x p.n = .ok (.key k1) ∧
    checkPart t { core := q.core, priv := t.sl.priv, job := t.jobNo } c need q.x0 q.n0 q.x q.n = .ok (.key k2)

/-- Every part of the access of `n` bytes at `x` through `c` passes the checks of R47, and the core itself serves them
all, at the keys from `k` on. -/
def Covers (t : State) (c : Cap) (need : Need) (x n k : Nat) : Prop :=
  ∃ q l, checkParts t t.sl.priv t.jobNo c need (partsOf t.core x n 0) = (.ok q, l) ∧ ∀ e ∈ l, e.2 = .key (k + e.1.off)

/-- The whole access is one piece that goes by message to `dst`, at physical address `addr`. -/
def ReachesFar (t : State) (c : Cap) (need : Need) (x n : Nat) (dst : Coord) (addr : Nat) : Prop :=
  ∃ p, partsOf t.core x n 0 = [p] ∧ p.n = n ∧
    checkPart t { core := p.core, priv := t.sl.priv, job := t.jobNo } c need p.x0 p.n0 p.x p.n = .ok (.msg dst addr)

/-- The state with the memory of `t`: its bytes, their tags, and the marks of the words that cannot be read. -/
def State.memoryOf (n t : State) : State :=
  { n with mem := t.mem, tags := t.tags, poison := t.poison, doubleErrors := t.doubleErrors }

/-- The words that `i` reaches, whichever scheduled instruction it is. -/
noncomputable def reachFor (i : Instr) : Uses → Vx → Reach :=
  match i with
  | .vpair _ => pairReach
  | _ => reachOf i

/-- The scheduled instruction `i`, of form `f` and operand kinds `sp`, passes the checks of issue at `s`, its own effect
starting from `t`, every port that it reads holds an entry, and every word that it reads can be read (R67, R209, R216, R327,
R331). -/
structure VecIssues (i : Instr) (f : SForm) (sp : SchedSpec) (s t : State) : Prop where
  form : schedSpec i = some (f, sp)
  issues : Issues s (vecUses f sp) t
  single : f.ps = 0 ∨ t.sl.gang.size = 1
  ports : t.portsFail (portsNamed f sp) = none
  readable : t.lostMember ((reachFor i (vecUses f sp) (t.operands f sp)).pool t.sl.gang.size t.sl.keep) = none

/-- A scheduled instruction has retired from `t` and left the producer `p` unlanded, with the words that it does not write
whole; FPSTAT has gained `flags`, AMX is
`amx`, and no register, no byte and no message has changed (R219, R330). -/
structure Leaves (p : Producer) (flags : Nat) (amx : Word) (t n : State) : Prop where
  unlanded : ∃ bare part, n.sl.haz = (t.sl.haz.map fun q => { q with rem := q.rem - 1 }) ++ [{ p with bare, part }]
  sys : n.sl.sys = { t.sl.sys with fpstat := t.sl.sys.fpstat ||| BitVec.ofNat 64 flags, amx }
  g : SameG [] t n
  v : n.sl.v = t.sl.v
  k : n.sl.k = t.sl.k
  mem : n.mem = t.mem
  net : n.net = t.net
  ready : n.sl.st = .ready
  pc : n.sl.pc = { t.sl.pc with addr := t.sl.pc.addr + 10 }

/-- The producer of form `f` with results for v, g and k registers (R219). -/
def leaving (f : SForm) (vs : List (Nat × List VReg)) (gs : List (Nat × Cap)) (ks : List (Nat × List (BitVec 16))) : Producer :=
  { rem := f.la.toNat, pk := f.pk == 1, vs, gs, ks }

/-- An engine command, with what its acceptance rests on: what it names, its KIND and opcode, its checks, and the values of
its operand registers (R354, R433). -/
structure Command where
  instr : Instr
  uses : Uses
  kind : Nat
  op : Nat
  checks : State → List (Option Ret)
  operands : State → List Cap

/-- The command of form `f` was accepted with the id `id` (R354): job `j` ends its core's list of outstanding jobs and its
engine's queue, the id counter moved on, the id lands in GJ after LA, and no register, byte or message has changed. -/
structure Accepted (c : Command) (f : EForm) (id : Nat) (j : EngineJob) (t n : State) : Prop where
  named : j.kind = c.kind ∧ j.op = c.op ∧ j.f = f ∧ j.id = id
  issuer : j.core = t.core ∧ j.slot = t.slot ∧ j.gen = t.sl.gen ∧ j.job = t.jobNo ∧ j.priv = t.sl.priv
  operands : j.ops = c.operands t
  leases : j.leasedV = c.uses.leaseV ∧ j.leasedT = c.uses.leaseT
  outstanding : n.cr.eng.jobs = t.cr.eng.jobs ++ [j]
  counters : (n.cr.eng.matrixCounter, n.cr.eng.copyCounter) =
    if c.kind = kindMatrix then ((id + 1) % 256, t.cr.eng.copyCounter) else (t.cr.eng.matrixCounter, (id + 1) % 256)
  matrixQueue : (n.clusterAt t.core).matrixQueue = (t.clusterAt t.core).matrixQueue ++ if c.kind = kindMatrix then [j] else []
  porterQueue : (n.clusterAt t.core).porterQueue = (t.clusterAt t.core).porterQueue ++ if c.kind = kindPorter then [j] else []
  stairQueue : n.cr.eng.stairQueue = t.cr.eng.stairQueue ++ if c.kind = kindStair then [j] else []
  ringQueue : (n.sequencer (j.ring / 256)).queue = (t.sequencer (j.ring / 256)).queue ++ if c.kind = kindRing then [j] else []
  unlanded : n.sl.haz = (t.sl.haz.map fun q => { q with rem := q.rem - 1 }) ++
    [{ rem := f.la.toNat, pk := false, gs := [(f.gj.toNat, Cap.ofWord (BitVec.ofNat 64 id))] }]
  g : SameG [] t n
  kept : SameSlot t.sl n.sl
  rest : n.mem = t.mem ∧ n.tags = t.tags ∧ n.poison = t.poison ∧ n.net = t.net ∧ n.dies = t.dies ∧ n.jobs = t.jobs ∧
    n.counters = t.counters ∧ n.cr.msg = t.cr.msg ∧ n.cr.ports = t.cr.ports
  ready : n.sl.st = .ready
  pc : n.sl.pc = { t.sl.pc with addr := t.sl.pc.addr + 10 }

/-- The message `f` is the last reply that the instruction of slot `i` of the core awaits, for its piece `q` (R103, R104). -/
structure AwaitsLast (t : State) (f : Flight) (i : Nat) (p : Pending) (q : Piece) : Prop where
  asked : t.requester f.dst f.tag = some (i, p, q)
  last : p.pieces = [q]
  sent : p.todo = []
  clean : p.fault = none

/-- The memory is in its canonical form. -/
def State.memoryCanonical (s : State) : Prop := Memory.wf s.mem = true

end Sys2Proof.Machine
end

