-- ==== Sys2Proof/Certificates/Slice0/Obligations.lean ====
section
/-! DEFINITION. Sys2Proof/Certificates/Slice0/Obligations.lean: the statements for the provers. Each speaks of every state and every operand that its hypotheses name. -/

open Sys2Proof Sys2Proof.Machine

/-- The word of every well-formed instruction decodes to it, with every operand at every value, whatever bytes follow
(R211, R213, R214, R216, R217). -/
def Obligations.EncodeThenDecode : Prop :=
  ∀ (i : Instr) (e : Encoding) (rest : List Byte), i.wellFormed = true → encode i = some e →
    decodeBytes (e.bytes ++ rest) = .ok (i, rest)

/-- Whatever the decoder accepts is the word of one well-formed instruction, bit for bit: no bit of a word is ignored
(R224). -/
def Obligations.DecodeThenEncode : Prop :=
  ∀ (l rest : List Byte) (i : Instr), decodeBytes l = .ok (i, rest) →
    i.wellFormed = true ∧ ∃ e, encode i = some e ∧ l = e.bytes ++ rest

/-- Words written out from the encodings of the spec decode to the instructions they stand for: SEND g12, g7, g8 is
0xD5587400 (R298), LVLMAP #1, g6 is 0xE4006001 (R391), BARARR g4, g2, g3 is 0xDD082180 (R310); the parcel 0x0000 is no
instruction. -/
def Obligations.WordsOfTheSpec : Prop :=
  decodeBytes [0x58, 0xD5, 0x00, 0x74] = .ok (.send 12 7 8, []) ∧
  decodeBytes [0x00, 0xE4, 0x01, 0x60] = .ok (.lvlmap 6 1, []) ∧
  decodeBytes [0x08, 0xDD, 0x80, 0x21] = .ok (.bararr 4 2 3, []) ∧
  decodeBytes [0x00, 0x00] = .error .zeroParcel

/-- A cycle of a core runs the instruction whose bytes stand at the PC of the slot that IssueChoice chooses: where the
parcels pass the checks of R47 and decode to `i`, the step is the meaning of `i`, after which only a thread that is
marked for pre-emption may leave its slot (R211, R212, R415, R427). A slot whose register-file request the pool has
still to serve is not chosen (R59). The agenda is the model's (log 1). A step of another agent that stands at the head
of the agenda has its meaning, and leaves the core and slot at hand; a move of the mesh and of the units beside it has
its meaning; a tick advances TSNOW (log 1, log 33, R450). -/
def Obligations.StepRunsTheDecodedInstruction : Prop :=
  (
  ∀ (s : State) (c : Coord) (held : List Nat) (r : List Turn) (n : Nat) (i : Instr) (b0 b1 : Byte) (l rest : List Byte)
    (p q : Route),
    s.agenda = .cycle c held :: r → coreExists c = true → s.running c = true →
    issueChoice c (s.coreAt c) (held ++ s.filing c) = some n →
    let t := ({ s with agenda := r } : State).issuing c (held ++ s.filing c) n
    t.fetchParcels 1 0 = (.ok p, [b0, b1]) →
    t.fetchParcels (parcelLength (parcel b0 b1) / 2) 0 = (.ok q, l) →
    decodeBytes l = .ok (i, rest) →
    ∃ u, exec i { t with fetched := word (headOf l 4) } = .next u ∧ step s = .next (u.leaves c n) ∧
      ((u.slotAt c n).mark = none → step s = .next u)) ∧
  (
  (∀ (s t : State) (i : Instr) (r : List Turn), s.agenda = .event i :: r → encode i = none →
    exec i { s with agenda := r } = .next t → step s = .next { t with core := s.core, slot := s.slot }) ∧
  (∀ (s : State) (m : Move) (r : List Turn), s.agenda = .move m :: r → step s = .next (({ s with agenda := r } : State).move m)) ∧
  (∀ (s : State) (n : Nat) (r : List Turn), s.agenda = .tick n :: r →
    step s = .next { s with agenda := r, ts := s.ts + BitVec.ofNat 64 n }))

/-- Every instruction and every step of another agent answers a next state at every state: nothing ends in a fault or
a refusal; and the machine stops nowhere but at a turn that names a core which R2 does not place (log 11). -/
def Obligations.TheMachineGoesOn : Prop :=
  (∀ (i : Instr) (s : State), ∃ t, exec i s = .next t) ∧
  (∀ s : State, (∀ c held r, s.agenda = .cycle c held :: r → coreExists c = true) → ∃ t, step s = .next t) ∧
  (∀ (s : State) (c : Coord) (held : List Nat) (r : List Turn), s.agenda = .cycle c held :: r → coreExists c = false →
    step s = .fault (.noSuchCore c))

/-- Every step keeps the canonical form of the memory: keys rise strictly and no listed byte is the one an unlisted
key reads as (log 2). -/
def Obligations.EveryStepKeepsTheMemoryCanonical : Prop :=
  ∀ s t : State, s.memoryCanonical → step s = .next t → t.memoryCanonical

/-- The machine after reset: TSNOW is 0, no message is on its way, no bring-up step is done, no core runs, every slot
of every core is Empty with generation 0, every port is unbound, every event is clear; the memory is in its canonical
form (R11, R125, R161, R209, R450, R451; the registers that the spec gives no reset value are log 8). -/
def Obligations.ResetLeavesTheModuleIdle : Prop :=
  State.reset.ts = 0 ∧ State.reset.net = [] ∧ State.reset.pkg.bringUp = 0 ∧
  (∀ c, State.reset.running c = false) ∧
  (∀ c i, (State.reset.slotAt c i).st = .empty ∧ (State.reset.slotAt c i).gen = 0) ∧
  (∀ c p, ((State.reset.coreAt c).port p).bind = .unbound) ∧
  (∀ n, State.reset.eventAt n = {}) ∧ State.reset.memoryCanonical

/-- A write of data: every byte written reads as written, every other byte reads as before, and every 16-byte granule
the write touches loses its tag while the others keep theirs (R38). A capability written at a key that is a multiple
of 16 is read back with its tag (R38, R48). -/
def Obligations.AWriteReadsBackAndClearsTags : Prop :=
  (
  ∀ (s : State) (k : Nat) (l : List Byte),
    (∀ i (h : i < l.length), (s.writeBytes k l).byteAt (k + i) = l[i]) ∧
    (∀ j, (j < k ∨ k + l.length ≤ j) → (s.writeBytes k l).byteAt j = s.byteAt j) ∧
    (∀ g, g ∈ (s.writeBytes k l).tags ↔ g ∈ s.tags ∧ ¬ ∃ i, i < l.length ∧ (k + i) / 16 = g)) ∧
  (
  ∀ (s : State) (k : Nat) (c : Cap), k % 16 = 0 → (s.writeCap k c).readCap k = c)

/-- Each arithmetic, logic, shift and minimum instruction writes the result of R261 at the width of its code, extended
as R260 says, with the upper half and tag clear (R259); nothing else changes and PC names the next instruction. CLZ,
CTZ and POPC count the zero bits above the highest set bit, below the lowest, and the set bits of the operand at its
width (R261): CLZ gives the unique c with x < 2^(n-c), and x at least 2^(n-c-1) where c < n. SEQ, SNE, SLT and SLTU
write 1 or 0 by the comparison of the operands at the width of the code (R261). -/
def Obligations.IntegerResults : Prop :=
  (
  ∀ p ∈ ([(.add, fun _ x y => x + y), (.sub, fun _ x y => x - y), (.mul, fun _ x y => x * y),
      (.mulh, fun n x y => BitVec.ofInt n (x.toInt * y.toInt / 2 ^ n)),
      (.mulhu, fun n x y => BitVec.ofNat n (x.toNat * y.toNat / 2 ^ n)),
      (.div, fun _ x y => if y = 0 then -1 else x.sdiv y), (.divu, fun _ x y => if y = 0 then -1 else x.udiv y),
      (.rem, fun _ x y => if y = 0 then x else x.srem y), (.remu, fun _ x y => if y = 0 then x else x.umod y),
      (.and, fun _ x y => x &&& y), (.or, fun _ x y => x ||| y), (.xor, fun _ x y => x ^^^ y),
      (.shl, fun n x y => x <<< (y.toNat % n)), (.shr, fun n x y => x >>> (y.toNat % n)),
      (.sar, fun n x y => x.sshiftRight (y.toNat % n)), (.rol, fun n x y => x.rotateLeft (y.toNat % n)),
      (.min, fun _ x y => if x.toInt ≤ y.toInt then x else y), (.max, fun _ x y => if x.toInt ≤ y.toInt then y else x),
      (.minu, fun _ x y => if x.toNat ≤ y.toNat then x else y), (.maxu, fun _ x y => if x.toNat ≤ y.toNat then y else x)] :
      List ((GReg → GReg → GReg → BitVec 3 → Instr) × (∀ n, BitVec n → BitVec n → BitVec n))),
    ∀ (d a b : GReg) (w : BitVec 3) (s t : State), Issues s (usesG [d] [a, b]) t →
      ∃ n, exec (p.1 d a b w) s = .next n ∧ Retired 4 [d] t n ∧
        n.g d = Cap.ofWord (extended w (p.2 (intWidth w) ((t.ga a).setWidth _) ((t.ga b).setWidth _)))) ∧
  (
  ∀ (d a : GReg) (w : BitVec 3) (s t : State), Issues s (usesG [d] [a]) t →
    let n := intWidth w
    let x := (t.ga a).toNat % 2 ^ n
    (∃ u c, exec (.clz d a w) s = .next u ∧ Retired 4 [d] t u ∧ u.g d = Cap.ofWord (extended w (BitVec.ofNat n c)) ∧
      c ≤ n ∧ x < 2 ^ (n - c) ∧ (c < n → 2 ^ (n - c - 1) ≤ x)) ∧
    (∃ u c, exec (.ctz d a w) s = .next u ∧ Retired 4 [d] t u ∧ u.g d = Cap.ofWord (extended w (BitVec.ofNat n c)) ∧
      c ≤ n ∧ x % 2 ^ c = 0 ∧ (c < n → x / 2 ^ c % 2 = 1)) ∧
    (∃ u, exec (.popc d a w) s = .next u ∧ Retired 4 [d] t u ∧
      u.g d = Cap.ofWord (extended w (BitVec.ofNat n ((List.range n).countP x.testBit))))) ∧
  (
  ∀ (d a b : GReg) (w : BitVec 3) (s t : State), Issues s (usesG [d] [a, b]) t →
    let x := (t.ga a).setWidth (intWidth w)
    let y := (t.ga b).setWidth (intWidth w)
    ∀ p ∈ [(Instr.seq d a b w, decide (x = y)), (.sne d a b w, decide (x ≠ y)), (.slt d a b w, decide (x.toInt < y.toInt)),
        (.sltu d a b w, decide (x.toNat < y.toNat))],
      ∃ n, exec p.1 s = .next n ∧ Retired 4 [d] t n ∧ n.g d = Cap.ofWord (if p.2 then 1 else 0))

/-- EXT and INS move the field of length l + 1 at position g[rb] mod 64 (R262): bit by bit, EXT.N64 reads the field
with zeros above, EXT.I64 with its top bit above, and INS replaces the field of the old rd and keeps its other bits.
SEL writes g[ra] where g[rc] is not zero and g[rb] where it is, as an integer; MOV and C.MOV copy all 129 bits, the
tag with them (R263, R213). The immediate integer instructions (R264). -/
def Obligations.BitFieldsMovesAndImmediates : Prop :=
  (
  ∀ (d a b : GReg) (l : BitVec 6) (s t : State),
    let q := (t.ga b).toNat % 64
    let f (i : Nat) : Bool := (t.ga a).getLsbD (q + i)
    (Issues s (usesG [d] [a, b]) t →
      (∃ n, exec (.extN64 d a b l) s = .next n ∧ Retired 4 [d] t n ∧ (n.g d).tag = false ∧ (n.g d).hi = 0 ∧
        ∀ i < 64, (n.ga d).getLsbD i = (decide (i ≤ l.toNat) && f i)) ∧
      (∃ n, exec (.extI64 d a b l) s = .next n ∧ Retired 4 [d] t n ∧ (n.g d).tag = false ∧ (n.g d).hi = 0 ∧
        ∀ i < 64, (n.ga d).getLsbD i = f (min i l.toNat))) ∧
    (Issues s (usesG [d] [a, b, d]) t →
      ∃ n, exec (.ins d a b l) s = .next n ∧ Retired 4 [d] t n ∧ (n.g d).tag = false ∧ (n.g d).hi = 0 ∧
        ∀ i < 64, (n.ga d).getLsbD i =
          if q ≤ i ∧ i ≤ q + l.toNat then (t.ga a).getLsbD (i - q) else (t.ga d).getLsbD i)) ∧
  (
  ∀ (d a b c : GReg) (s t : State),
    (Issues s (usesG [d] [a, b, c]) t →
      ∃ n, exec (.sel d a b c) s = .next n ∧ Retired 4 [d] t n ∧
        n.g d = if t.ga c = 0 then Cap.ofWord (t.ga b) else Cap.ofWord (t.ga a)) ∧
    (Issues s (usesG [d] [a]) t →
      ∀ p ∈ [(Instr.mov d a, 4), (.cMov d a, 2)], ∃ n, exec p.1 s = .next n ∧ Retired p.2 [d] t n ∧ n.g d = t.g a)) ∧
  (
  ∀ (d a : GReg) (i : BitVec 12) (u : BitVec 6) (s t : State),
    (Issues s (usesG [d] [a]) t →
      ∀ p ∈ [(Instr.addi d a i, t.ga a + i.signExtend 64), (.andi d a i, t.ga a &&& i.signExtend 64),
          (.ori d a i, t.ga a ||| i.signExtend 64), (.xori d a i, t.ga a ^^^ i.signExtend 64),
          (.shli d a u, t.ga a <<< u.toNat), (.shri d a u, t.ga a >>> u.toNat), (.sari d a u, (t.ga a).sshiftRight u.toNat),
          (.lih d a i, i ++ (t.ga a).setWidth 52)],
        ∃ n, exec p.1 s = .next n ∧ Retired 4 [d] t n ∧ n.g d = Cap.ofWord p.2) ∧
    (Issues s (usesG [d] []) t →
      ∃ n, exec (.li d i) s = .next n ∧ Retired 4 [d] t n ∧ n.g d = Cap.ofWord (i.signExtend 64)))

/-- LI.W leaves its register as it is and its value unlanded, with producer distance 0 and PK = 0, and the landing
that the next instruction to issue makes, whichever it is, writes WriteInt of the immediate; its words, the parcel
0xFFC0 + rd and the four parcels of the immediate from the highest on, decode to it, so LI.W g5, #0x0231490000020000
is 0xFFC5, 0x0231, 0x4900, 0x0002, 0x0000 (R265, R217, R220). -/
def Obligations.LongImmediateLandsNext : Prop :=
  (∀ (d : GReg) (x : Word) (s t : State), Issues s { gw := [d.toNat], prod := some (0, false) } t →
    ∃ n, exec (.liW d x) s = .next n ∧ Retired 10 [] t n ∧
      (∃ p, n.sl.haz.getLast? = some p ∧ p.rem = 0 ∧ p.pk = false ∧ p.gs = [(d.toNat, Cap.ofWord x)]) ∧
      ∀ (u : Uses) (v : State), Issues n u v → v.g d = Cap.ofWord x ∧
        (t.sl.haz = [] → v.sl.haz = [] ∧ ∀ r, r ≠ d → v.g r = t.g r)) ∧
  (∀ (d : GReg) (x : Word),
    decodeBytes (leBytes 2 (0xFFC0 + d.toNat) ++
      (List.range 4).flatMap fun i => leBytes 2 (x.toNat / 2 ^ (48 - 16 * i) % 2 ^ 16)) = .ok (.liW d x, [])) ∧
  decodeBytes ([0xFFC5, 0x0231, 0x4900, 0x0002, 0x0000].flatMap (leBytes 2)) = .ok (.liW 5 0x0231490000020000, [])

/-- A compact parcel acts as the 32-bit instruction it stands for, at width 64 and with the same register as source
and destination, but for the length that moves PC (R213). CADD, CADDI and CSUB move the address and keep the upper
half; the tag stays only where the source is tagged and unsealed, the new address has bits [63:60] clear and lies in
the roam window (R266). -/
def Obligations.CompactAliases : Prop :=
  (
  ∀ (d a : GReg) (i u : BitVec 6) (s t : State),
    let e : BitVec 12 := i.signExtend 12
    let same (c f : Instr) : Prop := ∃ n m, exec c s = .next n ∧ exec f s = .next m ∧ Retired 2 [d] t n ∧ Retired 4 [d] t m ∧
      n.g d = m.g d
    (Issues s (usesG [d] [d, a]) t →
      ∀ p ∈ [(Instr.cAdd d a, Instr.add d d a 0), (.cSub d a, .sub d d a 0), (.cAnd d a, .and d d a 0),
          (.cOr d a, .or d d a 0), (.cXor d a, .xor d d a 0), (.cShl d a, .shl d d a 0), (.cShr d a, .shr d d a 0),
          (.cSar d a, .sar d d a 0), (.cMul d a, .mul d d a 0), (.cMin d a, .min d d a 0), (.cMax d a, .max d d a 0),
          (.cMinu d a, .minu d d a 0), (.cMaxu d a, .maxu d d a 0), (.cSlt d a, .slt d d a 0)], same p.1 p.2) ∧
    (Issues s (usesG [d] [a]) t → same (.cMov d a) (.mov d a)) ∧
    (Issues s (usesG [d] [d]) t →
      ∀ p ∈ [(Instr.cAddi d i, Instr.addi d d e), (.cAndi d i, .andi d d e), (.cShli d u, .shli d d u),
          (.cShri d u, .shri d d u), (.cSari d u, .sari d d u), (.cCaddi d i, .caddi d d e)], same p.1 p.2) ∧
    (Issues s (usesG [d] []) t → same (.cLi d i) (.li d e))) ∧
  (
  ∀ (d a b : GReg) (i : BitVec 12) (s t : State),
    let c := t.g a
    let moved (n : State) (x : Word) : Prop := Retired 4 [d] t n ∧ (n.g d).hi = c.hi ∧ (n.g d).addr = x ∧
      ((n.g d).tag = true ↔ c.tag = true ∧ c.hi.getLsbD 55 = false ∧ x.toNat < 2 ^ 60 ∧ inRoam c.addr.toNat c.hi.toNat x.toNat)
    (Issues s (usesG [d] [a, b]) t →
      (∃ n, exec (.cadd d a b) s = .next n ∧ moved n (t.ga a + t.ga b)) ∧
      (∃ n, exec (.csub d a b) s = .next n ∧ moved n (t.ga a - t.ga b))) ∧
    (Issues s (usesG [d] [a]) t → ∃ n, exec (.caddi d a i) s = .next n ∧ moved n (t.ga a + i.signExtend 64)))

/-- CSETB keeps the address and every field above BE; BE is the smallest exponent at which the rounded bounds fit,
with BB and BT the rounded base and top at it, or 63 with BB and BT 0 where none fits; the result is tagged exactly
where the source is tagged and unsealed, the base lies below 2^60 and the rounded bounds lie within the source's, and
a tagged result covers [base, base + length) and lies within the source (R267). CSETC, at system privilege, writes any
address and upper half, tagged where the upper half is valid and the address lies below 2^60 and in its roam window
(R270). The inspection instructions read the address, base, top, permissions, format and tag of any register; CCLR
copies its 128 bits with tag 0 (R271). -/
def Obligations.BoundsNeverWiden : Prop :=
  (
  ∀ (d a b : GReg) (s t : State), Issues s (usesG [d] [a, b]) t →
    let base := (t.ga a).toNat
    let top := base + (t.ga b).toNat
    let down (e x : Nat) : Nat := x / 2 ^ e * 2 ^ e
    let up (e x : Nat) : Nat := (x + 2 ^ e - 1) / 2 ^ e * 2 ^ e
    let fits (e : Nat) : Prop := e ≤ 42 ∧ up e top - down e base ≤ (2 ^ 18 - 1) * 2 ^ e ∧ up e top ≤ 2 ^ 60
    let kept (x y : Nat) : Prop := (t.g a).tag = true ∧ (t.g a).isSealed = false ∧ base < 2 ^ 60 ∧
      (t.g a).bounds.1 ≤ x ∧ (y : Int) ≤ (t.g a).bounds.2
    ∃ n, exec (.csetb d a b) s = .next n ∧ Retired 4 [d] t n ∧
      let c := n.g d
      c.addr = t.ga a ∧ c.hi.extractLsb 63 42 = (t.g a).hi.extractLsb 63 42 ∧
      (∀ e, fits e → (∀ k, k < e → ¬ fits k) → c.hi.extractLsb' 36 6 = BitVec.ofNat 6 e ∧
        c.hi.extractLsb' 18 18 = BitVec.ofNat 18 (base / 2 ^ e) ∧ c.hi.extractLsb' 0 18 = BitVec.ofNat 18 (up e top / 2 ^ e) ∧
        (c.tag = true ↔ kept (down e base) (up e top))) ∧
      ((∀ e, ¬ fits e) → c.hi.extractLsb' 36 6 = 63 ∧ c.hi.extractLsb' 0 36 = 0 ∧ (c.tag = true ↔ kept 0 (2 ^ 60))) ∧
      (c.tag = true → (t.g a).bounds.1 ≤ c.bounds.1 ∧ c.bounds.2 ≤ (t.g a).bounds.2 ∧ c.bounds.1 ≤ base ∧
        (top : Int) ≤ c.bounds.2)) ∧
  (
  ∀ (d a b : GReg) (s t : State), Issues s { usesG [d] [a, b] with sysOnly := true } t →
    ∃ n, exec (.csetc d a b) s = .next n ∧ Retired 4 [d] t n ∧ (n.g d).addr = t.ga a ∧ (n.g d).hi = t.ga b ∧
      ((n.g d).tag = true ↔ upperValid (t.ga a).toNat (t.ga b).toNat = true ∧ (t.ga a).toNat < 2 ^ 60 ∧
        inRoam (t.ga a).toNat (t.ga b).toNat (t.ga a).toNat = true)) ∧
  (
  ∀ (d a : GReg) (s t : State), Issues s (usesG [d] [a]) t →
    let c := t.g a
    (∀ p ∈ [(Instr.cgeta d a, c.addr), (.cgetb d a, BitVec.ofInt 64 c.bounds.1), (.cgett d a, BitVec.ofInt 64 c.bounds.2),
        (.cgetp d a, (c.hi.extractLsb 63 52).setWidth 64),
        (.cgetf d a, (c.hi.extractLsb' 47 5 ++ (0 : BitVec 1) ++ c.hi.extractLsb' 44 3 ++ (0 : BitVec 2) ++
          c.hi.extractLsb' 42 2).setWidth 64),
        (.ctag d a, if c.tag then 1 else 0)],
      ∃ n, exec p.1 s = .next n ∧ Retired 4 [d] t n ∧ n.g d = Cap.ofWord p.2) ∧
    (∃ n, exec (.cclr d a) s = .next n ∧ Retired 4 [d] t n ∧ n.g d = { tag := false, hi := c.hi, addr := c.addr }))

/-- CSETP (major 0x2D) intersects PERM with the mask, and CSETF (major 0x2E) writes FMT, BLK and CLS; every other
field is that of the source, and the tag is kept only of a tagged and unsealed source, by CSETF only for a valid
format and a class that was 0 or is not changed (R268, R269). -/
def Obligations.PermissionAndFormat : Prop :=
  (∀ (d a b : GReg) (s t : State), Issues s (usesG [d] [a, b]) t →
    let c := t.g a
    let m := t.ga b
    (∃ n, exec (.csetp d a b) s = .next n ∧ Retired 4 [d] t n ∧ (n.g d).addr = c.addr ∧
      (n.g d).hi.extractLsb 63 52 = (c.hi.extractLsb 63 52 &&& m.setWidth 12 &&& 0xFFC) ∧
      (n.g d).hi.extractLsb 51 0 = c.hi.extractLsb 51 0 ∧ ((n.g d).tag = true ↔ c.tag = true ∧ c.isSealed = false)) ∧
    (∃ n, exec (.csetf d a b) s = .next n ∧ Retired 4 [d] t n ∧ (n.g d).addr = c.addr ∧
      (n.g d).hi.extractLsb 63 52 = c.hi.extractLsb 63 52 ∧ (n.g d).hi.extractLsb 41 0 = c.hi.extractLsb 41 0 ∧
      (n.g d).hi.extractLsb 51 47 = m.extractLsb 12 8 ∧ (n.g d).hi.extractLsb 46 44 = m.extractLsb 6 4 ∧
      (n.g d).hi.extractLsb 43 42 = m.extractLsb 1 0 ∧
      ((n.g d).tag = true ↔ c.tag = true ∧ c.isSealed = false ∧ formatValid (n.g d).fmt (n.g d).blk = true ∧
        (c.cls = 0 ∨ (n.g d).cls = c.cls)))) ∧
  (∀ d a b : GReg, ∀ p ∈ [(0x2D, Instr.csetp d a b), (0x2E, .csetf d a b)],
    decodeBytes (leBytes 2 (0xC000 + 64 * p.1 + 2 * d.toNat + a.toNat / 16) ++
      leBytes 2 (4096 * (a.toNat % 16) + 128 * b.toNat)) = .ok (p.2, []))

/-- A transfer through PC installs PC plus twice the offset, moved as CADD moves it, with bit 0 clear; JAL writes the
link, PC plus 4; BCC tests its two registers and falls through where the condition fails (R273). The target passes the
checks of R272. JALR goes to g[ra] moved by its displacement, read before the link is written, and RET to g[ra], which
is not all zero (R274). -/
def Obligations.TransfersOfControl : Prop :=
  (
  ∀ (d a : GReg) (o : BitVec 17) (i : BitVec 12) (s t : State),
    let pc := t.sl.pc
    (∀ off : Word, targetFault t (evenTarget (pc.move (pc.addr + 2 * off))) = none →
      (off = o.signExtend 64 → Issues s {} t →
        ∃ n, exec (.br o) s = .next n ∧ Jumped (evenTarget (pc.move (pc.addr + 2 * off))) [] t n) ∧
      (off = o.signExtend 64 → Issues s (usesG [d] []) t →
        ∃ n, exec (.jal d o) s = .next n ∧ Jumped (evenTarget (pc.move (pc.addr + 2 * off))) [d] t n ∧
          n.g d = pc.move (pc.addr + 4)) ∧
      (off = i.signExtend 64 → Issues s (usesG [] [d, a]) t →
        ∀ p ∈ [(Instr.bccEq d a i, decide (t.ga d = t.ga a)), (.bccNe d a i, decide (t.ga d ≠ t.ga a)),
            (.bccLt d a i, decide ((t.ga d).toInt < (t.ga a).toInt)), (.bccGe d a i, decide ((t.ga a).toInt ≤ (t.ga d).toInt)),
            (.bccLtu d a i, decide ((t.ga d).toNat < (t.ga a).toNat)),
            (.bccGeu d a i, decide ((t.ga a).toNat ≤ (t.ga d).toNat))],
          p.2 = true → ∃ n, exec p.1 s = .next n ∧ Jumped (evenTarget (pc.move (pc.addr + 2 * off))) [] t n)) ∧
    (Issues s (usesG [] [d, a]) t →
      ∀ p ∈ [(Instr.bccEq d a i, decide (t.ga d = t.ga a)), (.bccNe d a i, decide (t.ga d ≠ t.ga a)),
          (.bccLt d a i, decide ((t.ga d).toInt < (t.ga a).toInt)), (.bccGe d a i, decide ((t.ga a).toInt ≤ (t.ga d).toInt)),
          (.bccLtu d a i, decide ((t.ga d).toNat < (t.ga a).toNat)),
          (.bccGeu d a i, decide ((t.ga a).toNat ≤ (t.ga d).toNat))],
        p.2 = false → ∃ n, exec p.1 s = .next n ∧ Retired 4 [] t n)) ∧
  (
  ∀ (d a : GReg) (i : BitVec 12) (s t : State),
    (Issues s (usesG [d] [a]) t →
      let target := evenTarget ((t.g a).move (t.ga a + i.signExtend 64))
      targetFault t target = none →
        ∃ n, exec (.jalr d a i) s = .next n ∧ Jumped target [d] t n ∧ n.g d = t.sl.pc.move (t.sl.pc.addr + 4)) ∧
    (Issues s (usesG [] [a]) t → t.g a ≠ { tag := false, hi := 0, addr := 0 } → targetFault t (evenTarget (t.g a)) = none →
      (∃ n, exec (.ret a) s = .next n ∧ Jumped (evenTarget (t.g a)) [] t n) ∧
      (a = 0 → ∃ n, exec .cRet s = .next n ∧ Jumped (evenTarget (t.g 0)) [] t n)))

/-- A transfer whose target fails the checks of R272 traps at the transferring instruction, and no register is
written: an untagged target raises 0x05, and 0x07 a sealed one, one without execute permission, and in a wayfarer one
whose upper half is not that of the job's code capability; EADDR is the target. So do BR, JAL, JALR, a BCC whose
condition holds, RET and C.RET. A scalar, acquire or capability load, a scalar, release or capability store or an
atomic whose capability is untagged traps with 0x05, and one through a capability that is sealed or lacks a permission
that it needs with 0x07; EADDR is the address, and nothing is read or written (R30, R37, R47, R284). -/
def Obligations.BadTargetsAndMissingCapabilitiesTrap : Prop :=
  (
  ∀ (d a : GReg) (i : BitVec 12) (o : BitVec 17) (s t : State) (cause : Nat) (c : Cap),
    (c.tag = false ∧ cause = 0x05) ∨ (c.tag = true ∧ cause = 0x07 ∧
      (c.isSealed = true ∨ c.canExecute = false ∨ (t.sl.wayfarer = true ∧ c.hi ≠ t.job.code.hi))) →
    let pc := t.sl.pc
    let traps (j : Instr) : Prop := exec j s = .next (t.takeTrap cause pc.addr c.addr)
    (Issues s {} t → c = evenTarget (pc.move (pc.addr + 2 * o.signExtend 64)) → traps (.br o)) ∧
    (Issues s (usesG [d] []) t → c = evenTarget (pc.move (pc.addr + 2 * o.signExtend 64)) → traps (.jal d o)) ∧
    (Issues s (usesG [d] [a]) t → c = evenTarget ((t.g a).move (t.ga a + i.signExtend 64)) → traps (.jalr d a i)) ∧
    (Issues s (usesG [] [d, a]) t → c = evenTarget (pc.move (pc.addr + 2 * i.signExtend 64)) →
      ∀ p ∈ [(Instr.bccEq d a i, decide (t.ga d = t.ga a)), (.bccNe d a i, decide (t.ga d ≠ t.ga a)),
          (.bccLt d a i, decide ((t.ga d).toInt < (t.ga a).toInt)), (.bccGe d a i, decide ((t.ga a).toInt ≤ (t.ga d).toInt)),
          (.bccLtu d a i, decide ((t.ga d).toNat < (t.ga a).toNat)),
          (.bccGeu d a i, decide ((t.ga a).toNat ≤ (t.ga d).toNat))], p.2 = true → traps p.1) ∧
    (Issues s (usesG [] [a]) t → t.g a ≠ { tag := false, hi := 0, addr := 0 } → c = evenTarget (t.g a) →
      traps (.ret a) ∧ (a = 0 → traps .cRet))) ∧
  (
  ∀ (d a b c : GReg) (i : BitVec 12) (w : BitVec 3) (z o : BitVec 2) (s t : State),
    let x := t.ga a + i.signExtend 64
    let cap := t.g a
    let stops (j : Instr) (has : Bool) (y : Word) : Prop :=
      (cap.tag = false → exec j s = .next (t.takeTrap 0x05 t.sl.pc.addr y)) ∧
      (cap.tag = true → (cap.isSealed = true ∨ has = false) → exec j s = .next (t.takeTrap 0x07 t.sl.pc.addr y))
    (Issues s (usesG [d] [a]) t →
      ∀ j ∈ [Instr.ldI8 d a i, .ldI16 d a i, .ldI32 d a i, .ldI64 d a i, .ldN8 d a i, .ldN16 d a i, .ldN32 d a i, .ldN64 d a i,
          .ldc d a i], stops j cap.canLoad x) ∧
    (Issues s (usesG [] [d, a]) t →
      (∀ j ∈ [Instr.st8 d a i, .st16 d a i, .st32 d a i, .st64 d a i], stops j cap.canStore x) ∧
      stops (.stc d a i) (cap.canStore && (!(t.g d).tag || cap.canStoreCap)) x) ∧
    (scopeBad (t.ga b) = false →
      (Issues s (usesG [d] [a, b]) t → stops (.ldAcq d a b w) cap.canLoad (t.ga a)) ∧
      (Issues s (usesG [] [d, a, b]) t → stops (.stRel d a b z) cap.canStore (t.ga a))) ∧
    ((o = 0 ∨ scopeBad (t.ga c) = false) →
      let all := cap.canLoad && cap.canStore && cap.canAtomic
      (Issues s (atomicUses d [a, b] c o) t →
        ∀ f ∈ [Instr.amoAddN32, .amoAddN64, .amoAndN32, .amoAndN64, .amoOrN32, .amoOrN64, .amoXorN32, .amoXorN64, .amoMinI32,
            .amoMinI64, .amoMaxI32, .amoMaxI64, .amoMinuN32, .amoMinuN64, .amoMaxuN32, .amoMaxuN64, .amoSwapN32, .amoSwapN64,
            .amoFaddF32, .amoFaddBf16], stops (f d a b c o) all (t.ga a)) ∧
      (Issues s (atomicUses d [a, b, d] c o) t → ∀ j ∈ [Instr.casN32 d a b c o, .casN64 d a b c o], stops j all (t.ga a))))

/-- GANG of 2, 4 or 8 of the slots a thread reserves puts the gang in force, after every result has landed, and UNGANG
ends it; TSYNC lands every result; NOP does nothing (R170, R172, R275, R278). YIELD leaves the thread Ready with the
newest service stamp of its core, so that it comes after every slot served before, and changes no register (R276); in
the handler slot it raises handler wait. -/
def Obligations.GangsLandingAndYield : Prop :=
  (
  (∀ (i : BitVec 12) (s t : State), Issues s { sync := true } t → t.slot ≠ 0 → t.sl.wayfarer = false →
    (i = 2 ∨ i = 4 ∨ i = 8) → i.toNat ≤ t.sl.gang.reserved → t.sl.gang.size = 1 → ¬ (i = 8 ∧ tier t.core = 3) →
    ∃ n, exec (.gang i) s = .next n ∧ SameAround t n ∧ SameG [] t n ∧ SameSlot t.sl { n.sl with gang := t.sl.gang } ∧
      n.sl.gang = { t.sl.gang with size := i.toNat } ∧ n.sl.haz = [] ∧ n.sl.pc = { t.sl.pc with addr := t.sl.pc.addr + 4 }) ∧
  (∀ s t : State, Issues s { sync := true } t →
    (∀ p ∈ [(Instr.ungang, 4), (.cUngang, 2)], ∃ n, exec p.1 s = .next n ∧ SameAround t n ∧ SameG [] t n ∧
      SameSlot t.sl { n.sl with gang := t.sl.gang } ∧ n.sl.gang = { t.sl.gang with size := 1 } ∧ n.sl.haz = [] ∧
      n.sl.pc = { t.sl.pc with addr := t.sl.pc.addr + BitVec.ofNat 64 p.2 }) ∧
    (∀ p ∈ [(Instr.tsync, 4), (.cTsync, 2)], ∃ n, exec p.1 s = .next n ∧ Retired p.2 [] t n ∧ n.sl.haz = [])) ∧
  (∀ s t : State, Issues s {} t →
    ∀ p ∈ [(Instr.nop, 4), (.cNop, 2)], ∃ n, exec p.1 s = .next n ∧ Retired p.2 [] t n)) ∧
  (
  ∀ (s t : State), Issues s {} t → ∀ p ∈ [(Instr.yield, 4), (.cYield, 2)],
    (t.slot ≠ 0 →
      ∃ n, exec p.1 s = .next n ∧ n.sl.st = .ready ∧ SameG [] t n ∧ SameSlot t.sl n.sl ∧ n.mem = t.mem ∧ n.net = t.net ∧
        n.sl.pc = { t.sl.pc with addr := t.sl.pc.addr + BitVec.ofNat 64 p.2 } ∧
        n.sl.stamp = t.cr.stampCounter + 1 ∧ n.cr.stampCounter = n.sl.stamp ∧
        ∀ i, i ≠ t.slot → n.slotAt t.core i = t.slotAt t.core i) ∧
    (t.slot = 0 → exec p.1 s = .next (t.takeTrap 0x0E t.sl.pc.addr 0)))

/-- WAIT ends where a condition holds and reports every one that does: the deadline in bit 0, an entry of the
pigeonhole in bit 1, a value at a mailbox in bit 2; where none holds the thread is Waiting at the WAIT, and when a
condition comes the WAIT retires then, with what holds in its register; in the handler slot it raises handler wait
(R277). RETIRE empties the slot and advances its generation, and counts one completion at the counter of the thread's
team, or of its task where it has no team, and no other counter where that one does not end; RET and C.RET through an
all-zero register act as RETIRE; while a register of the frame is leased the thread is stalled, its gang and its
unlanded results already gone; in the handler slot RETIRE raises illegal operand (R274, R279, R175). -/
def Obligations.WaitsReportAndThreadsRetire : Prop :=
  (
  ∀ (d a : GReg) (w : BitVec 2) (s t : State), Issues s (usesG [d] [a]) t →
    let due := decide ((t.ga a).toNat ≤ t.ts.toNat)
    let entry := w.getLsbD 0 && !t.cr.msg.pigeonhole.isEmpty
    let value := w.getLsbD 1 && t.cr.ports.any (fun (_, p) => p.bind == .mailbox && !p.q.isEmpty)
    let reason : Word := (BitVec.ofBool value ++ BitVec.ofBool entry ++ BitVec.ofBool due).setWidth 64
    (t.slot ≠ 0 → (due || entry || value) = true →
      ∃ n, exec (.wait d a w) s = .next n ∧ Retired 4 [d] t n ∧ n.g d = Cap.ofWord reason) ∧
    (t.slot ≠ 0 → (due || entry || value) = false →
      ∃ n, exec (.wait d a w) s = .next n ∧ SameG [] t n ∧ n.sl.st = .waiting ∧ n.sl.pc = t.sl.pc ∧
        n.sl.await = .wait d (t.ga a).toNat w) ∧
    (t.sl.st = .waiting → t.sl.await = .wait d (t.ga a).toNat w → (due || entry || value) = true →
      let n := t.modSl (Slot.endWait t.cr t.ts.toNat)
      n.sl.st = .ready ∧ n.g d = Cap.ofWord reason ∧ SameG [d] t n ∧ n.sl.pc = { t.sl.pc with addr := t.sl.pc.addr + 4 }) ∧
    (t.slot = 0 → exec (.wait d a w) s = .next (t.takeTrap 0x0E t.sl.pc.addr 0))) ∧
  (
  ∀ (a : GReg) (s t : State),
    let x := t.sl
    let h := x.mem.team.getD x.mem.ctr
    let ended (n : State) : Prop :=
      n.slotAt t.core t.slot = { gen := x.gen + 1 } ∧ n.mem = t.mem ∧
      ((t.counterAt h).closed = false → 1 < (t.counterAt h).count →
        n.counterAt h = { t.counterAt h with count := (t.counterAt h).count - 1 } ∧ ∀ k, k ≠ h → n.counterAt k = t.counterAt k) ∧
      ((t.counterAt h).closed = false → (t.counterAt h).count = 1 → (t.counterAt h).parent = none →
        n.counterAt h = { t.counterAt h with count := 0 } ∧ ∀ k, k ≠ h → n.counterAt k = t.counterAt k)
    (Issues s {} t → t.slot ≠ 0 → t.unleased = true →
      ∀ i ∈ [Instr.retire, .cRetire], ∃ n, exec i s = .next n ∧ ended n) ∧
    (Issues s (usesG [] [a]) t → t.slot ≠ 0 → t.unleased = true → t.g a = { tag := false, hi := 0, addr := 0 } →
      (∃ n, exec (.ret a) s = .next n ∧ ended n) ∧ (a = 0 → ∃ n, exec .cRet s = .next n ∧ ended n)) ∧
    (Issues s {} t → t.slot ≠ 0 → t.unleased = false →
      ∀ i ∈ [Instr.retire, .cRetire], ∃ n, exec i s = .next n ∧ n.sl.st = .stalled ∧ n.sl.await = .room ∧ n.sl.haz = [] ∧
        n.sl.gang = {} ∧ n.sl.pc = x.pc) ∧
    (Issues s {} t → t.slot = 0 → ∀ i ∈ [Instr.retire, .cRetire], exec i s = .next (t.takeTrap 0x02 t.sl.pc.addr 0)))

/-- A scalar load of one piece that the core itself serves reads its bytes, little-endian, and extends them by the
suffix: I by sign, N by zero (R286); nothing else changes (which value a racing read returns is log 4). A scalar load
or store that straddles two granules, both pieces served by the core itself, reads and writes the bytes of both in
address order (R103, R286). A scalar load from another core sends one LOAD request to the core that the address names,
under a free tag, and the thread is Stalled with PC as it was (R102, R103, R286; a page of the own slice that is being
moved is another case, and what the reply does is stated with the replies). -/
def Obligations.LoadsReadTheirBytes : Prop :=
  (
  ∀ (d a : GReg) (i : BitVec 12) (s t : State) (k : Nat), Issues s (usesG [d] [a]) t →
    let x := t.ga a + i.signExtend 64
    ∀ p ∈ [(Instr.ldI8 d a i, 1, true), (.ldI16 d a i, 2, true), (.ldI32 d a i, 4, true), (.ldI64 d a i, 8, true),
        (.ldN8 d a i, 1, false), (.ldN16 d a i, 2, false), (.ldN32 d a i, 4, false), (.ldN64 d a i, 8, false)],
      t.migrationTarget (t.g a) loadNeed x.toNat p.2.1 = none → Reaches t (t.g a) loadNeed x.toNat p.2.1 k →
        let v := BitVec.ofNat (8 * p.2.1) (t.readNat k p.2.1)
        ∃ n, exec p.1 s = .next n ∧ Retired 4 [d] t n ∧
          n.g d = Cap.ofWord (if p.2.2 then v.signExtend 64 else v.setWidth 64)) ∧
  (
  ∀ (d a : GReg) (i : BitVec 12) (s t : State) (k1 k2 m : Nat),
    let x := (t.ga a + i.signExtend 64).toNat
    t.sl.wayfarer = false → 0 < m →
    (Issues s (usesG [d] [a]) t →
      ∀ p ∈ [(Instr.ldI16 d a i, 2, true), (.ldI32 d a i, 4, true), (.ldI64 d a i, 8, true),
          (.ldN16 d a i, 2, false), (.ldN32 d a i, 4, false), (.ldN64 d a i, 8, false)],
        m < p.2.1 → ReachesTwo t (t.g a) loadNeed x p.2.1 m k1 k2 →
          let v := BitVec.ofNat (8 * p.2.1) (t.readNat k1 m + 2 ^ (8 * m) * t.readNat k2 (p.2.1 - m))
          ∃ n, exec p.1 s = .next n ∧ Retired 4 [d] t n ∧
            n.g d = Cap.ofWord (if p.2.2 then v.signExtend 64 else v.setWidth 64)) ∧
    (Issues s (usesG [] [d, a]) t →
      ∀ p ∈ [(Instr.st16 d a i, 2), (.st32 d a i, 4), (.st64 d a i, 8)],
        m < p.2 → ReachesTwo t (t.g a) storeNeed x p.2 m k1 k2 → k1 + m ≤ k2 →
          ∃ n, exec p.1 s = .next n ∧ Retired 4 [] t (n.memoryOf t) ∧
            (t.ga d).toNat % 2 ^ (8 * p.2) = n.readNat k1 m + 2 ^ (8 * m) * n.readNat k2 (p.2 - m) ∧
            ∀ j, (j < k1 ∨ k1 + m ≤ j) → (j < k2 ∨ k2 + (p.2 - m) ≤ j) → n.byteAt j = t.byteAt j)) ∧
  (
  ∀ (d a : GReg) (i : BitVec 12) (s t : State) (dst : Coord) (addr tag : Nat),
    Issues s (usesG [d] [a]) t → t.slot ≠ 0 → t.sl.wayfarer = false →
    let x := (t.ga a + i.signExtend 64).toNat
    ∀ p ∈ [(Instr.ldI8 d a i, 1), (.ldI16 d a i, 2), (.ldI32 d a i, 4), (.ldI64 d a i, 8),
        (.ldN8 d a i, 1), (.ldN16 d a i, 2), (.ldN32 d a i, 4), (.ldN64 d a i, 8)],
      ReachesFar t (t.g a) loadNeed x p.2 dst addr → freeTag t.cr.msg = some tag → (t.sendQueue t.core false).length < 16 →
        ¬ (dst = t.core ∧ paKind addr < 2) →
        ∃ n, exec p.1 s = .next n ∧ SameG [] t n ∧ n.sl.st = .stalled ∧ n.sl.pc = t.sl.pc ∧ n.mem = t.mem ∧
          n.net = t.net ++ [{ dst, src := t.core, op := 0x00, rq := true, slot := t.slot, gen := t.sl.gen, tag, bc := p.2 - 1
                              addr, via := .thread t.slot, ts := t.ts }] ∧
          tag ∈ n.cr.msg.tags)

/-- A scalar store of one piece that the core itself serves writes the low bytes of its register, little-endian, from
the address its checks give, and clears the tags of the granules it touches; every other byte and tag, every register
and everything else stays (R286, R38). LD.ACQ and ST.REL read and write as LD and ST do, at the width of their code
and at the address of g[ra] (R288). -/
def Obligations.StoresWriteTheirBytes : Prop :=
  (
  ∀ (d a : GReg) (i : BitVec 12) (s t : State) (k : Nat), Issues s (usesG [] [d, a]) t →
    let x := t.ga a + i.signExtend 64
    ∀ p ∈ [(Instr.st8 d a i, 1), (.st16 d a i, 2), (.st32 d a i, 4), (.st64 d a i, 8)],
      t.migrationTarget (t.g a) storeNeed x.toNat p.2 = none → Reaches t (t.g a) storeNeed x.toNat p.2 k →
        ∃ n, exec p.1 s = .next n ∧ Retired 4 [] t (n.memoryOf t) ∧ n.readNat k p.2 = (t.ga d).toNat % 2 ^ (8 * p.2) ∧
          (∀ j, (j < k ∨ k + p.2 ≤ j) → n.byteAt j = t.byteAt j) ∧
          (∀ g, g ∈ n.tags ↔ g ∈ t.tags ∧ ¬ (k / 16 ≤ g ∧ g ≤ (k + p.2 - 1) / 16))) ∧
  (
  ∀ (d a b : GReg) (w : BitVec 3) (z : BitVec 2) (s t : State) (k : Nat), scopeBad (t.ga b) = false →
    (Issues s (usesG [d] [a, b]) t →
      let need : Need := { l := true, oneGranule := true }
      t.migrationTarget (t.g a) need (t.ga a).toNat (intWidth w / 8) = none →
      Reaches t (t.g a) need (t.ga a).toNat (intWidth w / 8) k →
        ∃ n, exec (.ldAcq d a b w) s = .next n ∧ Retired 4 [d] t n ∧
          n.g d = Cap.ofWord (extended w (BitVec.ofNat (intWidth w) (t.readNat k (intWidth w / 8))))) ∧
    (Issues s (usesG [] [d, a, b]) t →
      let need : Need := { s := true, oneGranule := true }
      let size := [8, 4, 2, 1].getD z.toNat 0
      t.migrationTarget (t.g a) need (t.ga a).toNat size = none → Reaches t (t.g a) need (t.ga a).toNat size k →
        ∃ n, exec (.stRel d a b z) s = .next n ∧ Retired 4 [] t (n.memoryOf t) ∧
          n.readNat k size = (t.ga d).toNat % 2 ^ (8 * size) ∧
          (∀ j, (j < k ∨ k + size ≤ j) → n.byteAt j = t.byteAt j) ∧
          (∀ g, g ∈ n.tags ↔ g ∈ t.tags ∧ ¬ (k / 16 ≤ g ∧ g ≤ (k + size - 1) / 16))))

/-- LDC reads a granule with its tag, which is 0 where the capability used lacks LC, and STC writes all 129 bits
(R287). FENCE of a kind and a scope that is well formed, IFENCE and PREF retire and change no register, no byte and no
message: earlier accesses of the thread have been performed when they issue (R289, R290, R291; log 4). -/
def Obligations.CapabilitiesInMemoryAndFences : Prop :=
  (
  ∀ (d a : GReg) (i : BitVec 12) (s t : State) (k : Nat), k % 16 = 0 →
    let x := (t.ga a + i.signExtend 64).toNat
    (Issues s (usesG [d] [a]) t → region x ≠ 5 →
      let need : Need := { l := true, align := 16 }
      t.migrationTarget (t.g a) need x 16 = none → Reaches t (t.g a) need x 16 k →
        ∃ n, exec (.ldc d a i) s = .next n ∧ Retired 4 [d] t n ∧
          n.g d = { t.readCap k with tag := (t.readCap k).tag && (t.g a).canLoadCap }) ∧
    (Issues s (usesG [] [d, a]) t →
      let need : Need := { s := true, align := 16, storesCap := if (t.g d).tag then some (t.g d).isGlobal else none }
      t.migrationTarget (t.g a) need x 16 = none → Reaches t (t.g a) need x 16 k →
        ∃ n, exec (.stc d a i) s = .next n ∧ Retired 4 [] t (n.memoryOf t) ∧ n.readCap k = t.g d ∧
          (∀ j, (j < k ∨ k + 16 ≤ j) → n.byteAt j = t.byteAt j) ∧
          (∀ g, g ≠ k / 16 → (g ∈ n.tags ↔ g ∈ t.tags)))) ∧
  (
  (∀ (a : GReg) (o : BitVec 2) (s t : State), Issues s (usesG [] [a]) t → scopeBad (t.ga a) = false → o ≠ 0 →
    ∃ n, exec (.fence a o) s = .next n ∧ Retired 4 [] t n) ∧
  (∀ s t : State, Issues s {} t → ∃ n, exec .ifence s = .next n ∧ Retired 4 [] t n) ∧
  (∀ (h : BitVec 5) (a : GReg) (i : BitVec 12) (s t : State), Issues s (usesG [] [a]) t →
    ∃ n, exec (.pref h a i) s = .next n ∧ Retired 4 [] t (n.modCr fun x => { x with tlb := t.cr.tlb })))

/-- An atomic that the core itself serves writes its result in one step, returns the old value, sign-extended for
signed minimum and maximum and else zero-extended, and changes no other byte (R295). CAS writes the new value where
the old one equals the low bytes of g[rd], and returns the old value, zero-extended (R295). -/
def Obligations.AtomicsReadModifyWrite : Prop :=
  (
  ∀ (d a b c : GReg) (o : BitVec 2) (s t : State) (k : Nat), Issues s (atomicUses d [a, b] c o) t →
    (o = 0 ∨ scopeBad (t.ga c) = false) →
    ∀ p ∈ ([(.amoAddN32, 4, false, fun _ x y => x + y), (.amoAddN64, 8, false, fun _ x y => x + y),
        (.amoAndN32, 4, false, fun _ x y => x &&& y), (.amoAndN64, 8, false, fun _ x y => x &&& y),
        (.amoOrN32, 4, false, fun _ x y => x ||| y), (.amoOrN64, 8, false, fun _ x y => x ||| y),
        (.amoXorN32, 4, false, fun _ x y => x ^^^ y), (.amoXorN64, 8, false, fun _ x y => x ^^^ y),
        (.amoMinI32, 4, true, fun _ x y => if x.toInt ≤ y.toInt then x else y),
        (.amoMinI64, 8, true, fun _ x y => if x.toInt ≤ y.toInt then x else y),
        (.amoMaxI32, 4, true, fun _ x y => if x.toInt ≤ y.toInt then y else x),
        (.amoMaxI64, 8, true, fun _ x y => if x.toInt ≤ y.toInt then y else x),
        (.amoMinuN32, 4, false, fun _ x y => if x.toNat ≤ y.toNat then x else y),
        (.amoMinuN64, 8, false, fun _ x y => if x.toNat ≤ y.toNat then x else y),
        (.amoMaxuN32, 4, false, fun _ x y => if x.toNat ≤ y.toNat then y else x),
        (.amoMaxuN64, 8, false, fun _ x y => if x.toNat ≤ y.toNat then y else x),
        (.amoSwapN32, 4, false, fun _ _ y => y), (.amoSwapN64, 8, false, fun _ _ y => y),
        (.amoFaddF32, 4, false, fun m x y => BitVec.ofNat m (fpAdd 1 0 x.toNat y.toNat).1),
        (.amoFaddBf16, 2, false, fun m x y => BitVec.ofNat m (fpAdd 3 0 x.toNat y.toNat).1)] :
        List ((GReg → GReg → GReg → GReg → BitVec 2 → Instr) × Nat × Bool × (∀ m, BitVec m → BitVec m → BitVec m))),
      let size := p.2.1
      let need := atomicNeed size
      t.migrationTarget (t.g a) need (t.ga a).toNat size = none → Reaches t (t.g a) need (t.ga a).toNat size k →
        let old := BitVec.ofNat (8 * size) (t.readNat k size)
        ∃ n, exec (p.1 d a b c o) s = .next n ∧ Retired 4 [d] t (n.memoryOf t) ∧
          n.g d = Cap.ofWord (if p.2.2.1 then old.signExtend 64 else old.setWidth 64) ∧
          n.readNat k size = (p.2.2.2 (8 * size) old ((t.ga b).setWidth _)).toNat ∧
          ∀ j, (j < k ∨ k + size ≤ j) → n.byteAt j = t.byteAt j) ∧
  (
  ∀ (d a b c : GReg) (o : BitVec 2) (s t : State) (k : Nat), Issues s (atomicUses d [a, b, d] c o) t →
    (o = 0 ∨ scopeBad (t.ga c) = false) →
    ∀ p ∈ [(Instr.casN32 d a b c o, 4), (.casN64 d a b c o, 8)],
      t.migrationTarget (t.g a) (atomicNeed p.2) (t.ga a).toNat p.2 = none →
      Reaches t (t.g a) (atomicNeed p.2) (t.ga a).toNat p.2 k →
        let old := t.readNat k p.2
        ∃ n, exec p.1 s = .next n ∧ Retired 4 [d] t (n.memoryOf t) ∧ n.g d = Cap.ofWord (BitVec.ofNat 64 old) ∧
          n.readNat k p.2 =
            (if old = (t.ga d).toNat % 2 ^ (8 * p.2) then (t.ga b).toNat % 2 ^ (8 * p.2) else old) ∧
          ∀ j, (j < k ∨ k + p.2 ≤ j) → n.byteAt j = t.byteAt j)

/-- SEND and SENDX without a reply put one ACTIVE message into the send queue and write send status 0: to the core of
the message word's [15:0], with the message info (handler [21:16], the X bit, the byte count, the job) and the four
argument registers, or the bytes of the LOCAL buffer, as payload (R297, R298). SEND and SENDX that ask for a reply
send the request under a free tag and leave the thread Stalled; the handler slot raises handler wait (R298). -/
def Obligations.SendsActiveMessages : Prop :=
  (
  ∀ (d a b : GReg) (s t : State),
    let w := (t.ga a).toNat
    let sent (n : State) (x count : Nat) (args : List Byte) : Prop :=
      ∃ f, n.net = t.net ++ [f] ∧ Retired 4 [d] t { n with net := t.net } ∧ n.g d = Cap.ofWord 0 ∧
        f.dst = BitVec.ofNat 16 w ∧ f.src = t.core ∧ f.op = 0x06 ∧ f.rq = false ∧ f.th = bit w 24 ∧
        f.pay = .bytes (leBytes 8 (bits w 21 16 + 2 ^ 8 * x + 2 ^ 16 * count + 2 ^ 32 * ((t.cr.owner.getD 0) % 2 ^ 32)) ++ args)
    bit w 23 = false → destFault t (BitVec.ofNat 16 w) = none → t.sendRoom false = true →
    (bit (s.landedG a).toNat 23 = false → Issues s (usesG [d] (a :: four b)) t → b.toNat % 4 = 0 → wordBad w false = false →
      ∃ n, exec (.send d a b) s = .next n ∧ sent n 0 0 ((four b).flatMap fun r => leBytes 8 (t.ga r).toNat)) ∧
    (∀ k, Issues s (usesG [d] [a, b]) t → wordBad w true = false →
      Covers t (t.g b) (sendxNeed t b false) (t.ga b).toNat (bits w 47 40 + 1) k →
      ∃ n, exec (.sendx d a b) s = .next n ∧ sent n 1 (bits w 47 40) (t.readBytes k (bits w 47 40 + 1)))) ∧
  (
  ∀ (d a b : GReg) (s t : State) (tag : Nat),
    let w := (t.ga a).toNat
    let asked (i : Instr) : Prop :=
      (t.slot ≠ 0 → freeTag t.cr.msg = some tag → t.sendRoom false = true →
        ∃ n f, exec i s = .next n ∧ n.net = t.net ++ [f] ∧ f.dst = BitVec.ofNat 16 w ∧ f.op = 0x06 ∧ f.rq = true ∧
          f.tag = tag ∧ SameG [] t n ∧ n.mem = t.mem ∧ n.sl.st = .stalled ∧ n.sl.pc = t.sl.pc ∧ tag ∈ n.cr.msg.tags) ∧
      (t.slot = 0 → ∃ p, exec i s = .next (({ t with pools := p } : State).takeTrap 0x0E t.sl.pc.addr 0))
    bit w 23 = true → destFault t (BitVec.ofNat 16 w) = none →
    (bit (s.landedG a).toNat 23 = true → Issues s (usesG (d :: four b) (a :: four b)) t → b.toNat % 4 = 0 →
      wordBad w false = false → asked (.send d a b)) ∧
    (∀ k j, Issues s (usesG [d] [a, b]) t → wordBad w true = false →
      Covers t (t.g b) (sendxNeed t b false) (t.ga b).toNat (bits w 47 40 + 1) k →
      Covers t (t.g b) (sendxNeed t b true) (t.ga b).toNat 256 j → asked (.sendx d a b)))

/-- HRET ends the handler and answers the request it serves: ACK for m = 0, else a reply of 32 bytes from four g
registers or of 32 times m bytes from the v registers from v[a] on, whose words it reads; a message that wants no
reply gets none (R300). An ACTIVE from the job that owns the core, for a handler it has, waits for slot 0; when that
is free its handler starts with the message word in g1, the handler data in g2, the scratch handle in g3 and the
arguments from g4, at the handler's entry, but on a halted core none starts. A message from another job is refused
with reason 2, and one to a thread that is gone is lost with reason 1 (R126, R297, R299, R400; the privilege of a
handler is log 7). -/
def Obligations.HandlersRunAndReturn : Prop :=
  (
  ∀ (a : GReg) (v : BitVec 1) (m : BitVec 4) (s t : State) (f : Flight),
    Issues s { usesG [] (if v = 0 then (if m = 0 then [a] else four a) else []) with vr := hretRegs a v m } t →
    t.lostMember (hretWords a v m) = none →
    s.slot = 0 → t.slot = 0 → m.toNat ≤ 8 → (v = 0 → a.toNat % 4 = 0 ∧ m.toNat ≤ 1) → t.cr.msg.handling = some f →
    (f.rq = true → t.sendRoom true = true) →
    ∃ n, exec (.hret a v m) s = .next n ∧ n.cr.msg.handling = none ∧ n.slotAt t.core 0 = { gen := (t.slotAt t.core 0).gen } ∧
      n.mem = t.mem ∧
      (f.rq = false → n.net = t.net) ∧
      let r : Flight := { dst := f.src, src := t.core, op := 0x41, tag := f.tag, ts := t.ts, via := .handler }
      (f.rq = true → m = 0 → n.net = t.net ++ [r]) ∧
      (f.rq = true → m ≠ 0 → ∃ l, n.net = t.net ++ [{ r with op := 0x44, bc := 32 * m.toNat - 1, pay := .bytes l }] ∧
        (v = 0 → l = (four a).flatMap fun r => leBytes 8 (t.ga r).toNat) ∧ (v ≠ 0 → l.length = 32 * m.toNat ∧
          ∀ i < 32 * m.toNat, l[i]? = some (BitVec.ofNat 8 ((look 0 t.sl.v (a.toNat + i / 64)).toNat / 256 ^ (i % 64)))))) ∧
  (
  (∀ (s : State) (src dst : Coord) (f : Flight), s.arriving src dst 0x06 = some f → f.malformed = false →
    let t := s.takeOut f
    let x := t.coreAt dst
    x.msg.headWaits = false →
    (t.fromOwner dst f = true → (f.th = true → t.holdsThread dst f.slot f.gen = true) →
      t.handlerEntry dst f.handlerIndex ≠ 0 → t.queueRoom dst 0 = true →
      ∃ n, exec (.active src dst) s = .next n ∧ (n.coreAt dst).msg.waitingActive = x.msg.waitingActive ++ [f] ∧
        n.net = t.net ∧ n.mem = t.mem) ∧
    (t.fromOwner dst f = false → f.rq = true →
      ∃ n r, exec (.active src dst) s = .next n ∧ (n.coreAt dst).msg = x.msg ∧ n.mem = t.mem ∧ n.net = t.net ++
        [r, t.sent { dst := f.src, src := f.dst, op := 0x43, tag := f.tag, pay := .reason 2 }] ∧
        r.op = 0xC6 ∧ r.dst = firmware) ∧
    (t.fromOwner dst f = true → f.th = true → t.holdsThread dst f.slot f.gen = false → f.rq = true →
      ∃ n, exec (.active src dst) s = .next n ∧ (n.coreAt dst).msg.lpq.getLast? = some f.lostEntry ∧ n.mem = t.mem ∧
        n.net = t.net ++ [t.sent { dst := f.src, src := dst, op := 0x43, tag := f.tag, pay := .reason 1 }])) ∧
  (∀ (s : State) (c : Coord) (f : Flight) (r : List Flight) (job : Nat), (s.coreAt c).owner = some job →
    (s.coreAt c).msg.handling = none → (s.coreAt c).msg.waitingActive = f :: r → s.fromOwner c f = true →
    s.handlerEntry c f.handlerIndex ≠ 0 →
    let j := s.jobAt job
    ((s.coreAt c).halted = true → exec (.handlerStart c) s = .next s) ∧
    ((s.coreAt c).halted = false → ∃ n, exec (.handlerStart c) s = .next n ∧ (n.coreAt c).msg.handling = some f ∧ (n.coreAt c).msg.waitingActive = r ∧
      n.mem = s.mem ∧ n.net = s.net ∧
      let x := n.slotAt c 0
      x.st = .ready ∧ x.quota = 8 ∧ x.priv = false ∧ x.sys.evec = j.evec ∧ x.mem.job = job ∧
      x.pc = { j.code with addr := BitVec.ofNat 64 ((j.code.bounds.1.toNat + look 0 j.handlers f.handlerIndex) / 2 * 2) } ∧
      look {} x.g 1 = Cap.ofWord f.handlerWord ∧ look {} x.g 2 = j.handlerData ∧
      look {} x.g 3 = makeCap 0xC40 0 0 0 (scratchSize (s.coreAt c).partw) 0 ∧
      (f.isSendx = false → ∀ i < 4, look {} x.g (4 + i) =
        Cap.ofWord (BitVec.ofNat 64 (leNat ((f.arguments.drop (8 * i)).take 8)))) ∧
      (f.isSendx = true → ∀ i < 4, look 0 x.v i = BitVec.ofNat 512 (leNat ((f.arguments.drop (64 * i)).take 64))))))

/-- BIND.MBX makes an unbound port a mailbox, BIND.STR binds it to a stream that no other port of the core has, and
UNBIND frees a port and discards its entries, and a thread that waits on it takes illegal operand there and then; a
bound port raises illegal operand (R301). PUTREG and PUTREG.V send a value to another core's port, and store it in a
mailbox of their own core that is empty (R302). A PORTW fills an empty mailbox, is lost at a port that is no mailbox,
and waits at the head of the queue where the mailbox is full; there it is delivered once the mailbox has been read
(R302). -/
def Obligations.PortsBindSendAndReceive : Prop :=
  (
  ∀ (d a : GReg) (s t : State),
    let p := d.toNat
    let bound (i : Instr) (q : Port) : Prop := ∃ n, exec i s = .next n ∧ n.cr.port p = q ∧
      (∀ r, r ≠ p → n.cr.port r = t.cr.port r) ∧ SameG [] t n ∧ n.mem = t.mem ∧ n.net = t.net ∧ n.sl.st = .ready ∧
      n.sl.pc = { t.sl.pc with addr := t.sl.pc.addr + 4 }
    (Issues s { ownOnly := true } t →
      ((t.cr.port p).bind = .unbound → bound (.bindMbx d) { bind := .mailbox }) ∧
      ((t.cr.port p).bind ≠ .unbound → exec (.bindMbx d) s = .next (s.takeTrap 0x02 s.sl.pc.addr 0)) ∧
      ((∀ i < slotCount t.core, (t.slotAt t.core i).st = .waiting → (t.slotAt t.core i).await ≠ .port p) → bound (.unbind d) {}) ∧
      (∀ i sys, i ≠ t.slot → i < slotCount t.core → (t.slotAt t.core i).st = .waiting → (t.slotAt t.core i).await = .port p →
        trapLevel (t.slotAt t.core i) ({ t with slot := i } : State).evec 0x02 = some sys →
        ∃ n, exec (.unbind d) s = .next n ∧ (n.cr.port p).bind = .unbound ∧ (n.slotAt t.core i).st = .ready ∧
          (n.slotAt t.core i).priv = sys ∧ (n.slotAt t.core i).sys.ecause = 0x02 ∧
          (n.slotAt t.core i).sys.epc = (t.slotAt t.core i).pc.addr)) ∧
    (Issues s { usesG [] [a] with ownOnly := true } t → (t.cr.port p).bind = .unbound → (t.ga a).toNat < 16 →
      (∀ e ∈ t.cr.ports, e.2.bind ≠ .stream (t.ga a).toNat) → bound (.bindStr d a) { bind := .stream (t.ga a).toNat })) ∧
  (
  ∀ (a b : GReg) (p : BitVec 5) (s t : State),
    let dst := BitVec.ofNat 16 (t.ga a).toNat
    let puts (i : Instr) (v : Entry) : Prop :=
      (dst ≠ t.core → t.sendRoom false = true →
        ∃ n f, exec i s = .next n ∧ n.net = t.net ++ [f] ∧ Retired 4 [] t { n with net := t.net } ∧ f.dst = dst ∧
          f.src = t.core ∧ f.op = 0x07 ∧ f.rq = false ∧ f.pay = .port p.toNat v) ∧
      (dst = t.core → (t.cr.port p.toNat).bind = .mailbox → t.cr.portUse p.toNat = 0 →
        ∃ n, exec i s = .next n ∧ (n.cr.port p.toNat).q = [v] ∧ (n.cr.port p.toNat).bind = .mailbox ∧ SameG [] t n ∧
          n.mem = t.mem ∧ n.net = t.net ∧ n.sl.pc = { t.sl.pc with addr := t.sl.pc.addr + 4 })
    (t.ga a).toNat < 2 ^ 16 → destFault t dst = none →
    (Issues s (usesG [] [a, b]) t → puts (.putreg a b p) ((t.ga b).setWidth 512)) ∧
    (Issues s { usesG [] [a] with vr := [(b.toNat, 1)] } t → t.lostMember (wholeVec 1 b.toNat) = none → puts (.putregV a b p) (look 0 t.sl.v b.toNat))) ∧
  (
  (∀ (s : State) (src dst : Coord) (f : Flight) (p : Nat) (v : Entry), s.arriving src dst 0x07 = some f →
    f.malformed = false → f.pay = .port p v → f.rq = false →
    let t := s.takeOut f
    let x := t.coreAt dst
    x.msg.headWaits = false → (mailboxBusy x p = true → t.queueRoom dst 0 = true) →
    ∃ n, exec (.portw src dst) s = .next n ∧ n.mem = t.mem ∧ n.net = t.net ∧
      ((x.port p).bind = .mailbox → x.portUse p = 0 → (n.coreAt dst).port p = { bind := .mailbox, q := [v] }) ∧
      ((x.port p).bind ≠ .mailbox → (n.coreAt dst).ports = x.ports ∧ (n.coreAt dst).msg.lpq.getLast? = some f.lostEntry) ∧
      ((x.port p).bind = .mailbox → x.portUse p ≠ 0 →
        (n.coreAt dst).ports = x.ports ∧ (n.coreAt dst).msg.waitingPort = some f)) ∧
  (∀ (s : State) (c : Coord) (f : Flight) (p : Nat) (v : Entry), (s.coreAt c).msg.waitingPort = some f → f.pay = .port p v →
    ((s.coreAt c).port p).bind = .mailbox → (s.coreAt c).portUse p = 0 →
    ∃ n, exec (.mailboxPortwDelivery c) s = .next n ∧ (n.coreAt c).port p = { bind := .mailbox, q := [v] } ∧
      (n.coreAt c).msg.waitingPort = none ∧ n.mem = s.mem ∧ n.net = s.net))

/-- PGET and PGET.V take the oldest entry of the pigeonhole, as its summary or whole, and PPEEK and PPEEK.V read it
and leave it, 0 where there is none; an entry with a cause raises engine job fault at the next instruction; on an
empty pigeonhole PGET waits (R303, R423). A DONE entry enters the pigeonhole while it has fewer than 64 and none of
its engine is held, ends its job unless it is partial, and ends the waits for an entry; else it is held, and enters
when there is room (R122, R123, R277, R354). -/
def Obligations.PigeonholeReadsAndEntries : Prop :=
  (
  ∀ (d : GReg) (s t : State),
    let pc4 : Cap := { t.sl.pc with addr := t.sl.pc.addr + 4 }
    let summary (e : Entry) : Word := e.extractLsb' 488 24 ++ e.extractLsb' 480 1 ++ (0 : BitVec 7) ++ e.extractLsb' 320 32
    let whole (n : State) (e : Entry) : Prop := look 0 n.sl.v d.toNat = e ∧ (∀ r, r ≠ d.toNat → look 0 n.sl.v r = look 0 t.sl.v r) ∧
      SameG [] t n
    (∀ e r, t.cr.msg.pigeonhole = e :: r → e.extractLsb' 488 8 = 0 →
      (Issues s (usesG [d] []) t → ∃ n, exec (.pget d) s = .next n ∧ n.cr.msg.pigeonhole = r ∧ n.g d = Cap.ofWord (summary e) ∧
        SameG [d] t n ∧ n.mem = t.mem ∧ n.net = t.net ∧ n.sl.pc = pc4) ∧
      (Issues s { vw := [(d.toNat, 1)] } t → ∃ n, exec (.pgetV d) s = .next n ∧ n.cr.msg.pigeonhole = r ∧ whole n e ∧
        n.mem = t.mem ∧ n.net = t.net ∧ n.sl.pc = pc4)) ∧
    (∀ e r, t.cr.msg.pigeonhole = e :: r → e.extractLsb' 488 8 ≠ 0 → Issues s (usesG [d] []) t →
      ∃ n : State, n.cr.msg.pigeonhole = r ∧ n.g d = Cap.ofWord (summary e) ∧ n.sl.pc = pc4 ∧
        exec (.pget d) s = .next (n.takeTrap 0x12 pc4.addr (e.extractLsb' 352 64) true)) ∧
    (t.cr.msg.pigeonhole = [] → t.slot ≠ 0 → Issues s (usesG [d] []) t →
      ∃ n, exec (.pget d) s = .next n ∧ n.sl.st = .waiting ∧ SameG [] t n ∧ n.sl.pc = t.sl.pc) ∧
    (Issues s (usesG [d] []) t → ∃ n, exec (.ppeek d) s = .next n ∧ Retired 4 [d] t n ∧
      n.g d = Cap.ofWord (summary (t.cr.msg.pigeonhole.headD 0))) ∧
    (Issues s { vw := [(d.toNat, 1)] } t → ∃ n, exec (.ppeekV d) s = .next n ∧ whole n (t.cr.msg.pigeonhole.headD 0) ∧
      n.cr.msg = t.cr.msg ∧ n.mem = t.mem ∧ n.net = t.net ∧ n.sl.pc = pc4)) ∧
  (
  ∀ (s : State) (c : Coord) (e : Entry),
    let mine (j : EngineJob) : Prop := sameCounter j.kind (entryKind e) = true ∧ j.id = entryJob e
    let written (t n : State) : Prop := (n.coreAt c).msg.pigeonhole = (t.coreAt c).msg.pigeonhole ++ [e] ∧ n.mem = t.mem ∧
      n.net = t.net ∧ (n.coreAt c).eng = { (t.coreAt c).eng with jobs := (n.coreAt c).eng.jobs } ∧
      (entryPart e = true → ∀ j, j ∈ (n.coreAt c).eng.jobs ↔
        (j ∈ (t.coreAt c).eng.jobs ∧ ¬ mine j) ∨ ∃ k ∈ (t.coreAt c).eng.jobs, mine k ∧ j = { k with told := true }) ∧
      (entryPart e = false → ∀ j, j ∈ (n.coreAt c).eng.jobs ↔ j ∈ (t.coreAt c).eng.jobs ∧ ¬ mine j) ∧
      ∀ i, (t.slotAt c i).st = .waiting →
        ((t.slotAt c i).await = .pigeonhole ∨ (∃ k, (t.slotAt c i).await = .job k) ∨
          ∃ d m w, (t.slotAt c i).await = .wait d m w ∧ w.getLsbD 0 = true) →
        (n.slotAt c i).st = .ready
    (∀ (src : Coord) (f : Flight), s.arriving src c 0x73 = some f → f.malformed = false → f.pay = .entry e →
      let t := s.takeOut f
      let m := (t.coreAt c).msg
      (m.pigeonhole.length < 64 → m.held.any (sameEngine e) = false → (∀ i, (t.slotAt c i).mark = none) →
        ∃ n, exec (.done src c) s = .next n ∧ written t n ∧ (n.coreAt c).msg.held = m.held) ∧
      ((64 ≤ m.pigeonhole.length ∨ m.held.any (sameEngine e) = true) →
        ∃ n, exec (.done src c) s = .next n ∧ (n.coreAt c).msg = { m with held := m.held ++ [e] } ∧
          (n.coreAt c).eng = (t.coreAt c).eng ∧ n.mem = t.mem ∧ n.net = t.net)) ∧
    (∀ r, (s.coreAt c).msg.held = e :: r → (s.coreAt c).msg.pigeonhole.length < 64 → (∀ i, (s.slotAt c i).mark = none) →
      ∃ n, exec (.heldDoneWritten c) s = .next n ∧ written s n ∧ (n.coreAt c).msg.held = r))

/-- MIGRATE of a wayfarer to its own core writes 2, and 0 where its policy is 0 or it is in a trap routine; else the
slot goes in transit and one WAYFARER message carries the context to the core named (R304, R165). A wayfarer that
arrives at a core of its job takes the lowest free slot, unless a change of the partition holds off placement, and the
origin is told 1 and frees its slot with the next generation; where the core cannot take it the origin is told 0, and
the MIGRATE completes with 0, or the access at the PC issues again and does not migrate (R107, R165, R168, R304,
R395). -/
def Obligations.WayfarersMigrate : Prop :=
  (
  ∀ (d a : GReg) (s t : State), Issues s (usesG [d] [a]) t → t.sl.wayfarer = true → (t.ga a).toNat < 2 ^ 16 →
    let dst := BitVec.ofNat 16 (t.ga a).toNat
    destFault t dst = none →
    (dst = t.core → ∃ n, exec (.migrate d a) s = .next n ∧ Retired 4 [d] t n ∧ n.g d = Cap.ofWord 2) ∧
    (dst ≠ t.core → (t.sl.mpol = 0 ∨ t.sl.inUser = true ∨ t.sl.inSystem = true) →
      ∃ n, exec (.migrate d a) s = .next n ∧ Retired 4 [d] t n ∧ n.g d = Cap.ofWord 0) ∧
    (dst ≠ t.core → t.sl.mpol ≠ 0 → t.sl.inUser = false → t.sl.inSystem = false → t.mayDepart = true →
      ∃ n f c, exec (.migrate d a) s = .next n ∧ n.sl.st = .transit ∧ n.net = t.net ++ [f] ∧ f.dst = dst ∧ f.src = t.core ∧
        f.op = 0x60 ∧ f.pay = .wayfarer c ∧ c.pca = t.sl.pc.addr + 4 ∧ c.mem = t.sl.mem)) ∧
  (
  (∀ (s : State) (src dst : Coord) (f : Flight) (c : Context), s.arriving src dst 0x60 = some f → f.malformed = false →
    f.pay = .wayfarer c →
    let t := s.takeOut f
    let told (r : Nat) : Flight := t.sent { dst := f.src, src := f.dst, op := 0x45, tag := f.tag, pay := .reason r }
    (∀ i, (t.coreAt dst).owner = some c.mem.job → (t.coreAt dst).emptySlot (slotCount dst) = some i →
      (t.coreAt dst).partPending ≠ none → exec (.wayfarer src dst) s = .next s) ∧
    (∀ i, (t.coreAt dst).owner = some c.mem.job → (t.coreAt dst).emptySlot (slotCount dst) = some i →
      (t.coreAt dst).partPending = none →
      ∃ n, exec (.wayfarer src dst) s = .next n ∧ n.net = t.net ++ [told 1] ∧ n.mem = t.mem ∧
        let x := n.slotAt dst i
        x.st = .ready ∧ x.wayfarer = true ∧ x.gen = (t.slotAt dst i).gen ∧ x.mem = c.mem ∧ x.pc.addr = c.pca ∧
        x.hops = min ((c.stat.extractLsb' 32 8).toNat + 1) 255 ∧ x.mpol = (c.stat.extractLsb' 6 2).toNat ∧
        ∀ r (h : r < c.g.length), look {} x.g r = c.g[r]) ∧
    (((t.coreAt dst).owner ≠ some c.mem.job ∨ (t.coreAt dst).emptySlot (slotCount dst) = none) →
      exec (.wayfarer src dst) s = .next { t with net := t.net ++ [told 0] })) ∧
  (∀ (s : State) (src dst : Coord) (f : Flight) (i : Nat) (p : Pending) (q : Piece), s.arriving src dst 0x45 = some f →
    f.malformed = false →
    let t := s.takeOut f
    let x := t.slotAt dst i
    t.requester dst f.tag = some (i, p, q) → p.todo = [] → (∀ k, k ≠ i → (t.slotAt dst k).pend = none) →
    (f.pay = .reason 1 → x.mark = none → x.gang = {} →
      ∃ n, exec (.migack src dst) s = .next n ∧ n.slotAt dst i = { gen := x.gen + 1 } ∧ n.mem = t.mem ∧ n.net = t.net ∧
        f.tag ∉ (n.coreAt dst).msg.tags) ∧
    (∀ d, f.pay = .reason 0 → p.fin = .migrate d →
      ∃ n, exec (.migack src dst) s = .next n ∧ (n.slotAt dst i).st = .ready ∧
        look {} (n.slotAt dst i).g d.toNat = Cap.ofWord 0 ∧ n.mem = t.mem ∧
        (n.slotAt dst i).pc = { x.pc with addr := x.pc.addr + BitVec.ofNat 64 p.len }) ∧
    (f.pay = .reason 0 → p.fin = .access →
      ∃ n, exec (.migack src dst) s = .next n ∧ (n.slotAt dst i).st = .ready ∧ (n.slotAt dst i).noMigrate = true ∧
        (n.slotAt dst i).pc = x.pc ∧ (n.slotAt dst i).g = x.g ∧ n.mem = t.mem)))

/-- LWAKE begins the return to full of every bridge on the route to the core named, at both its dies, and with the
stair option that of the stair link of the core; a link stays as it is until its wake has completed, and no register
changes (R121, R305; log 20 numbers the links, log 33 shapes the tree). A recomputation takes up the tree that
firmware has computed; while the tables are recomputed sources keep what they would send; once the mesh is empty, but
for what a retired link holds up, the new tables are in force and injection resumes; an idle link narrows and sleeps
after its idle times, and wakes, as LINKPWR allows (R108, R109, R119-R121; log 20 numbers the links, log 33 shapes the
tree). -/
def Obligations.LinksWakeAndRoute : Prop :=
  (
  ∀ (a : GReg) (z : BitVec 1) (s t : State), Issues s (usesG [] [a]) t → (t.ga a).toNat < 2 ^ 16 →
    let e : Coord := BitVec.ofNat 16 (t.ga a).toNat
    let wakes (n : State) (d l : Nat) : Prop := look .full (n.dieAt d).links l = .full ∨ l ∈ (n.dieAt d).waking
    coreExists e = true →
    ∃ n, exec (.lwake a z) s = .next n ∧ Retired 4 [] t { n with dies := t.dies } ∧
      (∀ d, (n.dieAt d).links = (t.dieAt d).links ∧ ∀ l ∈ (t.dieAt d).waking, l ∈ (n.dieAt d).waking) ∧
      (∀ b ∈ t.bridgesOn t.core e,
        (b.1 ≠ 16 → wakes n (t.bridgeNumber b.1) (t.bridgeNumber b.2)) ∧
        (b.2 ≠ 16 → wakes n (t.bridgeNumber b.2) (t.bridgeNumber b.1))) ∧
      (z = 1 → wakes n t.core.die (stairLink t.core))) ∧
  (
  (∀ s : State, s.pkg.injectionHeld = false → s.spans s.newTree = true →
    exec .routeRecomputation s = .next { s with
      pkg := { s.pkg with injectionHeld := true, heldSince := s.ts.toNat, nextTree := some s.newTree } }) ∧
  (∀ s : State, s.spans s.newTree = false → exec .routeRecomputation s = .next s) ∧
  (∀ (s : State) (tree : List (Nat × Nat)), s.pkg.injectionHeld = true → s.pkg.nextTree = some tree →
    (s.net.all s.drained = false → exec .routeTableInstall s = .next s) ∧
    (s.net.all s.drained = true → ∃ n, exec .routeTableInstall s = .next n ∧ n.pkg.injectionHeld = false ∧
      n.pkg.tree = tree ∧ n.pkg.nextTree = none ∧ n.mem = s.mem ∧
      n.pkg.routed = s.pkg.cut ∧ n.net = s.net)) ∧
  (∀ (s : State) (f : Flight), s.pkg.injectionHeld = true → f.via ≠ .mesh → s.mayEnter f = false) ∧
  (∀ (s : State) (c : Coord), s.pkg.injectionHeld = true → s.move (.inject c) = s) ∧
  (∀ (s : State) (d l : Nat), linkExists d l = true →
    let x := s.dieAt d
    let now (n : State) (p : LinkState) : Prop := look .full (n.dieAt d).links l = p ∧
      (l < 16 → look .full (n.dieAt l).links d = p) ∧ n.mem = s.mem ∧ n.net = s.net ∧
      ∀ e, e ≠ d → e ≠ l → n.dieAt e = s.dieAt e
    let nidle := (x.linkpwr.extractLsb' 40 8).toNat
    let sidle := (x.linkpwr.extractLsb' 32 8).toNat
    (s.linkIdle d l = true → look .full x.links l = .full → nidle ≠ 0 → x.linkpwr.extractLsb' 0 2 ≠ 0 →
      s.idleFor d l (100 * nidle) = true → ∃ n, exec (.linkNarrow d l) s = .next n ∧ now n .narrow) ∧
    (s.idleFor d l (100 * nidle) = false → exec (.linkNarrow d l) s = .next s) ∧
    (s.linkIdle d l = true → look .full x.links l = .narrow → x.waking.contains l = false → sidle ≠ 0 →
      x.linkpwr.extractLsb' 0 2 = 2 → s.idleFor d l (10000 * sidle) = true →
      ∃ n, exec (.linkSleep d l) s = .next n ∧ now n .sleep) ∧
    (x.waking.contains l = true ∨ s.linkIdle d l = false → ∃ n, exec (.linkWakeComplete d l) s = .next n ∧ now n .full)))

/-- BARINIT of 1 to 512 members writes the object at phase 0, with nobody arrived, N and EXP the operand and the unit
of the issuing thread, and every entry that waits on it leaves the watch list (R310, R311). An arrival of a member
that has not arrived counts EXP down, sets its bit of AMASK, and with BARDROP its bit of DMASK, and returns the phase
it joined; when EXP reaches 0 with every expected byte in, the phase ends: PHASE advances, the dropped members count
as arrived, EXP is the number of members left, and a barrier without members is spent (R311). -/
def Obligations.BarriersStartAndCount : Prop :=
  (
  ∀ (a b : GReg) (s t : State) (k : Nat), Issues s (usesG [] [a, b]) t → t.slot ≠ 0 → t.sl.wayfarer = false →
    Covers t (t.g a) objectNeed (t.ga a).toNat 192 k → t.sl.mem.unit < 2 ^ 32 → 1 ≤ (t.ga b).toNat → (t.ga b).toNat ≤ 512 →
    ∃ n, exec (.barinit a b) s = .next n ∧
      n.barAt k = { phase := 0, n := (t.ga b).toNat, exp := (t.ga b).toNat, btot := 0, bytes := 0, unit := t.sl.mem.unit
                    spent := false, amask := 0, dmask := 0 } ∧
      (∀ w ∈ (n.coreAt (homeOf t.core k)).watch, w.obj ≠ k) ∧ SameG [] t n ∧ n.sl.st = .ready ∧
      n.sl.pc = { t.sl.pc with addr := t.sl.pc.addr + 4 } ∧
      ∀ j, (j < k ∨ k + 192 ≤ j) → n.byteAt j = t.byteAt j) ∧
  (
  ∀ (d a b : GReg) (s t : State) (k : Nat), Issues s (usesG [d] [a, b]) t → t.slot ≠ 0 → t.sl.wayfarer = false →
    Covers t (t.g a) objectNeed (t.ga a).toNat 192 k →
    let o := t.barAt k
    let m := (t.ga b).toNat
    ∀ p ∈ [(Instr.bararr d a b, false), (.bardrop d a b, true)],
      (o.unit = t.sl.mem.unit → m < o.n → o.spent = false → o.amask.getLsbD m = false →
        let left := (o.exp + 65535) % 65536
        let mark : BitVec 512 := 1 <<< m
        let gone := if p.2 then o.dmask ||| mark else o.dmask
        let members := o.n - (List.range 512).countP gone.getLsbD
        ∃ n, exec p.1 s = .next n ∧ n.g d = Cap.ofWord (BitVec.ofNat 64 o.phase) ∧ SameG [d] t n ∧ n.sl.st = .ready ∧
          n.sl.pc = { t.sl.pc with addr := t.sl.pc.addr + 4 } ∧
          (¬ (left = 0 ∧ o.bytes = o.btot) → n.barAt k = { o with exp := left, amask := o.amask ||| mark, dmask := gone }) ∧
          (left = 0 → o.bytes = o.btot →
            n.barAt k = { o with phase := (o.phase + 1) % 2 ^ 32, exp := members, bytes := 0, spent := members == 0
                                 amask := gone, dmask := gone } ∧
            ∀ w ∈ (n.coreAt (homeOf t.core k)).watch, w.obj ≠ k) ∧
          ∀ j, (j < k ∨ k + 192 ≤ j) → n.byteAt j = t.byteAt j) ∧
      ((o.unit ≠ t.sl.mem.unit ∨ o.n ≤ m) → ∃ q, exec p.1 s = .next (({ t with pools := q } : State).takeTrap 0x02 t.sl.pc.addr 0)) ∧
      (o.unit = t.sl.mem.unit → m < o.n → (o.spent = true ∨ o.amask.getLsbD m = true) →
        ∃ q, exec p.1 s = .next (({ t with pools := q } : State).takeTrap 0x0C t.sl.pc.addr (t.ga a))))

/-- BARWAIT returns PHASE at once where it differs from the phase of its operand or the barrier is spent; else its
request enters the watch list of the home and the thread is Waiting. BAREXP sets BTOT, and ends the phase where
nothing is missing any more (R311, R312). The oldest entry of the thread send queue enters the mesh, where its
endpoint has room for it, and the slot that the full queue held goes on; a WAIT whose deadline has come retires with
the reasons that hold then in its register, and a BARWAIT answered with retry 256 cycles ago is sent again (R116,
R277, R312; the clock is log 19). -/
def Obligations.BarrierWaits : Prop :=
  (
  ∀ (d a b : GReg) (s t : State) (k : Nat), t.slot ≠ 0 → t.sl.wayfarer = false →
    Covers t (t.g a) objectNeed (t.ga a).toNat 192 k → (t.barAt k).unit = t.sl.mem.unit → (freeTag t.cr.msg).isSome = true →
    let o := t.barAt k
    let home := homeOf t.core k
    (Issues s (usesG [d] [a, b]) t →
      ((o.spent = true ∨ o.phase ≠ (t.ga b).toNat % 2 ^ 32) →
        ∃ n, exec (.barwait d a b) s = .next n ∧ Retired 4 [d] t n ∧ n.g d = Cap.ofWord (BitVec.ofNat 64 o.phase)) ∧
      (o.spent = false → o.phase = (t.ga b).toNat % 2 ^ 32 → (t.coreAt home).watch.length < 64 →
        ∃ n w, exec (.barwait d a b) s = .next n ∧ (n.coreAt home).watch = (t.coreAt home).watch ++ [w] ∧ w.obj = k ∧
          n.sl.st = .waiting ∧ n.sl.pc = t.sl.pc ∧ SameG [] t n ∧ n.mem = t.mem)) ∧
    (Issues s (usesG [] [a, b]) t → (t.ga b).toNat < 2 ^ 32 → o.bytes ≤ (t.ga b).toNat →
      ∃ n, exec (.barexp a b) s = .next n ∧ SameG [] t n ∧ n.sl.st = .ready ∧
        n.sl.pc = { t.sl.pc with addr := t.sl.pc.addr + 4 } ∧
        (¬ (o.exp = 0 ∧ o.bytes = (t.ga b).toNat) → n.barAt k = { o with btot := (t.ga b).toNat }) ∧
        (o.exp = 0 → o.bytes = (t.ga b).toNat →
          (n.barAt k).phase = (o.phase + 1) % 2 ^ 32 ∧ (n.barAt k).bytes = 0 ∧ (n.barAt k).amask = o.dmask))) ∧
  (
  ∀ (s : State) (c : Coord) (i : Nat),
    let wakes (e : Instr) (w : Await) : Prop := ∃ n, exec e s = .next n ∧
      n.slotAt c i = { s.slotAt c i with st := .ready, await := w } ∧
      (∀ k, k ≠ i → n.slotAt c k = s.slotAt c k) ∧ n.mem = s.mem ∧ n.net = s.net
    (∀ f r, s.sendQueue c false = f :: r → s.mayEnter f = true → (s.slotAt c i).st = .stalled →
      (s.slotAt c i).await = .room → (∀ k, (s.slotAt c k).pend = none) →
      ∃ n, exec (.threadSendQueueRoom c i) s = .next n ∧ (n.slotAt c i).st = .ready ∧ n.mem = s.mem ∧
        n.net.length = s.net.length ∧ { f with via := .mesh } ∈ n.net ∧ (n.sendQueue c false).length < (s.sendQueue c false).length) ∧
    (∀ d m w, (s.slotAt c i).st = .waiting → (s.slotAt c i).await = .wait d m w → m ≤ s.ts.toNat →
      let x := s.coreAt c
      let entry := w.getLsbD 0 && !x.msg.pigeonhole.isEmpty
      let value := w.getLsbD 1 && x.ports.any (fun (_, p) => p.bind == .mailbox && !p.q.isEmpty)
      ∃ n, exec (.waitDeadline c i) s = .next n ∧ (n.slotAt c i).st = .ready ∧
        (n.slotAt c i).pc = { (s.slotAt c i).pc with addr := (s.slotAt c i).pc.addr + 4 } ∧
        look {} (n.slotAt c i).g d.toNat = Cap.ofWord ((BitVec.ofBool value ++ BitVec.ofBool entry ++ BitVec.ofBool true).setWidth 64) ∧
        (∀ r : GReg, r ≠ d → look {} (n.slotAt c i).g r.toNat = look {} (s.slotAt c i).g r.toNat) ∧
        (∀ k, k ≠ i → n.slotAt c k = s.slotAt c k) ∧ n.mem = s.mem ∧ n.net = s.net) ∧
    (∀ x, (s.slotAt c i).st = .waiting → (s.slotAt c i).await = .retry x → s.elapsed c x 256 = true →
      wakes (.barwaitRetry c i) (.retry x)))

/-- An event instruction whose event is one of the job's, on a live die, sends one EVENT request with its operation to
the scheduler of the event's home die and waits for the answer: Waiting for EVWAIT, Stalled for the others (R315). The
home of a named event performs a request: a signal sets the event, counts it, wakes every waiter of the list in order
and answers; a clear makes it unset; a query answers the state word and changes nothing; a wait passes with the state
word where the event is set, and else enters the list (R314, R315, R316). A WAKE completes the EVWAIT of the slot it
names with the state word it carries; an overflow record that a signal covers is woken in its turn, and an extension
of the overflow queue enters the records that waited for it, behind those that are there, which the signal that came
meanwhile covers with the others (R316, R413). -/
def Obligations.EventsAreSetWaitedAndCounted : Prop :=
  (
  ∀ (d a : GReg) (s t : State) (tag : Nat),
    let name := (t.ga a).toNat
    let asks (i : Instr) (op : EventOp) (st : SlotState) : Prop :=
      ∃ n f, exec i s = .next n ∧ n.net = t.net ++ [f] ∧ f.dst = dieScheduler (name / 4096) ∧ f.src = t.core ∧ f.op = 0xC1 ∧
        f.rq = true ∧ f.tag = tag ∧ f.slot = t.slot ∧ f.gen = t.sl.gen ∧ f.pay = .event op name ∧ n.sl.st = st ∧
        n.sl.pc = t.sl.pc ∧ SameG [] t n ∧ n.mem = t.mem ∧ tag ∈ n.cr.msg.tags
    name < 2 ^ 16 → t.job.events.contains name = true → t.dieLive (name / 4096) = true → freeTag t.cr.msg = some tag →
    t.sendRoom false = true →
    (Issues s (usesG [] [a]) t → asks (.evsig a) .sig .stalled ∧ asks (.evclr a) .clr .stalled) ∧
    (Issues s (usesG [d] [a]) t → asks (.evqry d a) .qry .stalled ∧ (t.slot ≠ 0 → asks (.evwait d a) .wait .waiting))) ∧
  (
  ∀ (s : State) (src dst : Coord) (f : Flight) (op : EventOp) (name : Nat),
    s.arriving src dst 0xC1 = some f → f.malformed = false → f.pay = .event op name → f.rq = true →
    let t := s.takeOut f
    let e := t.eventAt name
    let reply : Flight := t.sent { dst := f.src, src := f.dst, op := 0x41, tag := f.tag }
    let told (x : EventState) : Flight := { reply with op := 0x40, bc := 7, pay := .bytes (leBytes 8 x.word.toNat) }
    ∃ n, exec (.event src dst) s = .next n ∧ n.mem = t.mem ∧
      (op = .sig → (n.eventAt name).set = true ∧ (n.eventAt name).nsig = (e.nsig + 1) % 2 ^ 32 ∧
        (n.eventAt name).waiters = [] ∧ (n.eventAt name).covered = e.overflow.length + e.extending.length ∧
        ∃ l, n.net = t.net ++ l ++ [reply] ∧ l.map (·.op) = e.waiters.map (fun _ => 0xC2) ∧
          l.map (fun w => (w.dst, w.slot, w.gen)) = e.waiters.map fun w => (w.src, w.slot, w.gen)) ∧
      (op = .clr → n.eventAt name = { e with set := false } ∧ n.net = t.net ++ [reply]) ∧
      (op = .qry → n.eventAt name = e ∧ n.net = t.net ++ [told e]) ∧
      (op = .wait → e.set = true → n.eventAt name = e ∧ n.net = t.net ++ [told e]) ∧
      (op = .wait → e.set = false → e.overflow = [] → e.extending = [] → (t.dieAt (name / 4096)).waiting < 16384 →
        n.eventAt name = { e with waiters := e.waiters ++ [f] } ∧ n.net = t.net)) ∧
  (
  (∀ (s : State) (src dst : Coord) (f : Flight) (w : Word) (p : Pending) (name : Nat) (d : GReg) (tag : Nat),
    s.arriving src dst 0xC2 = some f → f.malformed = false → f.pay = .woken name w →
    let x := s.slotAt dst f.slot
    x.st = .waiting → x.gen = f.gen → x.await = .event name → x.pend = some p → p.fin = .word d → p.fault = none →
    p.pieces.map (·.tag) = [tag] → p.todo = [] →
    ∃ n, exec (.wake src dst) s = .next n ∧ look {} (n.slotAt dst f.slot).g d.toNat = Cap.ofWord w ∧
      (n.slotAt dst f.slot).st = .ready ∧ (n.slotAt dst f.slot).pc.addr = x.pc.addr + BitVec.ofNat 64 p.len) ∧
  (∀ (s : State) (name : Nat) (w : Flight) (r : List Flight), (s.eventAt name).overflow = w :: r →
    0 < (s.eventAt name).covered →
    ∃ n, exec (.overflowReplay name) s = .next n ∧ (n.eventAt name).overflow = r ∧
      (n.eventAt name).covered = (s.eventAt name).covered - 1 ∧
      ∃ g, n.net = s.net ++ [g] ∧ g.op = 0xC2 ∧ g.dst = w.src ∧ g.slot = w.slot ∧ g.gen = w.gen) ∧
  (∀ (s : State) (name : Nat),
    ∃ n, exec (.overflowQueueExtend name) s = .next n ∧ n.net = s.net ∧
      n.eventAt name = { s.eventAt name with overflow := (s.eventAt name).overflow ++ (s.eventAt name).extending
                                             extending := [] }))

/-- The operations on a notice board that the core itself holds: BRDINIT makes an empty board of N slots, POSTV by a
slot's owner writes its value, sets its bit and raises the level, BRDREAD returns a value, both with the board's view
in a b register, and BRDCLR clears every value and starts the next epoch; a post by another core than the owner traps
(R318, R319). -/
def Obligations.NoticeBoards : Prop :=
  ∀ (d a b : GReg) (v : BitVec 2) (s t : State) (k : Nat), Covers t (t.g a) boardNeed (t.ga a).toNat 5248 k →
    let size := t.readNat (k + 0x448) 2
    let mask := t.readNat (k + 0x400) 64
    let level := t.readNat (k + 0x440) 4
    let next (n : State) : Prop := n.sl.st = .ready ∧ n.sl.pc = { t.sl.pc with addr := t.sl.pc.addr + 4 } ∧ n.net = t.net ∧
      ∀ j, (j < k ∨ k + 5248 ≤ j) → n.byteAt j = t.byteAt j
    let empty (n : State) : Prop := n.readNat (k + 0x400) 64 = 0 ∧ n.readNat (k + 0x440) 4 = 0 ∧
      ∀ j < 512, n.readNat (k + 0x480 + 8 * j) 8 = 0
    (Issues s (usesG [] [a, b]) t → (t.ga b).toNat < 2 ^ 26 → 1 ≤ (t.ga b).toNat / 2 ^ 16 → (t.ga b).toNat / 2 ^ 16 ≤ 512 →
      ∃ n, exec (.brdinit a b) s = .next n ∧ next n ∧ SameG [] t n ∧ empty n ∧ n.readNat (k + 0x444) 2 = 0 ∧
        n.readNat (k + 0x448) 2 = (t.ga b).toNat / 2 ^ 16 ∧ n.readNat (k + 0x44A) 2 = (t.ga b).toNat % 2 ^ 16) ∧
    (Issues s { usesG [] [d, a, b] with ownOnly := true } t → (t.ga d).toNat < 512 →
      let j := (t.ga d).toNat
      (j < size → t.readNat (k + 2 * j) 2 = t.core.toNat → level ≠ 0xFFFFFFFF →
        ∃ n, exec (.postv d a b v) s = .next n ∧ next n ∧ SameG [] t n ∧ n.readNat (k + 0x480 + 8 * j) 8 = (t.ga b).toNat ∧
          n.readNat (k + 0x400) 64 = mask ||| 2 ^ j ∧ n.readNat (k + 0x440) 4 = level + 1 ∧
          n.view v.toNat = BitVec.ofNat 576 (n.boardView k)) ∧
      ((size ≤ j ∨ t.readNat (k + 2 * j) 2 ≠ t.core.toNat) →
        ∃ q, exec (.postv d a b v) s = .next (({ t with pools := q } : State).takeTrap 0x11 t.sl.pc.addr (t.ga a)))) ∧
    (Issues s { usesG [d] [a, b] with ownOnly := true } t → (t.ga b).toNat < 512 → (t.ga b).toNat < size →
      ∃ n, exec (.brdread d a b v) s = .next n ∧ next n ∧ n.mem = t.mem ∧ SameG [d] t n ∧
        n.g d = Cap.ofWord (BitVec.ofNat 64 (t.readNat (k + 0x480 + 8 * (t.ga b).toNat) 8)) ∧
        n.view v.toNat = BitVec.ofNat 576 (t.boardView k)) ∧
    (Issues s (usesG [] [a]) t →
      ∃ n, exec (.brdclr a) s = .next n ∧ next n ∧ SameG [] t n ∧ empty n ∧
        n.readNat (k + 0x444) 2 = (t.readNat (k + 0x444) 2 + 1) % 2 ^ 16 ∧ n.readNat (k + 0x448) 2 = size)

/-- TAKING A TRAP (R418, R419, R420): a system call goes to the system level; any other cause goes to the user level
of a thread at user privilege that has a user vector and is outside its user routine, and else to the system level
where it has a system vector and is outside its system routine. EPC, ECAUSE and EADDR are written, the privilege is
the level's, the PC is the code base plus the level's vector, with bit 0 clear, the old PC, privilege, trap registers
and hazards are saved, and the g, v, k and b registers and the memory stay. An unhandled trap of a thread freezes it
and reports it (R422). BRK raises its breakpoint at itself with its immediate as EADDR, and TRAP is a system call
whose EPC is the next instruction (R393, R421). RETURNING FROM A TRAP (R394, R419): inside a trap routine ERET
restores the PC from EPC, and the privilege, trap registers and hazards that the entry saved; outside one it is an
illegal instruction. So a routine that changes nothing goes back to where the trap was taken. -/
def Obligations.TrapsEnterAndReturn : Prop :=
  (
  ∀ (s : State) (cause : Nat) (epc eaddr : Word) (asy : Bool),
    let x := s.sl
    let user := s.evec.toNat % 2 ^ 32
    let system := s.evec.toNat / 2 ^ 32
    let takes (sys : Bool) : Prop :=
      let n := s.takeTrap cause epc eaddr asy
      SameAround s n ∧ SameG [] s n ∧ n.sl.v = x.v ∧ n.sl.k = x.k ∧ n.sl.b = x.b ∧
        n.sl.st = .ready ∧ n.sl.priv = sys ∧ n.sl.haz = [] ∧ n.sl.gang = { x.gang with size := 1 } ∧
        n.sl.pc = { s.job.code with
                    addr := BitVec.ofNat 64 ((s.job.code.bounds.1.toNat + if sys then system else user) / 2 * 2) } ∧
        n.sl.sys = { x.sys with epc, ecause := BitVec.ofNat 64 (cause + if asy then 256 else 0), eaddr } ∧
        (let saved : TrapState := { hi := x.pc.hi, priv := x.priv, inUser := x.inUser, ecause := x.sys.ecause
                                    epc := x.sys.epc, eaddr := x.sys.eaddr, haz := x.haz }
         if sys then n.sl.trapSystem = saved ∧ n.sl.inSystem = true ∧ n.sl.trapUser = x.trapUser ∧ n.sl.inUser = x.inUser
         else n.sl.trapUser = saved ∧ n.sl.inUser = true ∧ n.sl.trapSystem = x.trapSystem ∧ n.sl.inSystem = x.inSystem)
    let toUser := cause ≠ 0x15 ∧ x.priv = false ∧ user ≠ 0 ∧ x.inUser = false
    let toSystem := system ≠ 0 ∧ x.inSystem = false
    (toUser → takes false) ∧ (¬ toUser → toSystem → takes true) ∧
    (¬ toUser → ¬ toSystem → s.slot ≠ 0 →
      let n := s.takeTrap cause epc eaddr asy
      n.sl.st = .frozen ∧ SameG [] s n ∧ n.mem = s.mem ∧ ∃ f, n.net = s.net ++ [f] ∧ f.dst = firmware ∧ f.op = 0xC6)) ∧
  (
  ∀ (i : BitVec 12) (a : BitVec 10) (s t : State), Issues s {} t →
    exec (.brk i) s = .next (t.takeTrap 0x14 t.sl.pc.addr (i.setWidth 64)) ∧
    exec (.cBrk a) s = .next (t.takeTrap 0x14 t.sl.pc.addr (a.setWidth 64)) ∧
    ∃ r, Retired 4 [] t r ∧ exec (.trap i) s = .next (r.takeTrap 0x15 (t.sl.pc.addr + 4) (i.setWidth 64))) ∧
  (
  (∀ s t : State, inRoutine s.sl = true → Issues s { sync := true } t → targetFault t (eretTarget t.sl) = none →
    let x := t.sl
    let saved := if x.priv then x.trapSystem else x.trapUser
    ∃ n, exec .eret s = .next n ∧ SameAround t n ∧ SameG [] t n ∧ n.sl.v = x.v ∧ n.sl.k = x.k ∧ n.sl.b = x.b ∧
      n.sl.pc.hi = saved.hi ∧ n.sl.pc.addr = x.sys.epc &&& ~~~1 ∧ n.sl.priv = saved.priv ∧ n.sl.haz = saved.haz ∧
      n.sl.sys = { x.sys with epc := saved.epc, ecause := saved.ecause, eaddr := saved.eaddr } ∧
      (x.priv = true → n.sl.inSystem = false ∧ n.sl.inUser = saved.inUser) ∧
      (x.priv = false → n.sl.inUser = false ∧ n.sl.inSystem = x.inSystem)) ∧
  (∀ s : State, inRoutine s.sl = false → exec .eret s = .next (s.takeTrap 0x01 s.sl.pc.addr s.fetched)) ∧
  (∀ (s : State) (cause : Nat) (eaddr : Word) (sys : Bool), trapLevel s.sl s.evec cause = some sys →
    let t := s.takeTrap cause s.sl.pc.addr eaddr
    s.sl.pc.addr.getLsbD 0 = false → targetFault t (eretTarget t.sl) = none →
    ∃ n, exec .eret t = .next n ∧ n.sl.pc.addr = s.sl.pc.addr ∧ n.sl.pc.hi = s.sl.pc.hi ∧ n.sl.priv = s.sl.priv ∧
      n.sl.haz = s.sl.haz ∧ n.sl.sys = s.sl.sys ∧ SameG [] s n))

/-- The checks of decode and issue come in their order before any effect: a system-only instruction at user privilege
raises 0x01, a malformed operand, a misaligned register group or a broken window 0x02, a register out of bounds 0x03,
and a leased register, one that a result lands in before it among them, 0x04 with the job in EADDR; each trap is
precise at the instruction, and lands nothing. A word of a v register that a scheduled instruction reads and that
cannot be read raises 0x10 of the leader, or gang member trap 0x0F with the member, before any effect (R224, R208,
R220, R223, R67, R172; logs 13, 16). -/
def Obligations.IssueChecksInOrder : Prop :=
  ∀ (s : State) (len : Nat) (u : Uses) (body : State → Ret),
    let traps (cause : Nat) (eaddr : Word) : Prop := issue s len u body = .next (s.takeTrap cause s.sl.pc.addr eaddr)
    let wrong := u.bad = true ∨ misaligned u = true ∨ issueCheck u s.sl.haz = none
    let system := u.sysOnly = true ∧ s.sl.priv = false
    (system → traps 0x01 s.fetched) ∧
    (¬ system → wrong → traps 0x02 0) ∧
    (¬ system → ¬ wrong → outOfBounds s.sl u = true → traps 0x03 0) ∧
    (∀ l k, ¬ system → ¬ wrong → outOfBounds s.sl u = false → issueCheck u s.sl.haz = some (l, k) →
      let t := (s.landAll l).modSl fun x => { x with haz := k }
      ∀ j, s.leaseOn u l = some j → traps 0x04 (BitVec.ofNat 64 (j.id + 256 * j.kind))) ∧
    (∀ t, Issues s u t → issue s len u body = .next (settle len u (body t))) ∧
    (∀ (f : SForm) (sp : SchedSpec) (t : State) (m : Nat),
      ∀ i ∈ [Instr.vadd f, .vsub f, .vmul f, .vfma f, .vmin f, .viadd f, .vcmp f, .vsel f, .vred f, .vperm f, .vkey f, .vpair f, .ldv f, .stv f],
        schedSpec i = some (f, sp) → Issues s (vecUses f sp) t → f.ps = 0 →
        t.lostMember ((reachFor i (vecUses f sp) (t.operands f sp)).pool t.sl.gang.size t.sl.keep) = some m →
        exec i s = .next (if m = 0 then t.takeTrap 0x10 t.sl.pc.addr 0
          else t.takeTrap 0x0F t.sl.pc.addr (BitVec.ofNat 64 (0x1000 + m))))

/-- SRR reads the register of its number, SRW writes it, SRS and SRC set and clear bits of it and return the old value
(R393): every register that R229 lists is read with the value that its core, slot, job or die holds, by the layouts of
R230, R162, R178, R231, R127 and R120 (NCNT and SCNT where the counts fit their fields); a written register reads back
without its reserved bits, EVEC at user privilege with its SVEC as it was, PGSTAT with its MISS, LPQ loses its head
entry and its counter, and LINKPWR takes a FLOOR of 3 as 2; a read-only register keeps its value, and so do LINKPWR at
user privilege, EVEC in a wayfarer and AMX there, which it has not (log 9); a number that is not listed raises illegal
instruction, as PGSTAT and LPQ do at user privilege; and SIGDEPTH and SIGDIM take 1 to 8 only. -/
def Obligations.SystemRegisters : Prop :=
  ∀ (d a : GReg) (s t : State),
    let next (l : List GReg) (n : State) : Prop := SameG l t n ∧ n.sl.st = .ready ∧ n.mem = t.mem ∧ n.net = t.net ∧
      n.sl.pc = { t.sl.pc with addr := t.sl.pc.addr + 4 }
    let die := t.dieAt t.core.die
    let narrow := die.links.countP fun l => l.2 == .narrow
    let asleep := die.links.countP fun l => l.2 == .sleep
    let reads (i : BitVec 12) (x : Word) : Prop := ∃ n, exec (.srr d i) s = .next n ∧ Retired 4 [d] t n ∧ n.g d = Cap.ofWord x
    (Issues s (usesG [d] []) t →
      ∀ p ∈ ([(0x02, t.core.setWidth 64), (0x03, BitVec.ofNat 64 t.slot), (0x04, t.sl.gen.setWidth 64), (0x05, t.cr.partw),
          (0x07, t.sl.mirmask.setWidth 64), (0x10, t.sl.sys.fpctl), (0x11, t.sl.sys.fpstat), 
          (0x12, if t.sl.wayfarer then Config.absentRegister 0x12 else t.sl.sys.amx),
          (0x06, if t.sl.wayfarer then 0x80 else BitVec.ofNat 64 t.sl.quota), (0x13, 0x03356666),
          (0x18, t.sl.sys.sigdepth), (0x19, t.sl.sys.sigdim), (0x40, t.sl.sys.epc), (0x41, t.sl.sys.ecause),
          (0x42, t.sl.sys.eaddr), (0x43, t.evec), (0x50, t.ts)] : List (BitVec 12 × Word)),
        reads p.1 p.2) ∧
    (∀ r ∈ [(0, 0x03E8820080000200, 0x0190002800180200), (1, 0x0640840200000800, 0x02800040001E0301),
          (2, 0x0960840600001000, 0x03C0006000280402), (3, 0x0C80482000002000, 0x0500008000340503)],
        tier t.core = r.1 → Issues s (usesG [d] []) t → reads 0x00 (BitVec.ofNat 64 r.2.1) ∧ reads 0x01 (BitVec.ofNat 64 r.2.2)) ∧
    (Issues s (usesG [d] []) t →
      (∀ i < 8, reads (BitVec.ofNat 12 (0x20 + i)) (look 0 (t.sl.mem.levels.getD (t.jobAt (t.cr.owner.getD 0)).levels) i)) ∧
      (t.sl.priv = true → reads 0x44 ((t.cr.pgstat >>> 16 <<< 16) + BitVec.ofNat 64 (min (missPages t.cr).length 4))) ∧
      (t.sl.priv = true → t.cr.msg.lpq = [] → reads 0x45 (BitVec.ofNat 64 (2 ^ 32 * t.cr.msg.lpqCount))) ∧
      (∀ e r, t.sl.priv = true → t.cr.msg.lpq = e :: r →
        reads 0x45 (BitVec.ofNat 64 (2 ^ 63 + 2 ^ 32 * t.cr.msg.lpqCount) + (e.extractLsb' 89 16).setWidth 64 <<< 16 +
          (e.extractLsb' 82 5).setWidth 64 <<< 11 + (e.extractLsb' 72 10).setWidth 64 <<< 1)) ∧
      (narrow < 256 → asleep < 256 →
        reads 0x51 ((die.linkpwr &&& 0x0000FFFF00000003) + BitVec.ofNat 64 (2 ^ 16 * narrow + 2 ^ 8 * asleep)))) ∧
    (∀ i : BitVec 12, ∀ w ∈ [(Instr.srw a i, usesG [] [a], t.ga a, []), (.srs d a i, usesG [d] [a], t.ownReg i ||| t.ga a, [d]),
        (.src d a i, usesG [d] [a], t.ownReg i &&& ~~~t.ga a, [d])], Issues s w.2.1 t →
      let writes (p : State → Prop) : Prop := ∃ n, exec w.1 s = .next n ∧ next w.2.2.2 n ∧ p n
      (i = 0x43 → t.sl.wayfarer = false → writes fun n => n.ownReg i =
        if t.sl.priv then w.2.2.1 &&& 0xFFFFFFFEFFFFFFFE
        else (t.evec &&& 0xFFFFFFFE00000000) ||| (w.2.2.1 &&& 0x00000000FFFFFFFE)) ∧
      (i = 0x44 → t.sl.priv = true → writes fun n => n.ownReg i >>> 16 = w.2.2.1 >>> 16) ∧
      (i = 0x45 → t.sl.priv = true → writes fun n =>
        n.cr.msg.lpq = (if w.2.2.1.getLsbD 63 then t.cr.msg.lpq.tail else t.cr.msg.lpq) ∧
        n.cr.msg.lpqCount = if w.2.2.1.getLsbD 62 then 0 else t.cr.msg.lpqCount) ∧
      (i = 0x51 → t.sl.priv = true → narrow < 256 → asleep < 256 → writes fun n => n.ownReg i =
        (w.2.2.1 &&& 0x0000FFFF00000000) ||| (t.ownReg i &&& 0x0000000000FFFF00) |||
          (if w.2.2.1 &&& 3 = 3 then 2 else w.2.2.1 &&& 3))) ∧
    (∀ p ∈ ([(0x10, 3), (0x11, 0x3F), (0x12, 0x1FFFFFFFF), (0x40, -1), (0x41, 0x1FF), (0x42, -1)] : List (BitVec 12 × Word)),
      (p.1 = 0x12 → t.sl.wayfarer = false) →
      (Issues s (usesG [] [a]) t → ∃ n, exec (.srw a p.1) s = .next n ∧ next [] n ∧ n.ownReg p.1 = t.ga a &&& p.2) ∧
      (Issues s (usesG [d] [a]) t →
        (∃ n, exec (.srs d a p.1) s = .next n ∧ next [d] n ∧ n.g d = Cap.ofWord (t.ownReg p.1) ∧
          n.ownReg p.1 = (t.ownReg p.1 ||| t.ga a) &&& p.2) ∧
        (∃ n, exec (.src d a p.1) s = .next n ∧ next [d] n ∧ n.g d = Cap.ofWord (t.ownReg p.1) ∧
          n.ownReg p.1 = (t.ownReg p.1 &&& ~~~t.ga a) &&& p.2))) ∧
    (Issues s (usesG [] [a]) t → ∀ i : BitVec 12, ((i = 0x12 ∨ i = 0x43) ∧ t.sl.wayfarer = true) ∨ (i = 0x51 ∧ t.sl.priv = false) ∨ i.toNat ≤ 7 ∨ i = 0x13 ∨ (0x20 ≤ i.toNat ∧ i.toNat ≤ 0x27) ∨ i = 0x50 →
      ∃ n, exec (.srw a i) s = .next n ∧ Retired 4 [] t n) ∧
    (Issues s (usesG [] [a]) t → ∀ i ∈ ([0x18, 0x19] : List (BitVec 12)),
      ((t.ga a = 0 ∨ 8 < (t.ga a).toNat) → exec (.srw a i) s = .next (s.takeTrap 0x02 s.sl.pc.addr 0)) ∧
      (t.ga a ≠ 0 → (t.ga a).toNat ≤ 8 → ∃ n, exec (.srw a i) s = .next n ∧ next [] n ∧ n.ownReg i = t.ga a)) ∧
    (∀ i : BitVec 12, (listedRegister i.toNat = false ∨ (s.sl.priv = false ∧ (i = 0x44 ∨ i = 0x45))) →
      exec (.srr d i) s = .next (s.takeTrap 0x01 s.sl.pc.addr s.fetched) ∧
      exec (.srw a i) s = .next (s.takeTrap 0x01 s.sl.pc.addr s.fetched))

/-- TSREAD reads TSNOW; HALT stops the core for every slot but a handler that runs; PARTSET in the handler slot
installs a valid partition on a quiet core, and waits on one that is not; CURVE installs a valid table of its LOCAL
image and refuses an invalid one; TLBINV sends an invalidation to each die and the walkers and waits for the answers
(R395, R396, R398, R399, R400). The control space of a core: removing the head of its lost property, clearing its
count, and ending a halt (R127, R232). A side-band request is answered, telemetry once general firmware has started
and attestation once trusted firmware has, with a refusal when the module has lost its identity, and nothing after a
shutdown (R447, R451, R452, R453). -/
def Obligations.CoreControlAndServices : Prop :=
  (
  (∀ (d : GReg) (s t : State), Issues s (usesG [d] []) t →
    ∃ n, exec (.tsread d) s = .next n ∧ Retired 4 [d] t n ∧ n.g d = Cap.ofWord t.ts) ∧
  (∀ s t : State, Issues s { sysOnly := true } t →
    ∃ n, exec .halt s = .next n ∧ Retired 4 [] t (n.modCr fun x => { x with halted := t.cr.halted }) ∧ n.cr.halted = true ∧
      ∀ held i, issueChoice n.core n.cr held = some i → i = 0) ∧
  (∀ (a : GReg) (s t : State), Issues s { usesG [] [a] with sysOnly := true } t → t.slot = 0 →
    partwValid t.core (t.ga a) = true →
    (t.quiet t.core = true → ∃ n, exec (.partset a) s = .next n ∧ n.cr.partw = t.ga a ∧ n.cr.partPending = none ∧
      SameG [] t n ∧ n.sl.st = .ready ∧ n.sl.pc = { t.sl.pc with addr := t.sl.pc.addr + 4 } ∧
      (∀ j, j < Config.poolBase → n.byteAt j = t.byteAt j)) ∧
    (t.quiet t.core = false → ∃ n, exec (.partset a) s = .next n ∧ n.cr.partPending = some (t.ga a) ∧
      n.cr.partw = t.cr.partw ∧ n.sl.st = .stalled ∧ n.sl.pc = t.sl.pc ∧ n.mem = t.mem)) ∧
  (∀ (a : GReg) (c : BitVec 2) (s t : State) (k : Nat), Issues s (usesG [] [a]) t → Covers t (t.g a) loadNeed (t.ga a).toNat 192 k →
    let image := BitVec.ofNat 1536 (t.readNat k 192)
    (curveValid image = true → ∃ n, exec (.curve a c) s = .next n ∧ look 0 n.cr.eng.curves c.toNat = image ∧ SameG [] t n ∧
      n.mem = t.mem ∧ n.sl.st = .ready ∧ n.sl.pc = { t.sl.pc with addr := t.sl.pc.addr + 4 }) ∧
    (curveValid image = false → ∃ p, exec (.curve a c) s = .next (({ t with pools := p } : State).takeTrap 0x02 t.sl.pc.addr 0))) ∧
  (∀ (a b : GReg) (k : BitVec 2) (s t : State), Issues s { usesG [] [a, b] with sysOnly := true } t → t.cr.msg.tags = [] →
    t.sendRoom false = true →
    ∃ n l, exec (.tlbinv a b k) s = .next n ∧ n.net = t.net ++ l ∧ l.map (·.dst) = (List.range 16).map dieScheduler ++ [walkers] ∧
      (∀ f ∈ l, f.op = 0xC5 ∧ f.rq = true ∧ f.src = t.core ∧
        f.pay = .shoot k.toNat t.jobNo (t.ga a).toNat ((t.ga a).toNat + (t.ga b).toNat)) ∧
      n.sl.st = .stalled ∧ n.sl.pc = t.sl.pc ∧ SameG [] t n)) ∧
  (
  ∀ (s : State) (c : Coord),
    (∃ n, exec (.lpqRemoveHead c) s = .next n ∧ (n.coreAt c).msg = { (s.coreAt c).msg with lpq := (s.coreAt c).msg.lpq.tail } ∧
      n.mem = s.mem ∧ n.net = s.net ∧ ∀ d, d ≠ c → n.coreAt d = s.coreAt d) ∧
    (∃ n, exec (.lpqClearCnt c) s = .next n ∧ (n.coreAt c).msg = { (s.coreAt c).msg with lpqCount := 0 } ∧
      n.mem = s.mem ∧ n.net = s.net ∧ ∀ d, d ≠ c → n.coreAt d = s.coreAt d) ∧
    (∃ n l, exec (.runControlResume c) s = .next n ∧
      n.coreAt c = { s.coreAt c with halted := false, msg := { (s.coreAt c).msg with roomAt := l } } ∧
      n.mem = s.mem ∧ n.net = s.net ∧ ∀ d, d ≠ c → n.coreAt d = s.coreAt d) ∧
    (∀ attest, s.pkg.shutdown = false → (if attest then 1 else 7) ≤ s.pkg.bringUp → exec (.mctpRequest attest) s = .next { s with
      pkg := { s.pkg with sideband := (if attest = true ∧ s.pkg.identityErased = true then false else true) :: s.pkg.sideband } }) ∧
    (∀ attest, (s.pkg.shutdown = true ∨ s.pkg.bringUp < if attest then 1 else 7) → exec (.mctpRequest attest) s = .next s))

/-- CTXSAVE writes the image of the thread at its address and 0 into its register; CTXLOAD of an image that passes the
checks of R434 replaces the context by it, and of any other raises illegal operand; SAFEPT with no pre-emption pending
lands every result and goes on, and with one pending the thread stands at its safe point (R280, R397, R434; what an
image holds beyond R431 to R433 is log 29). Pre-emption marks the threads of a unit with the time; 20,000 cycles later
a unit that has not reached its safe point is saved where it stands, and its slot is Empty with the next generation; a
saved unit that is marked for resume continues in a free slot with its registers and its PC, in a new generation
(R186, R427, R430; the clock is log 19). -/
def Obligations.ContextsAndPreemption : Prop :=
  (
  (∀ (d a : GReg) (s t : State) (k : Nat), Issues s { usesG [d] [a] with sysOnly := true } t → t.unleased = true →
    (t.g a).isSystem = true → let l := dwordBytes (imageDwords t d)
    Covers t (t.g a) { s := true, align := 16 } (t.ga a).toNat l.length k →
    ∃ n, exec (.ctxsave d a) s = .next n ∧ Retired 4 [d] t (n.memoryOf t) ∧ n.g d = Cap.ofWord 0 ∧ n.readBytes k l.length = l ∧
      ∀ j, (j < k ∨ k + l.length ≤ j) → n.byteAt j = t.byteAt j) ∧
  (∀ (a : GReg) (s t : State) (k : Nat), Issues s (ctxloadUses s.sl a) t → (t.g a).isSystem = true →
    let size := t.readNat (k + 4) 4
    Covers t (t.g a) imageNeed (t.ga a).toNat 16 k → Covers t (t.g a) imageNeed (t.ga a).toNat size k →
    size % 16 = 0 → 0x530 ≤ size → ((t.ga a).toNat + size : Int) ≤ (t.g a).bounds.2 →
    let m : Image := { d := (List.range (size / 8)).map fun i => t.readNat (k + 8 * i) 8 }
    (m.good t size = true → ∃ n, exec (.ctxload a) s = .next n ∧ n.mem = t.mem ∧ n.net = t.net ∧
      n.sl.pc.addr = BitVec.ofNat 64 (m.at 12 / 2 * 2) ∧ n.sl.pc.hi = BitVec.ofNat 64 (m.at 13) ∧ n.sl.priv = bit (m.at 0) 28 ∧
      n.sl.sys.epc = BitVec.ofNat 64 (m.at 4) ∧
      (∀ r : GReg, bit (m.at 2) (32 + r.toNat) = true →
        n.g r = { tag := bit (m.at 14) r.toNat, hi := BitVec.ofNat 64 (m.at (33 + 2 * r.toNat))
                  addr := BitVec.ofNat 64 (m.at (32 + 2 * r.toNat)) }) ∧
      (∀ r : GReg, bit (m.at 2) (32 + r.toNat) = false → n.g r = {})) ∧
    (m.good t size = false → ∃ p, exec (.ctxload a) s = .next (({ t with pools := p } : State).takeTrap 0x02 t.sl.pc.addr 0))) ∧
  (∀ (gm vm : BitVec 32) (s t : State), Issues s { sync := true } t → s.sl.wayfarer = false →
    (t.sl.mark = none → ∃ n, exec (.safept gm vm) s = .next n ∧ Retired 10 [] t n ∧ n.sl.haz = []) ∧
    (t.sl.mark ≠ none → t.unitSlots t.core.die t.jobNo t.sl.mem.unit = [(t.core, t.slot)] →
      ((t.cr.settled t.slot) = false ∨ t.doneOut t.core t.slot = true) →
      ∃ n, exec (.safept gm vm) s = .next n ∧ n.sl.st = .stalled ∧ n.sl.await = .safePoint gm vm ∧ SameG [] t n ∧
        n.mem = t.mem ∧ n.sl.pc = t.sl.pc))) ∧
  (
  (∀ (s : State) (c : Coord) (i : Nat), let x := s.slotAt c i
    i ≠ 0 → x.st = .ready → x.await = .none → s.unitSlots c.die x.mem.job x.mem.unit = [(c, i)] →
    ∃ n, exec (.preemptionMark c i) s = .next n ∧
      n.slotAt c i = { x with mark := some (x.mark.getD s.ts.toNat) } ∧ (∀ k, k ≠ i → n.slotAt c k = s.slotAt c k) ∧
      n.mem = s.mem ∧ n.net = s.net ∧ n.dies = s.dies) ∧
  (∀ (s : State) (c : Coord) (i since : Nat), let x := s.slotAt c i
    i ≠ 0 → x.mark = some since → s.elapsed c since 20000 = true → s.unitSlots c.die x.mem.job x.mem.unit = [(c, i)] →
    x.st = .ready → x.await = .none → x.gang = {} → x.wayfarer = false → (s.coreAt c).settled i = true → s.doneOut c i = false →
    ∃ n u y, exec (.forcedSave c i) s = .next n ∧ n.slotAt c i = { gen := x.gen + 1 } ∧
      (n.dieAt c.die).saved = (s.dieAt c.die).saved ++ [u] ∧ u.job = x.mem.job ∧ u.unit = x.mem.unit ∧ u.marked = true ∧
      u.threads = [y] ∧ y.core = c ∧ y.idx = i ∧ y.slot.pc = x.pc ∧ y.slot.sys = x.sys ∧ y.slot.haz = x.haz ∧
      (∀ r, r < 32 → look {} y.slot.g r = look {} x.g r) ∧ n.mem = s.mem ∧ n.net = s.net) ∧
  (∀ (s : State) (c : Coord) (m i : Nat) (frame : Option Nat) (u : SavedUnit) (y : SavedThread),
    (s.dieAt c.die).saved[m]? = some u → u.marked = true → (u.bound = none ∨ u.bound = some c.die) → u.threads = [y] →
    (y.home = none ∨ y.home = some c) → y.parked = [] → y.entries = [] → y.slot.gang = {} → y.followers = [] →
    s.open_ c = true → (s.clusterAt c).closed = false → tierOf c = tierOf y.core → (s.coreAt c).owner = some u.job →
    (s.coreAt c).partPending = none → (s.coreAt c).msg.pigeonhole.length ≤ 64 →
    s.findPlace c 1 (slotKernel y.slot) = some (i, frame, []) →
    ∃ n, exec (.unitResume c m) s = .next n ∧
      (n.dieAt c.die).saved = (s.dieAt c.die).saved.take m ++ (s.dieAt c.die).saved.drop (m + 1) ∧
      (∀ k, k ≠ i → n.slotAt c k = s.slotAt c k) ∧ n.mem = s.mem ∧ n.net = s.net ∧
      (y.slot.wayfarer = true → n.slotAt c i = { y.slot with
        st := .ready, gen := (s.slotAt c i).gen, frame, await := .none, pend := none, stamp := 0, age := 0, mark := none
        noMigrate := false }) ∧
      let x := n.slotAt c i
      (y.slot.wayfarer = false → x.st = .ready ∧ x.await = .none ∧ x.pend = none ∧ x.gen = (s.slotAt c i).gen ∧ x.frame = frame ∧
        x.mark = none ∧ x.pc = { y.slot.pc with addr := BitVec.ofNat 64 (y.slot.pc.addr.toNat / 2 * 2), tag := true } ∧ x.mem = y.slot.mem ∧ x.sys.epc = y.slot.sys.epc ∧
        x.sys.ecause = y.slot.sys.ecause ∧ x.sys.eaddr = y.slot.sys.eaddr ∧ (y.slot.sys.evec &&& 0x100000001 = 0 → x.sys.evec = y.slot.sys.evec) ∧
        x.sys.fpctl = y.slot.sys.fpctl ∧ x.sys.fpstat = y.slot.sys.fpstat ∧
        ∀ r, r < 32 → look {} x.g r = if y.gmask.getLsbD r then look {} y.slot.g r else {})))

/-- QPUSH puts a valid record with the job counter as its parent on the bottom of the deque and counts it, and QPOP
takes the youngest record into a register group; SPAWN puts one into the cluster queue or the die queue. Each writes
1, and 0 where the queue is full or empty (R322). CPLSIG completes the issuing thread's task, and the task of a record
its parent counts down, but never below zero: a surplus completion changes no counter and makes an error record;
LAUNCH submits the 128 bytes of its descriptor and waits for firmware, or writes 1 where the command queue is full
(R324, R325). LVLMAP maps a level of the job to a valid map, and waits while a task of the level runs; LVLRUN starts
one level task: a record on each die of the level, one child of the job counter, and a counter with one thread per
core of the level and the event of its operand (R391, R392). -/
def Obligations.TasksQueuesAndLevels : Prop :=
  (
  ∀ (d a : GReg) (z : BitVec 1) (s t : State), a.toNat % 4 = 0 →
    let r := t.recordAt a
    let h := t.job.counter
    let next (l : List GReg) (n : State) : Prop := SameG l t n ∧ n.sl.st = .ready ∧ n.mem = t.mem ∧ n.net = t.net ∧
      n.sl.pc = { t.sl.pc with addr := t.sl.pc.addr + 4 }
    let counted (n : State) : Prop := n.counterAt h = { t.counterAt h with count := (t.counterAt h).count + 1 }
    (Issues s (usesG [d] (four a)) t → recordValid t.job (tier t.core) r = true →
      (t.cr.dequeRoom = true → ∃ n, exec (.qpush d a) s = .next n ∧ next [d] n ∧ n.g d = Cap.ofWord 1 ∧ counted n ∧
        ∃ q, n.cr.deque = q :: t.cr.deque ∧ recParent q = h % 2 ^ 24 ∧
          q.extractLsb' 200 56 = r.extractLsb' 200 56 ∧ q.extractLsb' 0 176 = r.extractLsb' 0 176) ∧
      (t.cr.dequeRoom = false → ∃ n, exec (.qpush d a) s = .next n ∧ Retired 4 [d] t n ∧ n.g d = Cap.ofWord 0) ∧
      (z = 1 → ((t.dieAt t.core.die).queueOf (tier t.core)).length < 4096 →
        ∃ n q, exec (.spawn d a z) s = .next n ∧ next [d] n ∧ n.g d = Cap.ofWord 1 ∧ counted n ∧
          (n.dieAt t.core.die).queueOf (tier t.core) = (t.dieAt t.core.die).queueOf (tier t.core) ++ [q] ∧
          recParent q.record = h % 2 ^ 24 ∧ q.job = t.jobNo ∧ q.since = t.ts.toNat) ∧
      (z = 0 → recShape r ≠ 2 → (t.clusterAt t.core).queue.length < 64 →
        ∃ n q, exec (.spawn d a z) s = .next n ∧ next [d] n ∧ n.g d = Cap.ofWord 1 ∧ counted n ∧
          (n.clusterAt t.core).queue = (t.clusterAt t.core).queue ++ [q] ∧ recParent q.record = h % 2 ^ 24 ∧
          q.job = t.jobNo ∧ q.since = t.ts.toNat) ∧
      ((z = 1 ∧ 4096 ≤ ((t.dieAt t.core.die).queueOf (tier t.core)).length) ∨
          (z = 0 ∧ recShape r ≠ 2 ∧ 64 ≤ (t.clusterAt t.core).queue.length) →
        ∃ n, exec (.spawn d a z) s = .next n ∧ Retired 4 [d] t n ∧ n.g d = Cap.ofWord 0)) ∧
    (Issues s (usesG (d :: four a) []) t →
      (∀ q l, t.cr.deque = q :: l → ∃ n, exec (.qpop d a) s = .next n ∧ next (d :: four a) n ∧ n.cr.deque = l ∧
        n.g d = Cap.ofWord 1 ∧ (d ∉ four a → n.recordAt a = q)) ∧
      (t.cr.deque = [] → ∃ n, exec (.qpop d a) s = .next n ∧ Retired 4 [d] t n ∧ n.g d = Cap.ofWord 0))) ∧
  (
  (∀ s t : State, Issues s {} t → s.slot ≠ 0 → (t.counterAt t.sl.mem.ctr).over = false →
    (t.counterAt t.sl.mem.ctr).parent = none →
    ∃ n, exec .cplsig s = .next n ∧ n.counterAt t.sl.mem.ctr = { t.counterAt t.sl.mem.ctr with count := 0, closed := true } ∧
      SameG [] t n ∧ n.mem = t.mem ∧ n.sl.st = .ready ∧ n.sl.pc = { t.sl.pc with addr := t.sl.pc.addr + 4 }) ∧
  (∀ (a : GReg) (s t : State), Issues s (usesG [] (four a)) t → a.toNat % 4 = 0 →
    let h := recParent (t.recordAt a)
    let next (n : State) : Prop := SameG [] t n ∧ n.mem = t.mem ∧ n.sl.st = .ready ∧
      n.sl.pc = { t.sl.pc with addr := t.sl.pc.addr + 4 }
    (t.counterAt h).closed = false →
    (1 < (t.counterAt h).count →
      ∃ n, exec (.cplsigTask a) s = .next n ∧ next n ∧
        n.counterAt h = { t.counterAt h with count := (t.counterAt h).count - 1 }) ∧
    ((t.counterAt h).count = 0 →
      ∃ n f, exec (.cplsigTask a) s = .next n ∧ next n ∧ n.counters = t.counters ∧ f ∈ n.net ∧ f.op = 0xC6 ∧ f.dst = firmware ∧
        f.src = dieScheduler (counterDie h))) ∧
  (∀ (d a : GReg) (s t : State) (k : Nat), Issues s (usesG [d] [a]) t → t.slot ≠ 0 →
    Covers t (t.g a) { l := true } (t.ga a).toNat 128 k →
    let q := look [] t.pkg.commands launchQueue
    (64 ≤ q.length → ∃ n, exec (.launch d a) s = .next n ∧ Retired 4 [d] t n ∧ n.g d = Cap.ofWord 1) ∧
    (q.length < 64 → ∃ n e, exec (.launch d a) s = .next n ∧ look [] n.pkg.commands launchQueue = q ++ [e] ∧
      e.desc = BitVec.ofNat 1024 (t.readNat k 128) ∧ e.job = some t.jobNo ∧ e.waiter = some (t.core, t.slot, t.sl.gen) ∧
      n.sl.st = .stalled ∧ n.sl.pc = t.sl.pc ∧ SameG [] t n ∧ n.mem = t.mem))) ∧
  (
  (∀ (a : GReg) (l : BitVec 3) (s t : State), Issues s (usesG [] [a]) t → levelValid (t.ga a).toNat = true →
    (t.levelBusy l.toNat = false → ∃ n, exec (.lvlmap a l) s = .next n ∧ look 0 n.job.levels l.toNat = t.ga a ∧
      (∀ m, m ≠ l.toNat → look 0 n.job.levels m = look 0 t.job.levels m) ∧ Retired 4 [] t { n with jobs := t.jobs }) ∧
    (t.levelBusy l.toNat = true → ∃ n, exec (.lvlmap a l) s = .next n ∧ n.sl.st = .stalled ∧ n.jobs = t.jobs ∧
      n.sl.pc = t.sl.pc)) ∧
  (∀ (a b : GReg) (p : BitVec 2) (l : BitVec 3) (s t : State), Issues s (usesG [] [a, b]) t → lvlrunCheck a b l t = none →
    t.job.events.contains (t.ga b).toNat = true → t.levelBusy l.toNat = false →
    let e := t.levelEntry l.toNat
    (∀ d ∈ levelDies e, ((t.dieAt d).queueOf (lvlTier e)).length < 4096) → t.job.counter ≠ 2 ^ 20 * t.core.die + t.pkg.nextCounter % 2 ^ 20 →
    ∃ n h, exec (.lvlrun a b p l) s = .next n ∧ Retired 4 [] t { n with jobs := t.jobs, dies := t.dies, counters := t.counters, pkg := t.pkg } ∧
      n.counterAt h = { count := (levelCores e).length, parent := some t.job.counter, event := some (t.ga b).toNat
                        job := t.jobNo } ∧
      n.counterAt t.job.counter = { t.counterAt t.job.counter with count := (t.counterAt t.job.counter).count + 1 } ∧
      (l.toNat, h) ∈ n.job.levelTasks ∧
      (∀ d, d ∉ levelDies e → n.dieAt d = t.dieAt d) ∧
      ∀ d ∈ levelDies e, ∃ q, (n.dieAt d).queueOf (lvlTier e) = (t.dieAt d).queueOf (lvlTier e) ++ [q] ∧
        recKernel q.record = (t.ga a).toNat % 256 ∧ recPri q.record = p.toNat ∧ recShape q.record = 0 ∧ recGang q.record = 1 ∧
        recParent q.record = t.job.counter % 2 ^ 24 ∧ q.job = t.jobNo ∧ q.level = some l.toNat ∧ q.ctr = h ∧
        q.cores = (levelCores e).filter fun c => c.die == d))

/-- MSTAT and CSTAT report a job whose DONE entry is not written yet, a DONE entry that stands, or 0, and change
nothing; MWAIT waits while the matrix job is outstanding, then takes its DONE entry, or writes 0 where none stands; a
fault entry raises engine job fault at the next instruction, an id above 255 is an illegal operand, and in the handler
slot MWAIT raises handler wait (R362, R372, R423). MWAIT g5, g3 is 0xE34A3000 and CSTAT g5, g3 is 0xE3CA3000. -/
def Obligations.JobStatus : Prop :=
  (∀ (d a : GReg) (s t : State), Issues s (usesG [d] [a]) t →
    let id := (t.ga a).toNat
    let pc4 : Cap := { t.sl.pc with addr := t.sl.pc.addr + 4 }
    (256 ≤ id → ∀ i ∈ [Instr.mstat d a, .cstat d a, .mwait d a], exec i s = .next (s.takeTrap 0x02 s.sl.pc.addr 0)) ∧
    (id < 256 →
      (∀ p ∈ [(Instr.mstat d a, kindMatrix), (.cstat d a, kindPorter)],
        let running := t.cr.eng.jobs.any fun j => sameCounter j.kind p.2 && j.id == id && !j.told
        ∃ n, exec p.1 s = .next n ∧ Retired 4 [d] t n ∧
          (running = true → n.ga d = BitVec.ofNat 64 (0xFF * 2 ^ 56 + 2 ^ 48 * id)) ∧
          (running = false → t.cr.msg.pigeonhole.find? (entryIs p.2 id) = none → n.ga d = 0) ∧
          (∀ e, running = false → t.cr.msg.pigeonhole.find? (entryIs p.2 id) = some e → n.ga d = entrySummary e)) ∧
      (t.slot = 0 → exec (.mwait d a) s = .next (t.takeTrap 0x0E t.sl.pc.addr 0)) ∧
      (t.slot ≠ 0 → t.cr.outstanding kindMatrix id = true →
        ∃ n, exec (.mwait d a) s = .next n ∧ n.sl.st = .waiting ∧ SameG [] t n ∧ n.sl.pc = t.sl.pc) ∧
      (t.slot ≠ 0 → t.cr.outstanding kindMatrix id = false → t.cr.msg.pigeonhole.find? (entryIs kindMatrix id) = none →
        ∃ n, exec (.mwait d a) s = .next n ∧ Retired 4 [d] t n ∧ n.g d = Cap.ofWord 0) ∧
      (∀ e l r, t.slot ≠ 0 → t.cr.outstanding kindMatrix id = false → t.cr.msg.pigeonhole = l ++ e :: r →
        l.any (entryIs kindMatrix id) = false → entryIs kindMatrix id e = true →
        ∃ n : State, n.cr.msg.pigeonhole = l ++ r ∧ n.g d = Cap.ofWord (entrySummary e) ∧ SameG [d] t n ∧
          n.mem = t.mem ∧ n.sl.pc = pc4 ∧
          (e.extractLsb' 488 8 = 0 → exec (.mwait d a) s = .next n) ∧
          (e.extractLsb' 488 8 ≠ 0 → exec (.mwait d a) s = .next (n.takeTrap 0x12 pc4.addr (e.extractLsb' 352 64) true))))) ∧
  decodeBytes ([0xE34A, 0x3000].flatMap (leBytes 2)) = .ok (.mwait 5 3, []) ∧
  decodeBytes ([0xE3CA, 0x3000].flatMap (leBytes 2)) = .ok (.cstat 5 3, [])

/-- Lane by lane, an integer or bitwise instruction leaves for its destination register, in every active element, the
result of R333, R334 or R336 on the elements of its sources as they stand at issue, modulo the element width, and the
old element elsewhere; saturation sets SAT (R328, R330). The sources are v registers or port entries. Lane by lane, a
floating-point instruction leaves in every active element the exact result of R332 rounded once to the type in the
mode of FPCTL, or for minimum, maximum, magnitude and sign the element that R333 picks, and a special function the
correctly rounded value of R344, to nearest even; the flags of the active elements are ORed into FPSTAT (R329, R330).
VCMP leaves the truth of its condition in the bits of the lanes of active elements (R335). -/
def Obligations.VectorLanes : Prop :=
  (
  ∀ (f : SForm) (sp : SchedSpec) (s t : State),
    let x := t.operands f sp
    let w := x.w
    let a (e : Nat) : Nat := elem w x.a e
    let b (e : Nat) : Nat := elem w x.b e
    let count (e : Nat) : Nat := if f.md = 1 then f.fs.toNat % 64 else b e % w
    let I (y : Nat) : Int := intOf x.t y
    let low : Int := if isSignedType x.t then -(2 ^ (w - 1)) else 0
    let high : Int := if isSignedType x.t then 2 ^ (w - 1) - 1 else 2 ^ w - 1
    let lanes (i : Instr) (r : Nat → Int) (flags : Nat) : Prop := VecIssues i f sp s t →
      ∃ n v, exec i s = .next n ∧ Leaves (leaving f [(f.vd.toNat, vecParts x.g v)] [] []) flags t.sl.sys.amx t n ∧
        ∀ e < x.n, elem w v e = if x.active e then (r e % 2 ^ w).toNat else elem w x.d e
    let exact (i : Instr) (r : Nat → Int) (sat : Bool) : Prop :=
      lanes i (fun e => if sat then max low (min high (r e)) else r e)
        (if sat && x.actives.any fun e => r e < low || high < r e then 32 else 0)
    (isIntType x.t = true →
      exact (.viadd f) (fun e => I (a e) + I (b e)) (f.md == 1) ∧ exact (.visub f) (fun e => I (a e) - I (b e)) (f.md == 1) ∧
      (f.md ≠ 2 → exact (.vimul f) (fun e => I (a e) * I (b e)) (f.md == 1)) ∧
      (f.md = 2 → exact (.vimul f) (fun e => I (a e) * I (b e) / 2 ^ w) false)) ∧
    (isFloat4 x.t = false →
      lanes (.vmin f) (fun e => if I (b e) < I (a e) then b e else a e) 0 ∧
      lanes (.vmax f) (fun e => if I (a e) < I (b e) then b e else a e) 0 ∧
      lanes (.vabs f) (fun e => (I (a e)).natAbs) 0 ∧ lanes (.vneg f) (fun e => -I (a e)) 0) ∧
    lanes (.vand f) (fun e => (a e &&& b e : Nat)) 0 ∧ lanes (.vor f) (fun e => (a e ||| b e : Nat)) 0 ∧
    lanes (.vxor f) (fun e => (a e ^^^ b e : Nat)) 0 ∧ lanes (.vnot f) (fun e => 2 ^ w - 1 - (a e : Int)) 0 ∧
    lanes (.vshl f) (fun e => (a e * 2 ^ count e : Nat)) 0 ∧ lanes (.vshr f) (fun e => (a e / 2 ^ count e : Nat)) 0 ∧
    lanes (.vsar f) (fun e => signed (a e) w / 2 ^ count e) 0 ∧
    lanes (.vsel f) (fun e => (elem w (if bit x.c (w * e / 32) then x.a else x.b) e : Nat)) 0) ∧
  (
  ∀ (f : SForm) (sp : SchedSpec) (s t : State),
    let x := t.operands f sp
    let w := x.w
    let lanes (i : Instr) (r : Nat → Nat → Nat → Nat × Nat) : Prop := VecIssues i f sp s t →
      ∃ n v, exec i s = .next n ∧
        Leaves (leaving f [(f.vd.toNat, vecParts x.g v)] [] [])
          (orAll (x.actives.map fun e => (r (elem w x.a e) (elem w x.b e) (elem w x.c e)).2)) t.sl.sys.amx t n ∧
        ∀ e < x.n, elem w v e =
          if x.active e then (r (elem w x.a e) (elem w x.b e) (elem w x.c e)).1 % 2 ^ w else elem w x.d e
    let num (y : Nat) : Machine.Num := decodeNum x.t y
    let rounded (y : Machine.Num × Nat) : Nat × Nat := finish x.t x.rm y
    lanes (.vadd f) (fun a b _ => rounded ((num a).add x.rm (num b))) ∧
    lanes (.vsub f) (fun a b _ => rounded ((num a).add x.rm (num b).neg)) ∧
    lanes (.vmul f) (fun a b _ => rounded ((num a).mul (num b))) ∧
    lanes (.vfma f) (fun a b c => rounded (Num.fma x.rm (num a) (num b) (num c))) ∧
    lanes (.vfms f) (fun a b c => rounded (Num.fma x.rm (num a) (num b) (num c).neg)) ∧
    lanes (.vfnma f) (fun a b c => rounded (Num.fma x.rm (num a).neg (num b) (num c))) ∧
    lanes (.vdiv f) (fun a b _ => rounded ((num a).div (num b))) ∧ lanes (.vsqrt f) (fun a _ _ => rounded (num a).sqrt) ∧
    (isFloat4 x.t = true →
      lanes (.vmin f) (fun a b _ => fpPick false x.t a b) ∧ lanes (.vmax f) (fun a b _ => fpPick true x.t a b) ∧
      lanes (.vabs f) (fun a _ _ => fpSign x.t a fun _ => 0) ∧ lanes (.vneg f) (fun a _ _ => fpSign x.t a (1 - ·))) ∧
    (∀ p ∈ ([(.vrcp f, fnRcp), (.vrsq f, fnRsq), (.vexp2 f, fnExp2), (.vlog2 f, fnLog2), (.vsin f, fnSin), (.vcos f, fnCos),
        (.vtanh f, fnTanh)] : List (Instr × (Nat → Machine.Num → Nat × Nat))),
      lanes p.1 (fun a _ _ => if (num a).isNaN then (canonicalNaN x.t, if (num a).isSignalling then 16 else 0) else p.2 x.t (num a))) ∧
    (VecIssues (.vcmp f) f sp s t →
      let holds (e : Nat) : Bool :=
        if isFloat4 x.t then fpCond f.md.toNat x.t (elem w x.a e) (elem w x.b e)
        else intCond f.md.toNat (intOf x.t (elem w x.a e)) (intOf x.t (elem w x.b e))
      ∃ n k flags, exec (.vcmp f) s = .next n ∧ Leaves (leaving f [] [] [(f.vd.toNat, predParts x.g k)]) flags t.sl.sys.amx t n ∧
        (isFloat4 x.t = false → flags = 0) ∧
        ∀ j < 16 * x.g, bit k j = if x.active (32 * j / w) then holds (32 * j / w) else bit x.d j))

/-- The reductions and the data movement: VRED puts the reduction of the active elements into each of them, by the
tree of R256, which for integer addition is their sum; VSCAN the prefixes; VPERM the indexed elements, with 0 beyond
the end when MOD is 1; VBCAST the g register or one element; VMOVG one element into a g register, or a g register into
one element; VIDX the index; VCOMP the selected elements, packed, with their number; VEXPD the elements spread to the
selected places (R341, R342, R343). The neighbour search: VKEY leaves the key of each position's cell, VHASH the
bucket of each key, VBIN the rank of each key among the lower equal ones and the last of each kind, and VPAIR the
pairs within the cutoff (R345, R346, R347, R348). -/
def Obligations.VectorMovementAndSearch : Prop :=
  (
  ∀ (f : SForm) (sp : SchedSpec) (s t : State),
    let x := t.operands f sp
    let w := x.w
    let a (e : Nat) : Nat := elem w x.a e
    let k := f.fs.toNat % 512
    let chosen := (List.range x.n).filter fun e => bit x.b (w * e / 32)
    let lanes (i : Instr) (gs : List (Nat × Cap)) (r : Nat → Nat) : Prop := VecIssues i f sp s t →
      ∃ n v flags, exec i s = .next n ∧ Leaves (leaving f [(f.vd.toNat, vecParts x.g v)] gs []) flags t.sl.sys.amx t n ∧
        ∀ e < x.n, elem w v e = if x.active e then r e % 2 ^ w else elem w x.d e
    lanes (.vred f) [] (fun _ => ((reduceTree (reduceOp f.md.toNat x.t x.rm) 11 x.entries).1).getD 0) ∧
    (f.md = 0 → isFloat4 x.t = false → 0 < w → x.n ≤ 1024 → lanes (.vred f) [] fun _ => (x.actives.map a).sum) ∧
    lanes (.vscan f) [] (fun e => (nth none (scanFrom (reduceOp f.md.toNat x.t x.rm) none x.entries).1 e).getD 0) ∧
    lanes (.vperm f) [] (fun e => if f.md = 1 ∧ x.n ≤ elem w x.b e then 0 else a (elem w x.b e % x.n)) ∧
    lanes (.vbcast f) [] (fun _ => (t.ga f.va).toNat) ∧
    (k < x.n → lanes (.vbcastE f) [] fun _ => a k) ∧
    (k < x.n → lanes (.vmovgV f) [] fun e => if e = k then (t.ga f.va).toNat else elem w x.d e) ∧
    (k < x.n → VecIssues (.vmovgG f) f sp s t →
      ∃ n, exec (.vmovgG f) s = .next n ∧
        Leaves (leaving f [] [(f.vd.toNat, Cap.ofWord (if isSignedType x.t then BitVec.ofInt 64 (signed (a k) w)
          else BitVec.ofNat 64 (a k)))] []) 0 t.sl.sys.amx t n) ∧
    lanes (.vidx f) [] (fun e => ((f.fs.toInt + e) % 2 ^ w).toNat) ∧
    lanes (.vcomp f) [(f.vc.toNat, Cap.ofWord (BitVec.ofNat 64 chosen.length))] (fun e => (chosen.map a).getD e 0) ∧
    lanes (.vexpd f) [] (fun e => if e ∈ chosen then a (chosen.idxOf e) else elem w x.d e)) ∧
  (
  ∀ (f : SForm) (sp : SchedSpec) (s t : State),
    let x := t.operands f sp
    let lanes (i : Instr) (flags : Nat) (ks : List (Nat × List (BitVec 16))) (r : Nat → Nat) : Prop :=
      ∃ n v, exec i s = .next n ∧ Leaves (leaving f [(f.vd.toNat, vecParts x.g v)] [] ks) flags t.sl.sys.amx t n ∧
        ∀ e < x.n, elem x.w v e = if x.active e then r e % 2 ^ x.w else elem x.w x.d e
    let key (e : Nat) : Nat := elem 32 x.a e
    (VecIssues (.vkey f) f sp s t → (∀ a < f.md.toNat % 4, axisBad x.b a = false) →
      lanes (.vkey f) 0 [] (gridKey (f.md.toNat % 4) (f.fs.toNat % 32) (f.md.getLsbD 2) (t.group f.va.toNat 3) x.b)) ∧
    (VecIssues (.vkey f) f sp s t → (∃ a < f.md.toNat % 4, axisBad x.b a = true) →
      lanes (.vkey f) (if x.actives = [] then 0 else 16) [] fun _ => 0xFFFFFFFF) ∧
    (VecIssues (.vhash f) f sp s t → x.w = 32 →
      lanes (.vhash f) 0 [] fun e =>
        if key e = 0xFFFFFFFF then 0xFFFFFFFF else key e * 0x6A5D39E9 % 2 ^ 32 / 2 ^ (32 - f.fs.toNat % 32)) ∧
    (VecIssues (.vbin f) f sp s t → x.w = 32 →
      ∃ k, lanes (.vbin f) 0 [(f.vc.toNat, predParts x.g k)]
          (fun e => (x.actives.filter fun i => key i = key e ∧ i < e).length) ∧
        ∀ j < 16 * x.g, bit k j = if x.active j then decide (∀ i ∈ x.actives, key i = key j → i ≤ j) else bit x.c j) ∧
    (VecIssues (.vpair f) f sp s t → x.w = 32 →
      let query := t.group f.vb.toNat 4
      let cand := t.group f.va.toNat 4
      let r2 := decodeNum 1 ((t.ga f.vc).toNat % 2 ^ 32)
      ∃ n k, exec (.vpair f) s = .next n ∧ Leaves (leaving f [] [] [(f.vd.toNat, predParts x.g k)]) 0 t.sl.sys.amx t n ∧
        ∀ j < 16 * x.g, bit k j = if x.active j then
            (let dist := pairDistance (f.md.toNat % 4) query cand j
             (dist.lt r2 || dist.eqv r2) && !(f.md.getLsbD 2 && laneNat (nth 0 query 3) j == laneNat (nth 0 cand 3) j))
          else bit x.d j))

/-- The conversions: VCVT converts each active element, through a curve table where it says so, that of the leader's
core for a gang's followers too (log 28), and folds its sources into AMX; VSCL scales by a block's scale byte, given
or chosen and then written to vb; VPACK writes two packed blocks and their lengths (R241, R243, R248, R253, R337,
R338, R339). A scale byte from 0 to 254 multiplies every element of its block by 2 to the power of the byte less 127,
an infinity or a NaN staying one, and in a block whose scale byte is 255 every element reads as NaN (R237). -/
def Obligations.VectorConversions : Prop :=
  (
  ∀ (f : SForm) (sp : SchedSpec) (s t : State),
    let x := t.operands f sp
    let d := sidesOf f
    let w := typeBits d.dst
    let curve := t.cr.curve (convCurve f)
    let act := d.actives x.g x.mask
    let source (e : Nat) : Nat := d.source x.g x.a e
    let inside : Prop := ∀ e < d.n x.g, d.index x.g d.dst e < 128 * x.g / typeHalves d.dst
    let converted (v : Nat) (r : Nat → Nat) : Prop :=
      (∀ e < d.n x.g, elem w v (d.index x.g d.dst e) =
        if bit x.mask (d.wide * e / 8) then r e % 2 ^ w else elem w x.d (d.index x.g d.dst e)) ∧
      ∀ i < 128 * x.g / typeHalves d.dst, (∀ e < d.n x.g, i ≠ d.index x.g d.dst e) → elem w v i = elem w x.d i
    (VecIssues (.vcvt f) f sp s t → inside →
      let r (e : Nat) : Nat × Nat := vcvtElement f curve (source e)
      ∃ n v, exec (.vcvt f) s = .next n ∧ converted v (fun e => (r e).1) ∧
        Leaves (leaving f [(f.vd.toNat, vecParts x.g v)] [] []) (orAll (act.map fun e => (r e).2))
          (BitVec.ofNat 64 ((act.map fun e => valueOf d.src (source e)).foldl amxStep t.sl.sys.amx.toNat)) t n) ∧
    (VecIssues (.vscl f) f sp s t → inside → vsclCheck f t = none →
      let scales := vsclScales f x
      let r (e : Nat) : Nat × Nat := vsclElement f curve (scales.getD (e / sclBlock f) 127) (source e)
      ∃ n v amx vb, exec (.vscl f) s = .next n ∧ converted v (fun e => (r e).1) ∧
        Leaves (leaving f ((f.vd.toNat, vecParts x.g v) :: if sclGiven f then [] else [(f.vb.toNat, vecParts x.g vb)]) [] [])
          (orAll (act.map fun e => (r e).2)) amx t n ∧
        (sclGiven f = false → ∀ j < scales.length, elem 8 vb j = scales.getD j 0 % 256)) ∧
    (VecIssues (.vpack f) f sp s t → t.sl.gang.size = 1 →
      let block (h : Nat) : List Nat :=
        encodeBlock (elem 8 (t.vec (f.va.toNat + 1)) h) ((List.range 32).map fun i => elem 8 x.a (32 * h + i))
      ∃ n amx, exec (.vpack f) s = .next n ∧
        Leaves (leaving f [(f.vd.toNat, vecParts 1 (joinBits 16 (block 0))), (f.vd.toNat + 1, vecParts 1 (joinBits 16 (block 1)))]
          [(f.vc.toNat, Cap.ofWord (BitVec.ofNat 64 (2 * (block 0).length + 512 * (block 1).length)))] []) 0 amx t n)) ∧
  (
  ∀ (s : Nat) (neg k : Bool) (m : Nat) (e : Int) (q : Machine.Num),
    (s < 255 → scaledValue s (.fin neg m e) = .fin neg m (e + ((s : Int) - 127)) ∧ scaledValue s (.inf neg) = .inf neg ∧
      scaledValue s (.nan k) = .nan k) ∧
    (s = 255 → ∃ b, scaledValue s q = .nan b))

/-- What the packing of 32 codes under a scale byte other than 255 makes, a decoder gives back: the same codes and the
same scale, and NV is not set; a block takes at most 25 words (R248, R249, R250, R251). VUNPK reads the offset of each
of two blocks, and the words of a block until it is whole, as plain loads that the core itself serves, and leaves the
64 codes and the two scale bytes (R252, R340). -/
def Obligations.PackedBlocksDecode : Prop :=
  (
  ∀ (scale : Nat) (l : List Nat), scale < 255 → l.length = 32 → (∀ x ∈ l, x < 256) →
    decodeBlock (encodeBlock scale l) = .block l scale false ∧ (encodeBlock scale l).length ≤ 25) ∧
  (
  ∀ (f : SForm) (sp : SchedSpec) (s t : State), VecIssues (.vunpk f) f sp s t → t.sl.gang.size = 1 →
    ∀ (o l c : Nat → Nat) (codes : Nat → List Nat) (nv : Nat → Bool) (e k : Nat → Nat),
      (∀ h < 2, unpackEntry t f h = (e h : Int) ∧ Covers t (t.g f.vb) (entryNeed t f) (e h) 4 (k h) ∧
        t.readNat (k h) 4 = o h ∧ o h % 2 = 0 ∧ l h ≤ 30 ∧ 0 < l h) →
      (∃ q : Nat → Nat → Nat, ∀ h < 2,
        (∀ i < l h, ∃ y : Nat, (t.g f.va).bounds.1 + (o h + 2 * i : Nat) = (y : Int) ∧
          Covers t (t.g f.va) (blockNeed t f) y 2 (q h i)) ∧
        (∀ i < l h, decodeBlock ((List.range i).map fun j => t.readNat (q h j) 2) = .more) ∧
        decodeBlock ((List.range (l h)).map fun j => t.readNat (q h j) 2) = .block (codes h) (c h) (nv h)) →
      ∃ n, exec (.vunpk f) s = .next n ∧
        Leaves (leaving f [(f.vd.toNat, [BitVec.ofNat 512 (joinBits 8 (codes 0 ++ codes 1))]),
            (f.vd.toNat + 1, [BitVec.ofNat 512 (c 0 + 256 * c 1)])] [] [])
          (if nv 0 || nv 1 then 16 else 0) t.sl.sys.amx t n)

/-- A vector access whose elements the core itself serves: a load leaves in every active element the number, or for F4
the nibble, at the element's address, and the old element elsewhere; a store writes the active elements at their
addresses and no other byte, where no two of them overlap. Element e has the index g[rb] + FS + e, with a stride g[rb]
+ FS + e × g[rc], or g[rc] + FS plus the signed element of the index vector, and the address that R292 gives it (R292,
R293, R294). -/
def Obligations.VectorMemory : Prop :=
  ∀ (f : SForm) (sp : SchedSpec) (s t : State) (key : Nat → Nat) (shift : Int),
    let x := t.operands f sp
    let c := t.g f.va
    let fs := f.fs.toInt
    let nibble (b : Byte) (e : Nat) : Nat := b.toNat / 16 ^ (e % 2) % 16
    let address (index : Nat → Int) (e : Nat) : Int := elementPlace c x.t (index e) / 2
    let reaches (need : Need) (index : Nat → Int) : Prop := ∀ e ∈ x.actives,
      (key e : Int) = shift + address index e ∧
      ∃ p, partsOf (gangMember t.core (x.place e / 64)) (address index e) x.bytes (x.place e) = [p] ∧
        checkPart t { core := p.core, priv := t.sl.priv, job := t.jobNo } c need p.x0 p.n0 p.x p.n = .ok (.key (key e))
    let loads (i : Instr) (index : Nat → Int) : Prop := VecIssues i f sp s t → (typeHalves x.t = 1 → index 0 % 2 = 0) →
      reaches { l := true, element := true, badFormat := formatBad c x.t } index →
      ∃ n v, exec i s = .next n ∧ Leaves (leaving f [(f.vd.toNat, vecParts x.g v)] [] []) 0 t.sl.sys.amx t n ∧
        ∀ e < x.n, elem x.w v e =
          if x.active e then
            (if typeHalves x.t = 1 then nibble (t.byteAt (key e)) e else t.readNat (key e) x.bytes)
          else elem x.w x.d e
    let stores (i : Instr) (index : Nat → Int) : Prop := VecIssues i f sp s t → 2 ≤ typeHalves x.t →
      reaches { s := true, element := true, badFormat := formatBad c x.t } index →
      (∀ e ∈ x.actives, ∀ e' ∈ x.actives, e ≠ e' → key e + x.bytes ≤ key e' ∨ key e' + x.bytes ≤ key e) →
      ∃ n, exec i s = .next n ∧ SameG [] t n ∧ n.sl.v = t.sl.v ∧ n.sl.k = t.sl.k ∧ n.net = t.net ∧ n.sl.st = .ready ∧
        n.sl.pc = { t.sl.pc with addr := t.sl.pc.addr + 10 } ∧
        (∀ e ∈ x.actives, n.readNat (key e) x.bytes = elem x.w x.d e) ∧
        ∀ j, (∀ e ∈ x.actives, j < key e ∨ key e + x.bytes ≤ j) → n.byteAt j = t.byteAt j
    let nibbles (i : Instr) (index : Nat → Int) : Prop := VecIssues i f sp s t → typeHalves x.t = 1 → index 0 % 2 = 0 →
      reaches { s := true, element := true, badFormat := formatBad c x.t } index →
      ∃ n, exec i s = .next n ∧ SameG [] t n ∧ n.sl.v = t.sl.v ∧ n.sl.st = .ready ∧
        n.sl.pc = { t.sl.pc with addr := t.sl.pc.addr + 10 } ∧
        (∀ e ∈ x.actives, nibble (n.byteAt (key e)) e = elem 4 x.d e ∧
          (x.active (e / 2 * 2 + (1 - e % 2)) = false →
            nibble (n.byteAt (key e)) (e + 1) = nibble (t.byteAt (key e)) (e + 1))) ∧
        ∀ j, (∀ e ∈ x.actives, j ≠ key e) → n.byteAt j = t.byteAt j
    let row (e : Nat) : Int := (t.ga f.vb).toInt + fs + e
    let strided (e : Nat) : Int := (t.ga f.vb).toInt + fs + e * (t.ga f.vc).toInt
    let indexed (e : Nat) : Int := (t.ga f.vc).toInt + fs + signed (elem x.w x.b e) x.w
    loads (.ldv f) row ∧ stores (.stv f) row ∧ nibbles (.stv f) row ∧ (2 ≤ typeHalves x.t → loads (.ldvs f) strided) ∧ stores (.stvs f) strided ∧
    (2 ≤ typeHalves x.t → loads (.ldvx f) indexed) ∧ stores (.stvx f) indexed

/-- A matrix, signature, porter, ring or stair command that passes the checks of issue and its own, with an id free
and room in its queue, is accepted: it retires with its job queued, its sources leased and its id landing in GJ. The
first of its own checks that fails raises that check's trap; with the queue full or no id free the thread is Stalled
(R354, R370). RESTRICT and PROLONG are accepted as the other commands are, and take the next number of their job,
level, kind and side, with the level entries as they stand (R387, R390). -/
def Obligations.EngineCommandsAreAccepted : Prop :=
  (
  ∀ (f : EForm) (s t : State),
    let plain (i : Instr) (kind op : Nat) (sp : EngineSpec) (checks : State → List (Option Ret)) (tiles : List Nat)
        (group : Bool) : Command :=
      { instr := i, uses := { engineUses f sp group with leaseT := tiles }, kind, op, checks
        operands := fun t => operandsOf t f sp group }
    let sig (i : Instr) (op : Nat) (sp : EngineSpec) (two : Bool) (checks : State → List (Option Ret)) : Command :=
      plain i 2 op sp (fun t => checks t ++ [operandIf t (pairsBad f two t)]) (pairTiles f two) false
    let element (i : Int → Nat → State → Option Ret) (t : State) : List (Option Ret) := [i (t.ga f.gb).toInt (entryCount t) t]
    ∀ c ∈ [
      ({ instr := .mma f, kind := 2, op := 0x80, checks := mmaChecks f, operands := fun t => operandsOf t f (mmaFields f) false
         uses := { engineUses f (mmaFields f) with
                     vr := mmaGroups f, leaseV := spread (mmaGroups f), leaseT := [tileNo f] } } : Command),
      plain (.mld f) 2 0x81 (specTile f) (moveChecks f 1 { l := true } false false) [tileNo f] false,
      plain (.mst f) 2 0x82 (specTile f) (moveChecks f 1 { s := true } true false) [tileNo f] false,
      plain (.mzero f) 2 0x83 (specMzero f) (fun t => [operandIf t (!(zeroTiles f).all (tileExists t.cr.partw))]) (zeroTiles f) false,
      plain (.mcvt f) 2 0x85 (specMcvt f) (moveChecks f f.t.toNat { s := true } true (mcvtScale f == 255)) [tileNo f] false,
      sig (.sigrst f) 0x88 (specSigrst f) false (fun _ => []),
      sig (.sigadv f) 0x89 (specSigadv f) false (fun t =>
        [sigadvCheck f t, formatIf t (t.g f.ga) (t.sl.sys.sigdim.toNat * (t.ga f.gb).toInt), operandIf t (decide (65536 < (t.ga f.gc).toNat))]),
      sig (.sigjoin f) 0x8A (specSigPair f) true (fun _ => []),
      sig (.siglog f) 0x8B (specSigPair f) true (fun _ => []),
      sig (.sigld f) 0x8C (specSigMove f) false (element fun i n t => elementCheck t (t.g f.ga) { l := true } i n),
      sig (.sigst f) 0x8D (specSigMove f) false (element fun i n t => elementCheck t (t.g f.ga) { s := true } i n),
      plain (.cpy f) 1 0x90 (specCpy f) (cpyChecks f) [] (cpyBc f),
      plain (.cpyM f) 1 0x90 (specCpy f) (cpyChecks f) [] true,
      plain (.cpyS f) 1 0x90 (specCpyS f) (fun t =>
        [sideCheck t (t.g f.ga) (t.g f.gb).addr (cpyTiles f) (cpyRow f) { l := true },
         operandIf t (cpyMc f || cpyBc f || rotBad (t.g f.ga) (t.g f.gb).addr ||
           decide (16 * shapeWords (t.g f.gb).addr < cpyRow f) || streamBad t.core (t.ga f.gc))]) [] false,
      plain (.cgat f) 1 0x91 (specGather f)
        (fun t => [operandIf t (gatherBc f && (!poolSide (t.g f.gc) || barrierOffsetBad (t.ga f.gd)))]) [] false,
      plain (.csct f) 1 0x92 (specGather f)
        (fun t => [operandIf t (gatherBc f && (!poolSide (t.g f.gc) || barrierOffsetBad (t.ga f.gd)))]) [] false,
      plain (.cfill f) 1 0x93 (specFill f) (fun t =>
        [sideCheck t (t.g f.ga) (t.g f.gb).addr (cpyTiles f) (cpyRow f) { s := true },
         operandIf t (rotBad (t.g f.ga) (t.g f.gb).addr || decide (16 * shapeWords (t.g f.gb).addr < cpyRow f))]) [] false,
      plain (.coll f) 3 0x94 (specColl f) (collChecks f) [] false,
      plain (.wload f) 4 0x98 (specWload f) (fun t => [elementCheck t (t.g f.ga) { l := true } 0 27]) [] false],
      Issues s c.uses t →
      ((∀ x ∈ c.checks t, x = none) →
        (∀ id, t.cr.nextId c.kind = some id → t.engineFull c.kind = false →
          ∃ n j, exec c.instr s = .next n ∧ Accepted c f id j t n ∧ n.cr.eng.bank = t.cr.eng.bank) ∧
        ((t.cr.nextId c.kind = none ∨ t.engineFull c.kind = true) →
          ∃ n, exec c.instr s = .next n ∧ n.sl.st = .stalled ∧ n.sl.pc = t.sl.pc ∧ n.cr.eng = t.cr.eng ∧ SameG [] t n ∧
            n.mem = t.mem)) ∧
      (∀ cause eaddr u, (c.checks t).findSome? id = some (.trap u cause eaddr) →
        exec c.instr s = .next (u.takeTrap cause u.sl.pc.addr eaddr))) ∧
  (
  ∀ (f : EForm) (s t : State) (id : Nat), Issues s (engineUses f (specStair f)) t →
    ∀ p ∈ [(Instr.restrictFine f, false, 0x99), (.restrictCoarse f, false, 0x99), (.prolongCoarse f, true, 0x9A),
           (.prolongFine f, true, 0x9A)],
      let c : Command := { instr := p.1, uses := engineUses f (specStair f), kind := 4, op := p.2.2, checks := stairChecks p.2.1 f
                           operands := fun t => operandsOf t f (specStair f) false }
      let key := pairKey t.jobNo p.2.1 f
      (∀ x ∈ c.checks t, x = none) → t.cr.nextId 4 = some id → t.engineFull 4 = false →
      ∃ n j, exec p.1 s = .next n ∧ Accepted c f id j t n ∧ j.seq = look 0 t.cr.eng.pairCount key ∧
        look 0 n.cr.eng.pairCount key = j.seq + 1 ∧
        j.levels = [BitVec.ofNat 64 (stairLevels f t).1, BitVec.ofNat 64 (stairLevels f t).2])

/-- MSWAP (OPC 0x840) raises illegal operand unless the shadow and accumulator areas are equal and not empty, and
illegal instruction at user privilege; it waits while a matrix job of the core is outstanding; then it inverts the
bank selector, moves no data and ends with DONEC 1, and the commands accepted afterwards carry the new selector
(R361). -/
def Obligations.MatrixBanksSwap : Prop :=
  (∀ (f : EForm) (s t : State),
    let c : Command := { instr := .mswap f, uses := { engineUses f (specMswap f) with sysOnly := true }, kind := 2, op := 0x84
                         checks := fun _ => [], operands := fun t => operandsOf t f (specMswap f) false }
    let equal := shs t.cr.partw = acs t.cr.partw ∧ acs t.cr.partw ≠ 0
    let busy := t.cr.eng.jobs.any (·.kind == 2)
    (s.sl.priv = false → exec (.mswap f) s = .next (s.takeTrap 0x01 s.sl.pc.addr s.fetched)) ∧
    (Issues s c.uses t →
      (∀ id, equal → busy = false → t.cr.nextId 2 = some id → t.engineFull 2 = false →
        ∃ n j, exec (.mswap f) s = .next n ∧ Accepted c f id j t n ∧ n.cr.eng.bank = !t.cr.eng.bank) ∧
      (equal → busy = true → ∃ n, exec (.mswap f) s = .next n ∧ n.sl.st = .stalled ∧ n.sl.pc = t.sl.pc ∧ n.cr.eng = t.cr.eng ∧
        SameG [] t n ∧ n.mem = t.mem) ∧
      (¬ equal → exec (.mswap f) s = .next (t.takeTrap 0x02 t.sl.pc.addr 0)))) ∧
  (∀ (s : State) (j : EngineJob) (hi : Nat), j.op = 0x84 → matrixRun s j hi = .ended s 1 0 none) ∧
  (∀ (s : State) (kind op : Nat) (f : EForm) (sp : EngineSpec), (jobOf s kind op f sp).bank = s.cr.eng.bank) ∧
  (∀ (l rest : List Byte) (f : EForm), decodeBytes l = .ok (.mswap f, rest) → ∃ b0 b1 r, l = b0 :: b1 :: r ∧
    (parcel b0 b1).toNat = 0xF840)

/-- The owner of a request performs it at the key that its address names and answers with one reply of its TAG (R104):
DATA with the bytes of a load or the image and tag of a capability load, ACK for a store, which writes exactly its
bytes, and DATA with the old value for an atomic or a compare-and-swap, whose core answers through its handler send
queue. A request, be it a load, a store, one of a capability, an atomic or a compare-and-swap, beyond the partition of
its owner is answered by FAULT with bounds cause 0x09, one that meets a poisoned word with cause 0x10, each with the
address of its lowest failing byte, and neither changes a byte; a load of a core's control space is answered as SRR
reads; an atomic that finds the handler send queue full waits at the head of the receive queue, and is performed once
an entry is free; a malformed message is discarded and, where it asks for a reply, refused with reason 2 (R16, R67,
R101, R104, R117, R232; the ADDR of a control space is log 25, malformed log 18). -/
def Obligations.OwnersServeRequests : Prop :=
  (
  ∀ (s : State) (src dst : Coord) (f : Flight) (k : Nat), f.malformed = false → f.isControl = false →
    let t := s.takeOut f
    let served (i : Instr) (via : Via) (n : State) (op bc : Nat) (pay : Payload) : Prop := exec i s = .next n ∧
      n.net = t.net ++ [t.sent { dst := f.src, src := f.dst, op, tag := f.tag, bc, pay, via }]
    let only (n : State) (m : Nat) : Prop := ∀ j, (j < k ∨ k + m ≤ j) → n.byteAt j = t.byteAt j
    (t.coreAt dst).msg.headWaits = false → t.requestLocked f = false → t.ownerKey f = some k → t.requestPoison k f = none →
    (t.unitRoom dst = true →
    (s.arriving src dst 0x00 = some f → f.op = 0x00 → f.pay = .none →
      ∃ n, served (.load src dst) .mesh n 0x40 f.bc (.bytes (t.readBytes k (f.bc + 1))) ∧ n.mem = t.mem ∧ n.tags = t.tags) ∧
    (s.arriving src dst 0x02 = some f → f.op = 0x02 → f.pay = .none →
      ∃ n, served (.loadcap src dst) .mesh n 0x40 16 (.capability (t.readBytes k 16) (t.tagAt (k / 16))) ∧
        n.mem = t.mem ∧ n.tags = t.tags) ∧
    (∀ l, s.arriving src dst 0x01 = some f → f.op = 0x01 → f.pay = .bytes l →
      ∃ n, served (.store src dst) .mesh n 0x41 0 .none ∧ n.readBytes k l.length = l ∧ only n l.length ∧
        ∀ g, g ∈ n.tags ↔ g ∈ t.tags ∧ g ∉ granules k l.length) ∧
    (∀ l tag, s.arriving src dst 0x03 = some f → f.op = 0x03 → f.pay = .capability l tag → l.length = 16 → k % 16 = 0 →
      ∃ n, served (.storecap src dst) .mesh n 0x41 0 .none ∧ n.readBytes k 16 = l ∧ only n 16 ∧
        n.tags.contains (k / 16) = tag)) ∧
    (coreExists dst = true → t.replyRoom dst = true →
      (∀ op m x, s.arriving src dst 0x04 = some f → f.op = 0x04 → f.pay = .atom op m x →
        ∃ n, served (.amo src dst) .handler n 0x40 ((t.readBytes k m).length - 1) (.bytes (leBytes m (t.readNat k m))) ∧
          n.readNat k m = atomValue op m (t.readNat k m) (x.toNat % 2 ^ (8 * m)) % 2 ^ (8 * m) ∧ only n m) ∧
      (∀ m e x, s.arriving src dst 0x05 = some f → f.op = 0x05 → f.pay = .cas m e x →
        ∃ n, served (.cas src dst) .handler n 0x40 ((t.readBytes k m).length - 1) (.bytes (leBytes m (t.readNat k m))) ∧
          n.readNat k m = (if t.readNat k m = e.toNat % 2 ^ (8 * m) then x.toNat % 2 ^ (8 * m) else t.readNat k m) ∧
          only n m))) ∧
  (
  (∀ (s : State) (src dst : Coord) (f : Flight), f.malformed = false →
    let t := s.takeOut f
    (t.coreAt dst).msg.headWaits = false → t.requestLocked f = false →
    (f.isControl = false →
      ∀ p ∈ [(Instr.load src dst, 0x00, false), (.store src dst, 0x01, false), (.loadcap src dst, 0x02, false),
          (.storecap src dst, 0x03, false), (.amo src dst, 0x04, coreExists dst), (.cas src dst, 0x05, coreExists dst)],
        s.arriving src dst p.2.1 = some f → (if p.2.2 then t.replyRoom dst else t.unitRoom dst) = true →
        let refused (cause beyond : Nat) : Prop := exec p.1 s = .next { t with
          net := t.net ++ [t.sent { dst := f.src, src := f.dst, op := 0x42, tag := f.tag
                                    pay := .fault cause (BitVec.ofNat 64 (f.addr + beyond))
                                    via := if p.2.2 then .handler else .mesh }] }
        (t.ownerKey f = none → refused 0x09 (scratchSize (t.coreAt f.dst).partw - f.addr % 2 ^ 24)) ∧
        (∀ k d, t.ownerKey f = some k → t.requestPoison k f = some d → refused 0x10 d)) ∧
    (s.arriving src dst 0x00 = some f → f.pay = .none → f.isControl = true → t.unitRoom dst = true →
      exec (.load src dst) s = .next { t with
        net := t.net ++ [t.sent { dst := f.src, src := f.dst, op := 0x40, tag := f.tag, bc := 7
                                  pay := .bytes (leBytes 8 (t.readControl f.dst (f.addr % 2 ^ 24)).toNat) }] })) ∧
  (∀ (s : State) (src dst : Coord) (f : Flight) (i : Instr) (op : Nat), f.malformed = true → s.arriving src dst op = some f →
    (i, op) ∈ [(Instr.load src dst, 0x00), (.store src dst, 0x01), (.loadcap src dst, 0x02), (.storecap src dst, 0x03),
      (.amo src dst, 0x04), (.cas src dst, 0x05), (.active src dst, 0x06), (.portw src dst, 0x07), (.dataRpl src dst, 0x40),
      (.ackRpl src dst, 0x41), (.faultRpl src dst, 0x42), (.nakRpl src dst, 0x43), (.hreply src dst, 0x44),
      (.migack src dst, 0x45), (.wayfarer src dst, 0x60), (.probe src dst, 0xC0), (.event src dst, 0xC1), (.wake src dst, 0xC2),
      (.walk src dst, 0xC3), (.walkrpl src dst, 0xC4), (.shoot src dst, 0xC5), (.record src dst, 0xC6)] →
    let t := s.takeOut f
    ∃ n r, exec i s = .next n ∧ n.mem = t.mem ∧ n.cores = t.cores ∧ r.op = 0xC6 ∧ r.dst = firmware ∧ r.src = f.dst ∧
      (f.rq = false → n.net = t.net ++ [r]) ∧
      (f.rq = true → ∃ a, n.net = t.net ++ [r, a] ∧ a.dst = f.src ∧ a.src = f.dst ∧ a.op = 0x43 ∧ a.tag = f.tag ∧
        a.pay = .reason 2)) ∧
  (∀ (s : State) (src dst : Coord) (f : Flight) (op : AtomOp) (m : Nat) (x : Word), s.arriving src dst 0x04 = some f →
    f.malformed = false → f.op = 0x04 → f.pay = .atom op m x → coreExists dst = true →
    let t := s.takeOut f
    (t.coreAt dst).msg.headWaits = false → t.requestLocked f = false → t.replyRoom dst = false →
    t.queueRoom dst 0 = true →
    ∃ n, exec (.amo src dst) s = .next n ∧ (n.coreAt dst).msg.waitingAtomic = [f] ∧ n.mem = t.mem ∧ n.net = t.net) ∧
  (∀ (s : State) (c : Coord) (f : Flight) (r : List Flight) (k m : Nat) (op : AtomOp) (x : Word),
    (s.coreAt c).msg.waitingAtomic = f :: r → s.replyRoom c = true → s.requestLocked f = false → f.dst = c → f.op = 0x04 →
    f.pay = .atom op m x → s.ownerKey f = some k → s.requestPoison k f = none → f.isControl = false →
    ∃ n, exec (.builtinAtomicDispatch c) s = .next n ∧ (n.coreAt c).msg.waitingAtomic = r ∧
      n.net = s.net ++ [s.sent { dst := f.src, src := c, op := 0x40, tag := f.tag
                                 bc := (leBytes m (s.readNat k m)).length - 1, pay := .bytes (leBytes m (s.readNat k m)), via := .handler }] ∧
      n.readNat k m = atomValue op m (s.readNat k m) (x.toNat % 2 ^ (8 * m)) % 2 ^ (8 * m) ∧
      ∀ j, (j < k ∨ k + m ≤ j) → n.byteAt j = s.byteAt j))

/-- The last reply completes the instruction that awaits it (R104, R284, R298): DATA writes a load's register, ACK
retires a store, HREPLY writes a send's four registers and its status, a NAK its status 1 + reason, and a FAULT raises
its cause with the address in the piece that the reply gives; a BARWAIT that is answered without a phase waits to be
sent again (R312; the address is log 24, the answer without a phase log 12). -/
def Obligations.RepliesCompleteInstructions : Prop :=
  ∀ (s : State) (src dst : Coord) (f : Flight) (i : Nat) (p : Pending) (q : Piece),
    let t := s.takeOut f
    f.malformed = false → f.dst = dst → AwaitsLast t f i p q → (∀ k, k ≠ i → (t.slotAt dst k).pend = none) →
    (t.slotAt dst i).mark = none →
    let x := t.slotAt dst i
    let reg (n : State) (r : GReg) : Cap := look {} (n.slotAt dst i).g r.toNat
    let retired (n : State) (l : List GReg) : Prop := (n.slotAt dst i).st = .ready ∧
      (n.slotAt dst i).pc = { x.pc with addr := x.pc.addr + BitVec.ofNat 64 p.len } ∧ f.tag ∉ (n.coreAt dst).msg.tags ∧
      ∀ r, r ∉ l → reg n r = look {} x.g r.toNat
    (∀ d m sg l, s.arriving src dst 0x40 = some f → p.fin = .load d m sg → f.pay = .bytes l → l.length = m →
      q.runs = [(0, 0, m)] →
      ∃ n, exec (.dataRpl src dst) s = .next n ∧ retired n [d] ∧ n.mem = t.mem ∧ n.net = t.net ∧
        reg n d = Cap.ofWord (if sg then BitVec.ofInt 64 (signed (leNat l) (8 * m)) else BitVec.ofNat 64 (leNat l))) ∧
    ((s.arriving src dst 0x41 = some f → p.fin = .store → f.pay = .none →
        ∃ n, exec (.ackRpl src dst) s = .next n ∧ retired n [] ∧ n.mem = t.mem ∧ n.net = t.net) ∧
      (∀ b d l, s.arriving src dst 0x44 = some f → p.fin = .send b d → f.pay = .bytes l → l.length = 32 → d ∉ four b →
        ∃ n, exec (.hreply src dst) s = .next n ∧ retired n (d :: four b) ∧ n.mem = t.mem ∧ n.net = t.net ∧
          reg n d = Cap.ofWord (1 + 256 * 32) ∧ ∀ k < 4, reg n (b + BitVec.ofNat 5 k) =
            Cap.ofWord (BitVec.ofNat 64 (leNat ((l.drop (8 * k)).take 8)))) ∧
      (∀ b d r, s.arriving src dst 0x43 = some f → p.fin = .send b d → f.pay = .reason r → (r = 1 ∨ r = 2) →
        ∃ n, exec (.nakRpl src dst) s = .next n ∧ retired n [d] ∧ n.mem = t.mem ∧ n.net = t.net ∧
          reg n d = Cap.ofWord (BitVec.ofNat 64 (1 + r))) ∧
      (∀ cause a d m sg sys, s.arriving src dst 0x42 = some f → p.fin = .load d m sg → f.pay = .fault cause a →
        cause < 256 → cause ≠ 0x02 → x.wayfarer = false → trapLevel x x.sys.evec cause = some sys →
        ∃ n, exec (.faultRpl src dst) s = .next n ∧ n.mem = t.mem ∧ (n.slotAt dst i).g = x.g ∧ (n.slotAt dst i).priv = sys ∧
          (n.slotAt dst i).sys.ecause = BitVec.ofNat 64 cause ∧ (n.slotAt dst i).sys.epc = x.pc.addr ∧
          (n.slotAt dst i).sys.eaddr = BitVec.ofNat 64 (q.addr + (a.toNat % 65536 - q.pa % 65536))) ∧
      (∀ d, s.arriving src dst 0x41 = some f → p.fin = .barWait d → f.pay = .none →
        ∃ n, exec (.ackRpl src dst) s = .next n ∧ (n.slotAt dst i).st = .waiting ∧
          (n.slotAt dst i).await = .retry t.ts.toNat ∧ (n.slotAt dst i).g = x.g ∧ (n.slotAt dst i).pc = x.pc ∧ n.mem = t.mem))

/-- A probe that returns to the queue it came from opens its spare room, and a blocked queue sends it on with one hop
more; a queue blocked for 1,024 cycles without a break sends a probe of its own (R113-R115; the numbers of queues are
log 12, the clock log 19). WALK makes the walkers answer, it and the other walks to the page that stand in their
queue, with the translation that one walk finds, and asks firmware for a page that is not resident; a translation
fills the TLBs of the die and its cores and ends the waits for its page, unless an invalidation has covered the walk,
when the accesses only translate afresh; a walk that fails raises the fault of the access that waits, and PGSTAT names
the page and the level (R231, R437, R438, R440). SHOOT drops from the TLBs of its die what it names and keeps the
answers of the walks it covers from being installed; the die acknowledges it once no access translated before is out
and none of those walks is unanswered, and keeps it until then; the walkers acknowledge at once. A RECORD reaches
firmware, which keeps records by their timestamps, newest first, and the record of an unhandled trap or of a lost
thread loses the job it names (R396, R422, R426, R440, R450). -/
def Obligations.ProbesWalksAndInvalidations : Prop :=
  (
  (∀ (s : State) (src dst : Coord) (f : Flight) (c : Coord) (q h : Nat), s.arriving src dst 0xC0 = some f → f.malformed = false →
    f.pay = .probe c q h →
    let t := s.takeOut f
    (c = dst → q = f.tag → ∃ n, exec (.probe src dst) s = .next n ∧ q ∈ (n.coreAt dst).msg.spare ∧ n.net = t.net ∧ n.mem = t.mem) ∧
    (∀ d r, ¬ (c = dst ∧ q = f.tag) → t.blockedOn dst f.tag = some (d, r) → h + 1 < 64 →
      exec (.probe src dst) s = .next { t with
        net := t.net ++ [t.sent { dst := d, src := dst, op := 0xC0, tag := r, pay := .probe c q (h + 1) }] }) ∧
    (¬ (c = dst ∧ q = f.tag) → t.blockedOn dst f.tag = none → exec (.probe src dst) s = .next t)) ∧
  (∀ (s : State) (c d : Coord) (q r since : Nat), s.blockedOn c q = some (d, r) →
    s.pkg.injectionHeld = false → (s.coreAt c).msg.blocked.find? (·.1 == q) = some (q, since) → s.unbroken c q d r since = true → s.blockedLong c since = true →
    ∃ n, exec (.queueBlockedTimeout c q) s = .next n ∧ n.mem = s.mem ∧
      n.net = s.net ++ [s.sent { dst := d, src := c, op := 0xC0, tag := r, pay := .probe c q 0 }])) ∧
  (
  (∀ (s : State) (src dst : Coord) (f : Flight) (job : Nat) (sp : Space) (va l : Nat), s.arriving src dst 0xC3 = some f →
    f.malformed = false → f.pay = .walk job sp va l →
    let samePage (g : Flight) : Bool := match g.pay with
      | .walk j x v _ => g.op == 0xC3 && j == job && x == sp && v / 2 ^ 16 == va / 2 ^ 16
      | _ => false
    let others := ((s.takeOut f).queued dst 2).filter samePage
    let t := others.foldl State.takeOut (s.takeOut f)
    let replies (p : Payload) : List Flight := (f :: others).map fun g =>
      t.sent { dst := g.src, src := g.dst, op := 0xC4, tag := g.tag, pay := p }
    (∀ e k, t.walk job sp va = .leaf e k → exec (.walk src dst) s = .next { t with
      net := t.net ++ replies (.translation job sp va e k (t.pagePoisoned job sp va k)) }) ∧
    (∀ e k, t.walk job sp va = .absent e k → t.pagePoisoned job sp va k = true → exec (.walk src dst) s = .next { t with
      net := t.net ++ replies (.translation job sp va e k true) }) ∧
    (∀ e k, t.walk job sp va = .absent e k → t.pagePoisoned job sp va k = false → ∃ n, exec (.walk src dst) s = .next n ∧
      (job, sp, va / 2 ^ 16) ∈ n.pkg.residentRequests ∧ n.net = t.net ++ replies (.walkAbsent job sp va) ∧ n.mem = t.mem) ∧
    (∀ k b, t.walk job sp va = .fail k b → exec (.walk src dst) s = .next { t with
      net := t.net ++ replies (.walkFault job sp va k b) })) ∧
  (∀ (s : State) (src dst : Coord) (f : Flight) (job : Nat) (sp : Space) (va : Nat) (c : Coord) (i : Nat) (v cause : Nat)
    (eaddr : Word), s.arriving src dst 0xC4 = some f → f.malformed = false → c.die = dst.die →
    let t := s.takeOut f
    let x := t.slotAt c i
    x.st = .stalled → x.await = .walk job sp v cause eaddr → i < slotCount c →
    (∀ e k b, f.pay = .translation job sp va e k b → v / 2 ^ k = va / 2 ^ k →
      (∀ w, t.walkAsked dst.die job sp va = some w → w.stale = false) →
      let y : Translation := { job, space := sp, va := va / 2 ^ k * 2 ^ k, shift := k, entry := e, poisoned := b }
      ∃ n, exec (.walkrpl src dst) s = .next n ∧ (n.dieAt dst.die).tlb.head? = some y ∧ (n.coreAt c).tlb.head? = some y ∧
        n.slotAt c i = { x with st := .ready } ∧ n.mem = t.mem ∧ n.net = t.net) ∧
    (∀ e k b w, f.pay = .translation job sp va e k b → v / 2 ^ 16 = va / 2 ^ 16 →
      t.walkAsked dst.die job sp va = some w → w.stale = true →
      ∃ n, exec (.walkrpl src dst) s = .next n ∧ (n.dieAt dst.die).tlb = (t.dieAt dst.die).tlb ∧
        (∀ d, (n.coreAt d).tlb = (t.coreAt d).tlb) ∧ n.slotAt c i = { x with st := .ready } ∧ n.mem = t.mem ∧ n.net = t.net) ∧
    (∀ l b sys, f.pay = .walkFault job sp va l b → v / 2 ^ 16 = va / 2 ^ 16 → x.wayfarer = false → cause < 256 → l < 8 →
      (∀ w, t.walkAsked dst.die job sp va = some w → w.stale = false) → trapLevel x x.sys.evec cause = some sys →
      ∃ n, exec (.walkrpl src dst) s = .next n ∧ n.mem = t.mem ∧ (n.slotAt c i).g = x.g ∧ (n.slotAt c i).priv = sys ∧
        (n.slotAt c i).sys.ecause = BitVec.ofNat 64 cause ∧ (n.slotAt c i).sys.eaddr = eaddr ∧
        (n.slotAt c i).sys.epc = x.pc.addr ∧
        (n.coreAt c).pgstat = BitVec.ofNat 64 ((if b || (t.coreAt c).pgstat.getLsbD 63 then 2 ^ 63 else 0) + 2 ^ 60 * l +
          2 ^ 16 * (va / 2 ^ 16 % 2 ^ 44))))) ∧
  (
  (∀ (s : State) (src dst : Coord) (f : Flight) (kind job lo hi : Nat), s.arriving src dst 0xC5 = some f →
    f.malformed = false → f.pay = .shoot kind job lo hi →
    let t := s.takeOut f
    let ack : Flight := t.sent { dst := f.src, src := f.dst, op := 0x41, tag := f.tag }
    let covers (w : Walk) : Bool := dropped kind job lo hi { job := w.job, space := w.space, va := 65536 * w.page, shift := 16, entry := 0 }
    (dst ≠ walkers → ∃ n, exec (.shoot src dst) s = .next n ∧ n.mem = t.mem ∧
      (∀ x ∈ (n.dieAt dst.die).tlb, x ∈ (t.dieAt dst.die).tlb ∧ dropped kind job lo hi x = false) ∧
      (∀ c, c.die = dst.die → ∀ x ∈ (n.coreAt c).tlb, x ∈ (t.coreAt c).tlb ∧ dropped kind job lo hi x = false) ∧
      (∀ c, c.die ≠ dst.die → n.coreAt c = t.coreAt c) ∧
      (∀ w ∈ (n.dieAt dst.die).walks, covers w = true → w.stale = true) ∧
      (t.accessesOut dst.die ≠ [] ∨ (∃ w ∈ (t.dieAt dst.die).walks, covers w = true) →
        { msg := f, waits := t.accessesOut dst.die } ∈ (n.dieAt dst.die).shoots) ∧
      (t.accessesOut dst.die = [] → (∀ w ∈ (t.dieAt dst.die).walks, w.stale = false ∧ covers w = false) →
        (t.dieAt dst.die).shoots = [] → n.net = t.net ++ [ack] ∧ (n.dieAt dst.die).shoots = [])) ∧
    (dst = walkers → exec (.shoot src dst) s = .next { t with net := t.net ++ [ack] })) ∧
  (∀ (s : State) (src dst : Coord) (f : Flight) (e : Entry), s.arriving src dst 0xC6 = some f → f.malformed = false → f.pay = .entry e →
    let t := s.takeOut f
    let kind := (e.extractLsb' 504 8).toNat
    let job := (e.extractLsb' 416 32).toNat
    ∃ n, exec (.record src dst) s = .next n ∧ n.mem = t.mem ∧ n.net = t.net ∧
      (let stamp (x : Entry) : Nat := (x.extractLsb' 352 64).toNat
       ∃ l r, t.pkg.records = l ++ r ∧ n.pkg.records = l ++ e :: r ∧ (∀ x ∈ l, stamp e < stamp x) ∧ ∀ x ∈ r.head?, stamp x ≤ stamp e) ∧
      ((kind = 0x10 ∨ kind = 0x11) → (n.jobAt job).lost = true ∧ ∀ j, j ≠ job → n.jobAt j = t.jobAt j) ∧
      (kind ≠ 0x10 → kind ≠ 0x11 → n.jobs = t.jobs)))

/-- An engine's piece at its owner: EWRITE writes its bytes and is acknowledged to its job, EREAD is answered by EDATA
with the bytes, a piece beyond the partition by FAULT with bounds, one at a word that cannot be read by FAULT with
home lost, and EDATA brings its bytes to the job's buffer (R101, R105). A completion record holds KIND, JOB, CAUSE,
PART, the time, the address, DONEC, the engine and the thread where R124 puts them, and the flags of every kind but
the porter's (R124). -/
def Obligations.EnginePiecesAndRecords : Prop :=
  (
  ∀ (s : State) (src dst : Coord) (f : Flight) (core : Coord) (id off m va : Nat) (data : List Byte), f.malformed = false →
    let t := s.takeOut f
    let reply (op bc : Nat) (pay : Payload) : Flight :=
      t.sent { dst := f.src, src := f.dst, op, tag := f.tag, bc, pay }
    t.requestLocked f = false → f.isControl = false → t.unitRoom dst = true →
    (s.arriving src dst 0x70 = some f → f.pay = .engine core id off m va data none →
      let lost (k : Nat) : Option Nat := t.lostWord { s := true, engine := true } k data.length
      (∀ k, t.ownerKey { f with pay := .bytes data } = some k → lost k = none →
        ∃ n, exec (.ewrite src dst) s = .next n ∧ n.readBytes k data.length = data ∧
          n.net = t.net ++ [reply 0x41 0 (.engine core id 0 0 0 [] none)] ∧
          ∀ j, (j < k ∨ k + data.length ≤ j) → n.byteAt j = t.byteAt j) ∧
      (∀ k g, t.ownerKey { f with pay := .bytes data } = some k → lost k = some g → ∃ a, exec (.ewrite src dst) s = .next { t with
        net := t.net ++ [reply 0x42 0 (.engineFault core id 0x10 a)] }) ∧
      (t.ownerKey { f with pay := .bytes data } = none → exec (.ewrite src dst) s = .next { t with
        net := t.net ++ [reply 0x42 0 (.engineFault core id 0x09 (BitVec.ofNat 64 va))] })) ∧
    (∀ k b, s.arriving src dst 0x71 = some f → f.pay = .engine core id off m va data b → t.engineRoom dst 1 = true →
      t.ownerKey f = some k → t.lostWord { l := true, engine := true } k m = none →
      ∃ n, exec (.eread src dst) s = .next n ∧ n.mem = t.mem ∧ n.tags = t.tags ∧
        n.net = t.net ++ [reply 0x72 (m - 1) (.engine core id off m va (t.readBytes k m) none)]) ∧
    (∀ j b, s.arriving src dst 0x72 = some f → f.pay = .engine core id off m va data b → t.activeJob core id = some j →
      2 ≤ j.outstanding → data.length = m →
      ∃ n k, exec (.edata src dst) s = .next n ∧ n.activeJob core id = some k ∧ k.outstanding = j.outstanding - 1 ∧
        k.todo = j.todo ∧ (∀ i (h : i < data.length), look 0 k.buf (off + i) = data[i]) ∧ n.mem = t.mem ∧ n.net = t.net)) ∧
  (
  ∀ (ts : Word) (j : EngineJob) (part : Bool), j.kind < 256 → j.id < 256 → (j.fault.getD (0, 0)).1 < 256 →
    let e := doneEntry ts j part
    (e.extractLsb' 504 8).toNat = j.kind ∧ (e.extractLsb' 496 8).toNat = j.id ∧
    (e.extractLsb' 488 8).toNat = (j.fault.getD (0, 0)).1 ∧ e.getLsbD 480 = part ∧ e.extractLsb' 416 64 = ts ∧
    e.extractLsb' 352 64 = (j.fault.getD (0, 0)).2 ∧ (e.extractLsb' 320 32).toNat = j.done % 2 ^ 32 ∧
    e.extractLsb' 304 16 = j.engc ∧ (e.extractLsb' 299 5).toNat = j.slot % 32 ∧ e.extractLsb' 289 10 = j.gen ∧
    (e.extractLsb' 0 6).toNat = if j.kind = 1 then 0 else j.flags % 64)

/-- The idle matrix engine begins the command that comes first in its rotation; a run that ends sends its DONE entry
and frees the engine, or it waits; a job with its last writes to make ends when they are made and answered; the job of
a marked thread stops at a boundary with a partial entry. MZERO leaves its tiles zero, and MLD leaves in row i of its
tile the bytes of row i of its descriptor (R354-R356, R360; a run is one step: log 14). -/
def Obligations.MatrixJobsRun : Prop :=
  (∀ (s : State) (cl : Coord) (j : EngineJob) (r : Nat), isCluster cl = true → (s.clusterAt cl).running = none →
    rotationPick cl (s.clusterAt cl).rotation (s.clusterAt cl).matrixQueue = some (j, r) →
    ∃ n, exec (.matrixJobStart cl) s = .next n ∧ (n.clusterAt cl).running = some j ∧ (n.clusterAt cl).rotation = r ∧
      (n.clusterAt cl).matrixQueue = dropFirst (·.same j) (s.clusterAt cl).matrixQueue ∧ n.mem = s.mem ∧ n.net = s.net) ∧
  (∀ (s : State) (cl : Coord) (j : EngineJob), (s.clusterAt cl).running = some j → s.engineRoom j.engc 1 = true →
    let done (t : State) (k : EngineJob) : Flight := t.sent { dst := j.core, src := j.engc, op := 0x73, pay := .entry (doneEntry t.ts k false) }
    (j.stage = 2 → j.todo = [] → j.outstanding = 0 →
      ∃ n, exec (.matrixJobComplete cl) s = .next n ∧ (n.clusterAt cl).running = none ∧ n.mem = s.mem ∧
        n.net = s.net ++ [done s (j.ran (if j.fault.isSome then 0 else 1) 0 j.fault)]) ∧
    (j.stage ≠ 2 →
    (∀ h, matrixRun s j j.total = .wait h → exec (.matrixJobComplete cl) s = .next (s.holds h)) ∧
    (∀ t m fl fault, matrixRun s j j.total = .ended t m fl fault →
      ∃ n, exec (.matrixJobComplete cl) s = .next n ∧ (n.clusterAt cl).running = none ∧ n.mem = t.mem ∧
        n.net = t.net ++ [done t (j.ran m fl fault)]) ∧
    (j.op = 0x83 → ∃ n, exec (.matrixJobComplete cl) s = .next n ∧
      ∀ a ∈ zeroTiles j.f, ∀ i < 4096, n.readNat (s.jobTile j a + 4 * i) 4 = 0) ∧
    (∀ l : Nat → List Byte, j.op = 0x81 → (∀ i < tileM j.f,
        s.engineRead j (j.operand 0) (rowAddress (j.operand 0) (j.operand 1).addr 0 i : Nat) (4 * tileN j.f) = .ok (l i) ∧
        (l i).length = 4 * tileN j.f) →
      ∃ n, exec (.matrixJobComplete cl) s = .next n ∧
        ∀ i < tileM j.f, n.readBytes (s.jobTile j (tileNo j.f) + 256 * i) (4 * tileN j.f) = l i) ∧
    (∀ h t m fl, s.engineRoom cl 1 = true → s.stopAsked j = true → j.boundary j.total 1 j.mayStop = some h → matrixRun s j h = .ended t m fl none →
      ∃ n, exec (.engineSplitStop cl 2 0) s = .next n ∧ (n.clusterAt cl).running = none ∧
        t.sent { dst := j.core, src := j.engc, op := 0x73
                 pay := .entry (doneEntry t.ts { j.ran m fl none with stopped := true, base := m } true) } ∈ n.net)))

/-- The porter begins a queued command while fewer than four are active, and sends the DONE entry of one that has
moved everything; a parked write is performed once its page is there; a stream copy puts its next 64 bytes into the
FIFO of the bound port (R209, R373, R379, R382; the moves of pieces are log 33). -/
def Obligations.PorterJobsRun : Prop :=
  (∀ (s : State) (cl : Coord) (j : EngineJob) (r : Nat), isCluster cl = true → (s.clusterAt cl).active.length < 4 →
    rotationPick cl (s.clusterAt cl).porterRotation (s.clusterAt cl).porterQueue = some (j, r) →
    ∃ n, exec (.porterJobStart cl) s = .next n ∧ (n.clusterAt cl).active = (s.clusterAt cl).active ++ [j.atUnit j.done] ∧
      (n.clusterAt cl).porterQueue = dropFirst (·.same j) (s.clusterAt cl).porterQueue ∧ n.mem = s.mem ∧ n.net = s.net) ∧
  (∀ (s t : State) (cl : Coord) (i : Nat) (j k : EngineJob), (s.clusterAt cl).active[i]? = some j →
    s.porterRun j.fuel j j.porterUnits = (t, k) → k.porterOver t = true → t.engineRoom k.engc 1 = true →
    ∃ n, exec (.porterJobComplete cl i) s = .next n ∧ n.mem = t.mem ∧ (∀ x ∈ (n.clusterAt k.core).active, x.same k = false) ∧
      n.net = t.net ++ [t.sent { dst := k.core, src := k.engc, op := 0x73, pay := .entry (doneEntry t.ts k false) }]) ∧
  (∀ (s : State) (cl : Coord) (j : EngineJob) (p : EnginePiece) (k : Nat), isCluster cl = true → clusterOf j.core = cl →
    (s.clusterAt cl).parked = [(j.core, j.id, p)] → s.activeJob j.core j.id = some j → j.stage = 2 → j.writesElement = false → j.barrier = none →
    s.engineCheck j j.stageCap.1 j.stageCap.2 p.x p.n = .ok (.key k) →
    ∃ n, exec (.parkedPieceReplay cl) s = .next n ∧ (n.clusterAt cl).parked = [] ∧ n.net = s.net ∧
      n.readBytes k p.n = j.pieceData p ∧ ∀ i, (i < k ∨ k + p.n ≤ i) → n.byteAt i = s.byteAt i) ∧
  (∀ (s : State) (cl : Coord) (i p : Nat) (j : EngineJob), (s.clusterAt cl).active[i]? = some j → j.entryReady = true →
    j.fault = none → let w := (j.operand 2).addr
    (s.coreAt (streamCore w)).streamPort (streamNo w) = some p →
    (s.coreAt (streamCore w)).portUse p < 4 →
    ∃ n, exec (.streamFifoEntry cl i) s = .next n ∧ n.mem = s.mem ∧ n.net = s.net ∧
      ((n.coreAt (streamCore w)).port p).q =
        ((s.coreAt (streamCore w)).port p).q ++ [BitVec.ofNat 512 (leNat (j.replay.take 64))])

/-- A ring is installed for a live job with 2 to 256 members and a rank among them; an idle sequencer begins its next
command; the messages of a chunk are put together, and one that finds no command running waits; one of another command
than the ring's ends the collective with illegal operand on every member of the module; the loss of a member ends it
with home lost; a command that has taken in and sent every chunk, or has met a fault, sends its DONE entry (R370,
R383-R385; the chunks' form is log 21). The stair unit begins its oldest command once everything that it receives has
come, and sends its DONE entry when it has run; WLOAD fills the weight table that its form names with 27 F32 codes; a
failed stair link is retired at both its ends (R386, R389, R390, R424; transfers of stair links are log 14). -/
def Obligations.RingsAndStairsRun : Prop :=
  (
  (∀ (s : State) (port idx job rank size : Nat), let k := 256 * port + idx
    port < 24 → idx < 256 → 2 ≤ size → size ≤ 256 → rank < size → (s.jobAt job).live = true → s.ringUsed k = false →
    ∃ n, exec (.ringInstall port idx job rank size) s = .next n ∧
      n.ringAt k = { job, rank, size } ∧ (∀ i, i ≠ k → n.ringAt i = s.ringAt i) ∧ n.mem = s.mem ∧ n.net = s.net) ∧
  (∀ (s : State) (port : Nat) (j : EngineJob) (l : List EngineJob), let r := s.ringAt j.ring
    s.sequencer port = { run := none, queue := j :: l } → j.ring / 256 = port → j.stage = 0 → r.held = false → r.lost = false →
    r.odd ≠ some (r.count + 1) → r.chunks = [] → j.ownParts r = [] → j.arrivals r ≠ [] →
    ∃ n k, exec (.ringJobComplete port) s = .next n ∧ n.sequencer port = { run := some k, queue := l } ∧ k.same j = true ∧
      k.outstanding = (j.arrivals r).length ∧ k.fault = none ∧ (n.ringAt j.ring).count = r.count + 1 ∧
      n.mem = s.mem ∧ n.net = s.net) ∧
  (∀ (s : State) (src dst : Coord) (f : Flight) (ring seq command b i off len : Nat) (res : Bool) (data : List Byte), src ≠ dst →
    s.arriving src dst 0x74 = some f → f.malformed = false → f.pay = .chunk ring seq command res b i off len data →
    let t := s.takeOut f
    let k := 256 * dst.col + ring
    let before : List Byte := match (t.ringAt k).part with
      | some (.chunk _ _ _ _ _ _ _ _ l) => if off = 0 then [] else l
      | _ => []
    let whole : Payload := .chunk ring seq command res b i 0 len (before ++ data)
    (before.length + data.length < len → ∃ n, exec (.chunk src dst) s = .next n ∧
      n.ringAt k = { t.ringAt k with part := some whole } ∧ n.mem = t.mem ∧ n.net = t.net) ∧
    (len ≤ before.length + data.length → t.sequencer (k / 256) = {} → ∃ n, exec (.chunk src dst) s = .next n ∧
      n.ringAt k = { t.ringAt k with chunks := (t.ringAt k).chunks ++ [whole], part := none } ∧ n.mem = t.mem ∧ n.net = t.net) ∧
    (∀ j, len ≤ before.length + data.length → t.ringRun k = some j → j.fault = none → (t.ringAt k).chunks = [] →
      (j.ownParts (t.ringAt k)).length ≤ j.sent → t.chunkRoom k j = true → seq = (t.ringAt k).count → command ≠ j.command →
      ∃ n, exec (.chunk src dst) s = .next n ∧ n.mem = t.mem ∧ n.net = t.net ∧ ∀ m ∈ t.ringGroup k,
        ((t.ringAt m).count < seq → (n.ringAt m).odd = some seq) ∧
        ((t.ringAt m).count = seq → (t.ringAt m).held = false → ∀ l, t.ringRun m = some l → l.fault = none →
          n.ringRun m = some { l with fault := some (0x02, 0) }))) ∧
  (∀ (s : State) (port idx m : Nat), let k := 256 * port + idx
    (s.ringAt k).size ≠ 0 → m = k ∨ m ∈ s.ringGroup k →
    ∃ n, exec (.ringMemberLoss port idx) s = .next n ∧ (n.ringAt m).lost = true ∧ n.mem = s.mem ∧ n.net = s.net ∧
      ∀ j, s.ringRun m = some j → j.fault = none → ∃ a, n.ringRun m = some { j with fault := some (0x10, a) }) ∧
  (∀ (s : State) (port : Nat) (j : EngineJob), (s.sequencer port).run = some j → j.ring / 256 = port →
    (s.ringAt j.ring).chunks = [] → s.engineRoom j.engc 1 = true →
    j.fault ≠ none ∨ (j.outstanding = 0 ∧ (j.ownParts (s.ringAt j.ring)).length ≤ j.sent) →
    ∃ n, exec (.ringJobComplete port) s = .next n ∧ n.sequencer port = { s.sequencer port with run := none } ∧ n.mem = s.mem ∧
      n.net = s.net ++ [s.sent { dst := j.core, src := j.engc, op := 0x73, pay := .entry (doneEntry s.ts j false) }])) ∧
  (
  (∀ (s : State) (c : Coord) (j : EngineJob) (r : List EngineJob), (s.coreAt c).eng.stairRun = none →
    (s.coreAt c).eng.stairQueue = j :: r → j.fed (s.coreAt c).eng.partials = true →
    ∃ n, exec (.stairJobStart c) s = .next n ∧ (n.coreAt c).eng = { (s.coreAt c).eng with stairRun := some j, stairQueue := r } ∧
      n.mem = s.mem ∧ n.net = s.net) ∧
  (∀ (s : State) (c : Coord) (j : EngineJob), (s.coreAt c).eng.stairRun = some j → j.seat = c → s.engineRoom j.engc 1 = true →
    (∀ t m fl fault, j.op ≠ 0x98 → stairRun s j j.items.length = .ended t m fl fault →
      ∃ n, exec (.stairJobComplete c) s = .next n ∧ (n.coreAt c).eng.stairRun = none ∧ n.mem = t.mem ∧
        n.net = t.net ++ [t.sent { dst := j.core, src := j.engc, op := 0x73, pay := .entry (doneEntry t.ts (j.ran m fl fault) false) }]) ∧
    (∀ l, j.op = 0x98 → s.engineRead j (j.operand 0) (j.operand 0).bounds.1 108 = .ok l →
      ∃ n, exec (.stairJobComplete c) s = .next n ∧ (n.coreAt c).eng.stairRun = none ∧ n.mem = s.mem ∧
        ∀ o < 27, (n.coreAt c).weight (esBits j.f 1 0) o = leNat ((l.drop (4 * o)).take 4))) ∧
  (∀ (s : State) (c p : Coord) (i : Nat), parentOf c = some (p, i) → c ≠ p →
    ∃ n, exec (.stairLinkFailure c) s = .next n ∧ linkTo c p ∈ (n.coreAt c).eng.stairRetired ∧
      linkTo p c ∈ (n.coreAt p).eng.stairRetired ∧ n.mem = s.mem))

/-- A thief's request takes the record at the top of its victim's deque when it is placeable on the thief, and is
answered empty otherwise; the first record of a round is placed, or forwarded when it is a team's or a band's, one
that comes after it goes on the thief's deque, and an empty answer is forgotten; a request that has found the port
busy for 256 cycles is answered empty (R118, R407, R409; the rounds are log 22, the clock log 19). A core of the
record's job with a free slot starts the thread record at the bottom of its deque: the lowest slot that is free is
Ready at the kernel's entry with ARG0, the data handle, the member number, ARG1 and the scratch handle in g1 to g5, as
a new unit whose task counter counts 1 (R163, R308, R407, R408). The search timer searches as an idle core does (R410;
the privilege is log 7, unit numbers log 12). The oldest team record that fits its cluster, and a band record that
fits its die, leave their queues for the slots they are placed in, and a team record that is passed over counts it; a
band that has waited 65,536 cycles reserves the rectangle with the fewest held slots; a cluster with a record that 64
later ones have passed is closed (R408, R411, R412; passes and reservations are log 22, the clock log 19). -/
def Obligations.WorkIsPlaced : Prop :=
  (
  ∀ (s : State) (a b : Coord), a ≠ b →
    (∀ u r, (s.coreAt b).stealPort = (a, u) :: r → ∃ n, exec (.stealRequest a b) s = .next n ∧ (n.coreAt b).stealPort = r ∧
      n.mem = s.mem ∧ n.net = s.net ∧
      (∀ l x, (s.coreAt b).deque = l ++ [x] → (s.withJob a (s.queuedOf x).job).isSome = true →
        (n.coreAt b).deque = l ∧ (n.coreAt a).stealReply = (s.coreAt a).stealReply ++ [some x]) ∧
      ((∀ x, (s.coreAt b).deque.getLast? = some x → s.withJob a (s.queuedOf x).job = none) →
        (n.coreAt b).deque = (s.coreAt b).deque ∧ (n.coreAt a).stealReply = (s.coreAt a).stealReply ++ [none])) ∧
    (∀ l, (s.coreAt a).stealReply = none :: l → exec (.stealResponse a) s = .next (s.modCore a fun y => { y with stealReply := l })) ∧
    (∀ x l m v, (s.coreAt a).stealReply = some x :: l → (s.coreAt a).stealRound = some m →
      let u := (s.modCore a fun y => { y with stealReply := l }).modCore a fun y => { y with stealRound := none }
      u.open_ a = true → (u.clusterAt a).closed = false → u.resumesFirst a.die (tier a) = false →
      (recShape x ≠ 1 → recShape x ≠ 2 → u.placeThread a (u.queuedOf x) = some v → exec (.stealResponse a) s = .next v) ∧
      (recShape x = 1 → (u.clusterAt a).queue.length < 64 → ∃ n, exec (.stealResponse a) s = .next n ∧
        (n.coreAt a).stealReply = l ∧ (∀ i, n.slotAt a i = s.slotAt a i) ∧
        ∃ q, (n.clusterAt a).queue = (s.clusterAt a).queue ++ [q] ∧ q.record = x ∧ q.job = (s.counterAt (recParent x)).job) ∧
      (recShape x = 2 → u.dieRoom a.die (tier a) = true → exec (.stealResponse a) s = .next (u.enqueueDie a.die (tier a) (u.queuedOf x)))) ∧
    (∀ x l, (s.coreAt a).stealReply = some x :: l → (s.coreAt a).stealRound = none → (s.coreAt a).roomFor 1 = true →
      ∃ n, exec (.stealResponse a) s = .next n ∧ (n.coreAt a).deque = x :: (s.coreAt a).deque ∧ (n.coreAt a).stealReply = l ∧
        n.mem = s.mem ∧ n.net = s.net) ∧
    (∀ e u l r, (s.coreAt b).stealPort = e :: (l ++ (a, u) :: r) → (∀ x ∈ l, x.1 ≠ a) → s.elapsed b u 256 = true →
      ∃ n, exec (.stealPortTimeout a b) s = .next n ∧ (n.coreAt b).stealPort = e :: (l ++ r) ∧
        (n.coreAt a).stealReply = (s.coreAt a).stealReply ++ [none] ∧ n.mem = s.mem ∧ n.net = s.net)) ∧
  (
  ∀ (s : State) (c : Coord) (r : Record) (l : List Record) (i : Nat) (frame : Option Nat) (k : Kernel) (search : Instr),
    search = .idleCoreSearch c ∨ search = .idleSearchTimer c →
    let q := s.queuedOf r
    let j := s.jobAt q.job
    s.open_ c = true → s.resumesFirst c.die (tier c) = false → (s.clusterAt c).closed = false → (s.coreAt c).deque = r :: l → recShape r = 0 → recGang r = 1 →
    (s.coreAt c).owner = some q.job → (s.coreAt c).partPending = none → j.kernels[recKernel r]? = some k → k.wayfarer = false →
    s.findPlace c 1 k = some (i, frame, []) →
    let h := 2 ^ 20 * c.die + s.pkg.nextCounter % 2 ^ 20
    ∃ n, exec search s = .next n ∧ (n.coreAt c).deque = l ∧ n.mem = s.mem ∧ n.net = s.net ∧
      (∀ m, m ≠ i → n.slotAt c m = s.slotAt c m) ∧
      n.counterAt h = { count := 1, parent := some (recParent r), event := recEvent r, interrupt := recInterrupt r, job := q.job } ∧
      let x := n.slotAt c i
      x.st = .ready ∧ x.gen = (s.slotAt c i).gen ∧ x.priv = false ∧ x.quota = k.quota ∧ x.frame = frame ∧
      x.pc = { j.code with addr := BitVec.ofNat 64 ((j.code.bounds.1.toNat + k.entry) / 2 * 2) } ∧ x.sys.evec = j.evec ∧
      x.mem.job = q.job ∧ x.mem.ctr = h ∧ x.mem.member = 0 ∧ x.mem.unit % 16 = c.die ∧
      look {} x.g 1 = Cap.ofWord (recArg0 r) ∧ look {} x.g 2 = j.data ∧ look {} x.g 3 = Cap.ofWord 0 ∧
      look {} x.g 4 = Cap.ofWord (recArg1 r) ∧ look {} x.g 5 = makeCap 0xC40 0 0 0 (scratchSize (s.coreAt c).partw) 0) ∧
  (
  (∀ (s t : State) (cl : Coord) (k l : List Queued) (q : Queued), isCluster cl = true → s.open_ cl = true →
    s.resumesFirst cl.die (tier cl) = false → (s.clusterAt cl).closed = false → (s.clusterAt cl).queue = k ++ q :: l →
    (∀ x ∈ k, recShape x.record = 1 → s.placeTeams [cl] x = none) → recShape q.record = 1 → s.placeTeams [cl] q = some t →
    ∃ n, exec (.teamPlacement cl) s = .next n ∧ n.cores = t.cores ∧ n.counters = t.counters ∧
      (n.clusterAt cl).queue = k.map (fun x => { x with passed := x.passed + 1 }) ++ l) ∧
  (∀ (s t : State) (d : Nat) (q : Queued) (l : List Queued), let p := queuePlace d
    (s.dieAt p.1).queueOf p.2 = q :: l → recShape q.record = 2 → q.level = none →
    s.placeBandSomewhere p.1 p.2 q = some t →
    ∃ n, exec (.bandPlacement d) s = .next n ∧ (n.dieAt p.1).queueOf p.2 = l ∧ n.cores = t.cores ∧ n.counters = t.counters) ∧
  (∀ (s : State) (d : Nat) (q : Queued) (l : List Queued), let p := queuePlace d
    (s.dieAt p.1).queueOf p.2 = q :: l → recShape q.record = 2 → q.level = none →
    s.elapsed ((clustersOfDie p.1 p.2).headD 0) q.since 65536 = true → (∀ e ∈ (s.dieAt p.1).reserved, e.2 ≠ q) →
    corners p.1 p.2 q ≠ [] →
    let held (tl : Coord) : Nat := ((rectangle tl q).map s.heldSlots).foldl (· + ·) 0
    ∃ n tl, exec (.bandReservation d) s = .next n ∧ (n.dieAt p.1).reserved = (s.dieAt p.1).reserved ++ [(tl, q)] ∧
      tl ∈ corners p.1 p.2 q ∧ (∀ x ∈ corners p.1 p.2 q, held tl ≤ held x) ∧ n.mem = s.mem ∧ n.net = s.net ∧ n.cores = s.cores) ∧
  (∀ (s : State) (cl : Coord), isCluster cl = true → ∃ n, exec (.recordPassLimit cl) s = .next n ∧
    (n.clusterAt cl).queue = (s.clusterAt cl).queue ∧
    ((n.clusterAt cl).closed = true ↔ (∃ q ∈ (s.clusterAt cl).queue, 64 ≤ q.passed) ∨
      ∃ c ∈ clusterCores cl, ∃ r ∈ (s.coreAt c).deque, 64 ≤ (s.coreAt c).passedOf r) ∧ n.cores = s.cores ∧ n.mem = s.mem))

/-- A descriptor that the host submits enters its command queue while the module is in service and has its identity,
and is answered with a NAK where the queue is full; firmware takes the oldest of the queue whose turn it is, and of no
other, refuses a malformed one, and accepts a good one as a new job with its launch record, a job counter of one per
initial record, its text and data in pages of its address space, record 0 at the bottom of the steward's deque where
its descriptor asks for it, and the other records in order at the tail of the die queues they name, each with the job
counter as its parent (R402-R405, R447; the addresses of the segments are log 12, corners of images log 34). A job
whose counter has closed, or that is lost, ends: it is live no more, its records leave the queues and its pages are
free, the host is told its number, its status and the time, and an interrupt is raised where its descriptor asks for
one (R406). -/
def Obligations.JobsAreLaunchedAndEnd : Prop :=
  (
  (∀ (s : State) (q : Nat) (desc : BitVec 1024), s.inService = true → s.pkg.identityErased = false → q < 63 →
    (look [] s.pkg.commands q).length < 64 →
    ∃ n, exec (.hostCommand q desc) s = .next n ∧
      look [] n.pkg.commands q = look [] s.pkg.commands q ++ [{ desc, job := none, waiter := none }] ∧ n.mem = s.mem ∧
      n.net = s.net ∧ n.cores = s.cores) ∧
  (∀ (s : State) (q : Nat) (desc : BitVec 1024), s.inService = true → s.pkg.identityErased = false → q < 63 →
    64 ≤ (look [] s.pkg.commands q).length →
    exec (.hostCommand q desc) s = .next { s with pkg := { s.pkg with commandNaks := q :: s.pkg.commandNaks } }) ∧
  (∀ (s : State) (q stack : Nat), s.commandQueue ≠ some q → exec (.jobAccept q stack) s = .next s) ∧
  (∀ (s : State) (q stack : Nat) (sub : Submission) (r : List Submission), s.commandQueue = some q → look [] s.pkg.commands q = sub :: r →
    s.inService = true → sub.waiter = none →
    (∀ x, s.judge stack sub = .refuse x → ∃ n, exec (.jobAccept q stack) s = .next n ∧ look [] n.pkg.commands q = r ∧
      n.pkg.commandTurn = (q + 1) % 64 ∧ n.mem = s.mem ∧ n.jobs = s.jobs ∧ n.cores = s.cores ∧ n.dies = s.dies) ∧
    (descWellFormed sub.desc.toNat sub.job.isNone = false → s.judge stack sub = .refuse 2) ∧
    (∀ j text data records, s.judge stack sub = .take j text data records →
      s.recordsFit j (descFirst sub.desc.toNat) = true →
      let h := 2 ^ 20 * j.steward.die + s.pkg.nextCounter % 2 ^ 20
      ∃ n, exec (.jobAccept q stack) s = .next n ∧ look [] n.pkg.commands q = r ∧ n.pkg.nextJob = s.pkg.nextJob + 1 ∧
        n.counterAt h = { count := records.length, job := s.pkg.nextJob } ∧
        let x := n.jobAt s.pkg.nextJob
        x.live = true ∧ x.code = j.code ∧ x.data = j.data ∧ x.kernels = j.kernels ∧ x.evec = j.evec ∧ x.pw = j.pw ∧
        x.handlers = j.handlers ∧ x.events = j.events ∧ x.counter = h ∧
        let stands (va : Nat) (l : List Byte) : Prop := ∀ i b, l[i]? = some b →
          ∃ m, n.pageOf s.pkg.nextJob (va + i) = some m ∧ m.shift = 16 ∧ n.byteAt (m.frame + i % 65536) = b
        stands 0x0400000000010000 text ∧ stands 0x0400000200000000 data ∧
        let first := descFirst sub.desc.toNat
        (first = true → ∃ r l, records = r :: l ∧ (n.coreAt j.steward).deque = recWithParent r h :: (s.coreAt j.steward).deque) ∧
        (∀ d < 17, let p := queuePlace d
          ((n.dieAt p.1).queueOf p.2).map (fun y => (y.record, y.job)) = ((s.dieAt p.1).queueOf p.2).map (fun y => (y.record, y.job)) ++
            ((if first then records.drop 1 else records).filter (placementOf · = some p)).map fun r => (recWithParent r h, s.pkg.nextJob)) ∧
        ∀ c, (first = true → c ≠ j.steward) → (n.coreAt c).deque = (s.coreAt c).deque))) ∧
  (
  ∀ (s : State) (n : Nat), let j := s.jobAt n
    j.live = true → (j.lost = true ∨ (s.counterAt j.counter).over = true) →
    ∃ u, exec (.jobCompletion n) s = .next u ∧ (u.jobAt n).live = false ∧
      (∀ m, m ≠ n → (u.jobAt m).live = (s.jobAt m).live) ∧
      (∀ d, ∀ q ∈ (u.dieAt d).queue, q.job ≠ n) ∧ (∀ m ∈ u.pkg.pages, m.job ≠ n) ∧
      (j.reportTo ≠ 0 → u.pkg.hostMessages = (j.reportTo, leBytes 4 n ++ leBytes 4 (if j.lost then 0x10 else 0) ++
        leBytes 8 s.ts.toNat) :: s.pkg.hostMessages) ∧
      (j.reportTo = 0 → u.pkg.hostMessages = s.pkg.hostMessages) ∧
      u.pkg.interrupts = s.pkg.interrupts + (if j.interrupt then 1 else 0))

/-- A request for memory is met in full, with a tensor handle over pages of the job's address space, or answered with
a zero and nothing else; one page of DRAM is given where a named stack has a free frame (R79, R80). A page that is
released has no frame and no entry any more, and the TLBs forget it (R46, R90; the frames and the handle are log 12).
A quiet pageable page becomes non-resident: its entry loses V and keeps its other fields, and the TLBs forget it.
Firmware answers a request for it with the page, whose entry is valid again and names its frame, with the bytes of the
page where the frame is another one, or with a fault, and then the page is gone (R42, R44, R438; where the contents
stay meanwhile is log 12). A page that comes back in another frame is one whose tables do not lie in that frame. A
page moves to a free frame that may back it, one page at a time: the new frame holds its bytes, its entry is valid
with the same attributes and names that frame, its record too, the TLBs forget the page, and it is locked until the
lock is released, when what stands at the old frame goes on at the new one (R88, R89, R95; DS is set where it is a
DRAM frame for a COLUMN page). The frame is one in which the page's tables do not lie. -/
def Obligations.MemoryIsGivenAndPagesMove : Prop :=
  (
  (∀ (s : State) (job cls : Nat) (places : Places) (m shift frame : Nat), s.inService = true →
    (job = 0 ∨ (s.jobAt job).live = true) →
    (∀ t, s.placeMemory job cls places { n := m, shift := shift } frame = some t →
      exec (.memoryRequest job cls places { n := m, shift := shift } frame) s = .next t ∧
      (cls < 2 → frame = 0 → let va := s.nextVa job .dram shift
        t.pkg.handles = (job, makeCap 0xC10 0 cls va (2 ^ shift * m) va) :: s.pkg.handles ∧
        t.pkg.pages.length = s.pkg.pages.length + m ∧
        ∀ i < m, ∃ x ∈ t.pkg.pages, x.job = job ∧ x.space = .dram ∧ x.va = va + 2 ^ shift * i ∧ x.shift = shift)) ∧
    (s.placeMemory job cls places { n := m, shift := shift } frame = none →
      exec (.memoryRequest job cls places { n := m, shift := shift } frame) s = .next { s with
        pkg := { s.pkg with handles := (job, {}) :: s.pkg.handles } }) ∧
    (∀ f, cls < 2 → s.tableRoom = true → (namedStacks places.towers).findSome? (s.stackFrame 16) = some f →
      ∃ t, s.placeMemory job cls places { n := 1, shift := 16 } 0 = some t ∧
        { job, space := .dram, va := s.nextVa job .dram 16, frame := f, shift := 16 } ∈ t.pkg.pages)) ∧
  (∀ (s : State) (job va : Nat) (m : Mapped), s.pageOf job va = some m → s.frameQuiet m = true →
    s.pageLocked job va = false →
    ∃ n, exec (.pageRelease job va) s = .next n ∧ m ∉ n.pkg.pages ∧ (∀ k, s.pteKey m = some k → n.readNat k 8 = 0) ∧
      (∀ x ∈ s.pkg.pages, x ≠ m → x ∈ n.pkg.pages) ∧
      (∀ d < 16, ∀ x ∈ (n.dieAt d).tlb, dropped 0 m.job m.va 0 x = false))) ∧
  (
  (∀ (s : State) (job va : Nat) (m : Mapped), s.pageOf job va = some m → pteValid (s.entryNow m) = true →
    ptePageable (s.entryNow m) = true → s.frameQuiet m = true → s.pageLocked job va = false →
    ∃ n, exec (.pageNonResident job va) s = .next n ∧ n.pkg.pages = s.pkg.pages ∧
      (∃ k, s.pteKey m = some k ∧ n.readNat k 8 + 2 ^ 63 = s.entryNow m ∧ pteValid (n.readNat k 8) = false ∧
        ∀ a, (a < k ∨ k + 8 ≤ a) → n.byteAt a = s.byteAt a) ∧
      (∀ d < 16, ∀ x ∈ (n.dieAt d).tlb, dropped 0 m.job m.va 0 x = false)) ∧
  (∀ (s : State) (job va frame : Nat) (m : Mapped), s.pageOf job va = some m →
    (∃ r ∈ s.pkg.residentRequests, m.requested r = true) →
    let entry := leafEntry (attrsOf (s.entryNow m) m.space frame) frame
    (frame = m.frame → paValid frame = true → ∃ n, exec (.pageResident job va frame true) s = .next n ∧
      (∀ r ∈ n.pkg.residentRequests, m.requested r = false) ∧ n.pkg.pages = s.pkg.pages ∧
      ∀ k, s.pteKey m = some k → n.readNat k 8 = entry ∧ pteValid entry = true ∧ ∀ a, (a < k ∨ k + 8 ≤ a) → n.byteAt a = s.byteAt a) ∧
    (frame ≠ m.frame → s.frameFree frame m.shift = true → paKind frame = paKind m.frame → s.memoryCanonical →
      ∃ n, exec (.pageResident job va frame true) s = .next n ∧ { m with frame } ∈ n.pkg.pages ∧
        (∀ r ∈ n.pkg.residentRequests, m.requested r = false) ∧
        ∀ k, (s.copyFrame m frame).pteKey m = some k →
          (∀ i < 2 ^ m.shift, (frame + i < k ∨ k + 8 ≤ frame + i) → n.byteAt (frame + i) = s.byteAt (m.frame + i)) ∧
          n.readNat k 8 = leafEntry (attrsOf (s.entryNow m) m.space frame) frame ∧ pteValid (n.readNat k 8) = true) ∧
    (∃ n, exec (.pageResident job va frame false) s = .next n ∧ (∀ r ∈ n.pkg.residentRequests, m.requested r = false) ∧
      m ∉ n.pkg.pages))) ∧
  (
  (∀ (s : State) (job va frame : Nat) (m : Mapped), s.pageOf job va = some m → s.frameFree frame m.shift = true →
    s.frameFits m frame = true → s.orderly m frame = true → pteValid (s.entryNow m) = true → s.pkg.locks = [] →
    s.memoryCanonical →
    ∃ n, exec (.pageMove job va frame) s = .next n ∧
      n.pkg.locks = [{ job, va := m.va, old := m.frame, new := frame, shift := m.shift }] ∧
      { m with frame } ∈ n.pkg.pages ∧
      (∀ k, (s.copyFrame m frame).pteKey m = some k →
        (∀ i < 2 ^ m.shift, (frame + i < k ∨ k + 8 ≤ frame + i) → n.byteAt (frame + i) = s.byteAt (m.frame + i)) ∧
        n.readNat k 8 = leafEntry (attrsOf (s.entryNow m) m.space frame) frame ∧ pteValid (n.readNat k 8) = true) ∧
      ∀ d < 16, ∀ x ∈ (n.dieAt d).tlb, dropped 0 m.job m.va 0 x = false) ∧
  (∀ (s : State) (job va frame : Nat) (m : Mapped), s.pageOf job va = some m → s.pkg.locks ≠ [] →
    exec (.pageMove job va frame) s = .next s) ∧
  (∀ (s : State) (job va : Nat) (l : Lock) (r : List Lock), s.pkg.locks = l :: r → l.job = job →
    l.va / 2 ^ l.shift = va / 2 ^ l.shift → l ∉ r → l.new % 2 ^ l.shift = 0 →
    ∃ n, exec (.pageLockRelease job va) s = .next n ∧ n.pkg.locks = r ∧ n.mem = s.mem ∧
      (l.old / 2 ^ l.shift ≠ l.new / 2 ^ l.shift →
        ∀ f ∈ n.net, f.forMemory = true → f.addr / 2 ^ l.shift ≠ l.old / 2 ^ l.shift)))

/-- A pending partition is installed once its core is quiet, and the PARTSET that waits in the handler slot retires;
in a cycle of the pool a request that reads different banks is served at once, of two reads of one bank the second
rebuilds its word from the rest of its group, an update of a whole group ends at once and any other in a second cycle,
and the rotation of the clients moves on; the rebuild gives the word itself; a pool word with a double-bit error is
rebuilt without its tag, or is poisoned when its group and row hold another error (R48, R56, R60-R64, R67, R395). A
tester takes a bus, one of a tower at a time, through the phases of its test, with a record and a self-test where the
pattern does not come back, and releases it; a demand access ends the test, and the bus is left alone for 4,096
cycles; two failed passes of a self-test, errors met meanwhile among them, retire a vertical bus and cut a mesh link
(R84-R87, R90, R448, R449; the pattern is log 9, the clock log 19). -/
def Obligations.PoolsAndBusesAreKept : Prop :=
  (
  ∀ (s : State) (c : Coord),
    (∃ n, exec (.poolArbitration c) s = .next n ∧
      (n.poolAt c).rotation = ((s.poolAt c).rotation + 1) % 6 ∧ (∀ d, d ≠ c → n.poolAt d = s.poolAt d) ∧
      n.cores = s.cores ∧ n.mem = s.mem ∧ n.net = s.net ∧
      ((s.poolAt c).next = [] → ∀ q, (s.poolAt c).queue = [q] → q.client < 7 → q.copies = [] →
        (q.updates = [] → (q.reads.map (· % 31)).Nodup → (n.poolAt c).queue = []) ∧
        (∀ u, q.reads = [] → q.updates = [u] → u.half = false →
          (n.poolAt c).queue = if u.full then [] else
            [{ q with updates := [{ u with half := true }], age := q.age + 1, fresh := false }])) ∧
      ((s.poolAt c).next = [] → ∀ p q v w, (s.poolAt c).queue = [p, q] → 8 ≤ p.age → 8 ≤ q.age → p.updates = [] → q.updates = [] →
        p.copies = [] → q.copies = [] → p.reads = [v] → q.reads = [w] → v % 31 = w % 31 → (n.poolAt c).queue = [])) ∧
    (∀ row b, b < 31 → s.rebuiltWord c row b = s.poolWord c (31 * row + b)) ∧
    (∀ p, (s.coreAt c).partPending = some p → s.quiet c = true →
      ∃ n, exec (.partwChange c) s = .next n ∧ (n.coreAt c).partw = p ∧ (n.coreAt c).partPending = none ∧
        (n.coreAt c).eng.bank = false ∧ (∀ d : Coord, clusterOf d ≠ clusterOf c → n.coreAt d = s.coreAt d) ∧
        ((s.slotAt c 0).st = .stalled → (n.slotAt c 0).pc.addr = (s.slotAt c 0).pc.addr + 4) ∧
        (∀ k, k < Config.poolBase → n.byteAt k = s.byteAt k) ∧
        (∀ k, poolKey c (496 * (sb p + sps p)) ≤ k → k < poolKey c (496 * stripes c) → sb p + sps p ≤ stripes c →
          n.byteAt k = Config.unlistedByte)) ∧
    (∀ w, w < 2 ^ 19 → let g := poolKey c 0 / 16 + w
      s.doubleErrors.contains g = true →
      ∃ n, exec (.poolRebuildWriteback c w) s = .next n ∧ n.mem = s.mem ∧ n.doubleErrors.contains g = false ∧
        n.tags.contains g = false ∧ (∀ y, y ≠ g → n.tags.contains y = s.tags.contains y) ∧
        (s.wordLost g = true → n.poison.contains g = true) ∧ (s.wordLost g = false → n.poison = s.poison))) ∧
  (
  ∀ (s : State) (cl : Coord) (b : Nat), isCluster cl = true → b < 4 →
    let x := s.busAt cl b
    let becomes (e : Instr) (y : Bus) : Prop := ∃ n, exec e s = .next n ∧ n.busAt cl b = y ∧ n.mem = s.mem ∧ n.net = s.net
    (x.retired = false → x.demand = false → ∀ bad,
      (x.phase = none → x.abortedAt = none → s.testing cl b = false →
        becomes (.testerQuiesce cl b bad) { x with phase := some .quiesced }) ∧
      (x.phase = some .quiesced → ∃ row, becomes (.testerQuiesce cl b bad) { x with phase := some .pattern, row }) ∧
      (x.phase = some .pattern → ∃ n, exec (.testerQuiesce cl b bad) s = .next n ∧ n.busAt cl b = { x with phase := some .checked } ∧
        n.mem = s.mem ∧ (bad = false → n.net = s.net) ∧
        (bad = true → n.net ≠ s.net ∧ ∃ y ∈ n.pkg.selfTests, y.kind = 1 ∧ y.place = cl ∧ y.idx = b)) ∧
      (x.phase = some .checked → becomes (.testerQuiesce cl b bad) { x with phase := none, abortedAt := none })) ∧
    (∀ since bad, x.phase = none → x.abortedAt = some since → s.elapsed cl since 4096 = false →
      exec (.testerQuiesce cl b bad) s = .next s) ∧
    (x.phase.isSome = true → x.demand = true → becomes (.testerAbort cl b)
      { x with phase := none, demand := false, abortedAt := some s.ts.toNat }) ∧
    (∀ kind place idx m readable y,
      s.pkg.selfTests.find? (fun t => t.kind == kind && t.place == place && t.idx == idx) = some y →
      (m + y.errors < 2 → exec (.selfTestComplete kind place idx { fails := m, readable := readable }) s = .next { s with
        pkg := { s.pkg with selfTests := s.pkg.selfTests.filter (· != y) } }) ∧
      (2 ≤ m + y.errors → ∃ n, exec (.selfTestComplete kind place idx { fails := m, readable := readable }) s = .next n ∧ n.mem = s.mem ∧
        (kind, place, idx) ∈ n.pkg.lasting ∧
        (kind = 1 → place = cl → idx = b → (n.busAt cl b).retired = true ∧
          (readable = false → ∀ p ∈ s.pagesBehind cl b, (p.job, p.space, p.va) ∈ n.pkg.poisoned)) ∧
        (kind = 2 → linked place.toNat idx = true → n.linkUp place.toNat idx = false))))

/-- A die that drains takes nothing new; planned offline takes a drained die that holds nothing out of service, and
refuses D15; forced offline takes any die out of service and loses the jobs that had work on it; a drained die is
remapped to a free physical die of its tier that is in service (R28, R91, R93, R94, R414, R426, R439; the destinations
are log 12). For the two offlines no access stands accepted and unsent. Bring-up goes through its seven steps, and
begins again after an alarm or a shutdown once every job has been reported; an alarm of level 1 or 2 loses every job
and erases the keys, so that DRAM is read as what is stored under a keystream that nothing fixes and has no tags,
level 2 the identity too; heat slows an island by a sixteenth at most fifteen times, and in the end stops the module
(R447, R451, R452; the identity and the keystream are log 9). -/
def Obligations.DiesLeaveServiceAndBringUp : Prop :=
  (
  ∀ (s : State) (d : Nat), s.dieLive d = true →
    let sent : Prop := ∀ (c : Coord) (i : Nat) (q : Pending), (s.slotAt c i).pend = some q → q.todo = []
    (d < 16 → ∃ n, exec (.dieDrain d) s = .next n ∧ (n.dieAt d).draining = true ∧ n.dieLive d = true ∧
      ∀ c : Coord, c.die = d → n.open_ c = false) ∧
    (d < 15 → sent → (s.dieAt d).draining = true → s.dieEmpty d = true → (s.dieAt d).queue = [] → s.gathered d = true →
      (s.dieAt d).saved = [] → s.pkg.locks = [] → s.towerPages (s.physical d) = [] →
      ∃ n, exec (.plannedOffline d) s = .next n ∧ n.dieLive d = false ∧ n.mem = s.mem ∧ n.pkg.gone.contains (s.physical d) = true ∧
        ∀ e, e ≠ d → n.dieAt e = s.dieAt e) ∧
    (d = 15 → ∃ n, exec (.plannedOffline d) s = .next n ∧ n.dieLive 15 = true ∧ (n.dieAt 15).draining = false ∧ n.mem = s.mem) ∧
    (∀ left, d < 16 → sent → ∃ n, exec (.forcedOffline d left) s = .next n ∧ n.dieLive d = false ∧
      (∀ c : Coord, c.die = d → n.running c = false) ∧ ∀ j ∈ s.jobsOn d, (n.jobAt j).lost = true) ∧
    (∀ p, d < 16 → p < 16 → s.pkg.gone.contains p = true → exec (.dieRemap d p) s = .next s) ∧
    (∀ p, d < 16 → p < 16 → (queuePlace p).2 = (queuePlace d).2 → (s.dieAt d).draining = true → s.dieEmpty d = true → s.gathered d = true →
      s.towerLive p = false → s.pkg.gone.contains p = false → s.pkg.locks = [] → s.pkg.pages = [] →
      ∃ n, exec (.dieRemap d p) s = .next n ∧ n.physical d = p ∧ n.dieLive d = true ∧ (n.dieAt d).draining = false)) ∧
  (
  ∀ s : State,
    (s.pkg.alarm = 0 → s.pkg.shutdown = false → s.pkg.bringUp < 7 → (s.pkg.bringUp = 3 → s.spans s.newTree = true) →
      ∃ n, exec .bringUp s = .next n ∧ n.pkg.bringUp = s.pkg.bringUp + 1 ∧ (s.pkg.bringUp = 3 → n.pkg.tree = s.newTree) ∧
        n.mem = s.mem ∧ n.cores = s.cores ∧ n.dies = s.dies) ∧
    ((s.pkg.alarm ≠ 0 ∨ s.pkg.shutdown = true) → s.noJobs = true → ∃ n, exec .bringUp s = .next n ∧ n.pkg.bringUp = 1 ∧
      n.pkg.alarm = 0 ∧ n.pkg.shutdown = false ∧ n.net = [] ∧ n.ts = 0 ∧ n.pkg.identityErased = s.pkg.identityErased ∧
      n.pkg.cut = s.pkg.cut ∧ n.pkg.gone = [] ∧ (∀ cl b, (n.busAt cl b).retired = true → ∃ e ∈ s.pkg.buses, e.2.retired = true) ∧
      ∀ k, k < 2 ^ 44 → n.byteAt k = s.byteAt k) ∧
    (∀ l, l = 1 ∨ l = 2 → ∃ n, exec (.securityAlarm l) s = .next n ∧ n.pkg.alarm = max s.pkg.alarm l ∧ n.pkg.keysErased = true ∧
      (l = 2 → n.pkg.identityErased = true) ∧ n.pkg.commands = [] ∧ n.inService = false ∧ n.mem = s.mem ∧
      (∀ k, k < 2 ^ 44 → n.byteAt k = Memory.read s.mem k ^^^ Config.keystream (s.keys + 1) k) ∧
      (∀ g, 16 * g < 2 ^ 44 → n.tags.contains g = false) ∧
      ∀ j, (s.jobAt j).live = true → (n.jobAt j).lost = true) ∧
    (∀ i, i < 284 → look 0 s.pkg.throttle i < 15 → ∃ n, exec (.thermalThrottle i) s = .next n ∧
      look 0 n.pkg.throttle i = look 0 s.pkg.throttle i + 1 ∧
      n.pkg.slowed = (i, s.ts.toNat, look 0 s.pkg.throttle i + 1) :: s.pkg.slowed ∧ n.mem = s.mem ∧ n.net = s.net) ∧
    (∃ n, exec .thermalShutdown s = .next n ∧ n.pkg.shutdown = true ∧ n.mem = s.mem ∧ (∀ c, n.running c = false) ∧
      ∀ j, (s.jobAt j).live = true → (n.jobAt j).lost = true))

/-- Trusted firmware installs a valid entry in a free place of a window table, withdraws it, and then forgets the
translations of the pages in an imported window once its accesses are answered (R443, R444; what stands behind a
window is log 15). A peer's load through an exported window is answered with the bytes of the page behind it, a store
writes them, and a load or a store with another peer, outside the window, through an invalid entry or at a poisoned
word, and a store without the permission W, is refused, and no byte changes (R443; the coding of the operation is log
12). -/
def Obligations.WindowsAndPeers : Prop :=
  (
  ∀ (s : State) (imp : Bool) (w : Nat),
    let old := (look 0 (s.windows imp) w).toNat
    (∀ e : BitVec 128, 6 ≤ s.pkg.bringUp → s.pkg.alarm = 0 → s.pkg.identityErased = false → w < windowCount imp →
      old % 2 = 0 → windowValid imp e.toNat = true →
      ∃ n, exec (.windowImport imp w e) s = .next n ∧ look 0 (n.windows imp) w = e ∧
        (∀ i, i ≠ w → look 0 (n.windows imp) i = look 0 (s.windows imp) i) ∧ n.windows (!imp) = s.windows (!imp) ∧
        n.mem = s.mem ∧ n.net = s.net) ∧
    (old % 2 = 1 → ∃ n, exec (.windowWithdraw imp w) s = .next n ∧ (look 0 (n.windows imp) w).toNat = old - 1 ∧
      n.mem = s.mem ∧ n.net = s.net) ∧
    (imp = true → old % 2 = 0 → s.requestOut (fun f => inWindow w f.addr) = true → exec (.windowInvalidate imp w) s = .next s) ∧
    (imp = true → old % 2 = 0 → s.requestOut (fun f => inWindow w f.addr) = false →
      ∃ n, exec (.windowInvalidate imp w) s = .next n ∧ n.mem = s.mem ∧
        ∀ m ∈ s.pkg.pages, inWindow w m.frame = true → ∀ d < 16, ∀ x ∈ (n.dieAt d).tlb, dropped 0 m.job m.va 0 x = false)) ∧
  (
  ∀ (s : State) (peer win off m : Nat) (data : BitVec 64),
    let w := (look 0 s.pkg.exported win).toNat
    let pa := bits w 127 64 + off
    let op (o : Nat) : BitVec 8 := BitVec.ofNat 8 (16 * m + o)
    s.pkg.alarm = 0 → s.pkg.shutdown = false → s.pkg.identityErased = false → 6 ≤ s.pkg.bringUp → s.frameLocked pa = false → m < 8 →
    let good := bit w 0 = true ∧ peer = bits w 63 48 ∧ off + m + 1 ≤ 65536 * bits w 39 20 ∧ paValid pa = true ∧ paKind pa = 0
    let refused (o : Nat) : Prop := ∃ n, exec (.fabricInboundAccess peer win off (op o) data) s = .next n ∧
      n.pkg.answers = (peer, none) :: s.pkg.answers ∧ n.mem = s.mem ∧ n.keys = s.keys ∧ n.tags = s.tags ∧ n.cores = s.cores
    (good → s.poisonedAt pa (m + 1) = false → ∃ n, exec (.fabricInboundAccess peer win off (op 0) data) s = .next n ∧
      n.pkg.answers = (peer, some (s.readBytes pa (m + 1))) :: s.pkg.answers ∧ n.mem = s.mem ∧ n.cores = s.cores) ∧
    (good → s.poisonedAt pa (m + 1) = false → bit w 2 = true → ∃ n, exec (.fabricInboundAccess peer win off (op 1) data) s = .next n ∧
      n.readBytes pa (m + 1) = leBytes (m + 1) data.toNat ∧ n.pkg.answers = (peer, some []) :: s.pkg.answers ∧
      ∀ j, (j < pa ∨ pa + m + 1 ≤ j) → n.byteAt j = s.byteAt j) ∧
    ((¬ good ∨ s.poisonedAt pa (m + 1) = true) → refused 0 ∧ refused 1) ∧ (bit w 2 = false → refused 1))
end

