-- ==== Sys2Proof/Laws/State.lean ====
section
/-! SUPPORT. Sys2Proof/Laws/State.lean: what each update of the state leaves of each field, and reading back what was set. -/

namespace Sys2Proof.Machine

set_option Elab.async false

/-! ### Maps with a default -/

@[simp] theorem look_put_same {α : Type} (d : α) (l : List (Nat × α)) (k : Nat) (v : α) : look d (put l k v) k = v := by
  induction l with
  | nil => simp [put, look]
  | cons p r ih =>
    obtain ⟨a, x⟩ := p
    by_cases h : a = k
    · simp [put, look, h]
    · simp [put, look, h, ih]

theorem look_put_other {α : Type} (d : α) (l : List (Nat × α)) (k j : Nat) (v : α) (h : j ≠ k) :
    look d (put l k v) j = look d l j := by
  induction l with
  | nil => simp [put, look, Ne.symm h]
  | cons p r ih =>
    obtain ⟨a, x⟩ := p
    by_cases ha : a = k
    · subst ha; simp [put, look, Ne.symm h]
    · by_cases hj : a = j
      · subst hj; simp [put, look, ha]
      · simp [put, look, ha, hj, ih]

/-! ### One field after one update -/

@[simp] theorem setCore_agenda (s : State) (c : Coord) (x : Core) : (s.setCore c x).agenda = s.agenda := rfl
@[simp] theorem setCore_core (s : State) (c : Coord) (x : Core) : (s.setCore c x).core = s.core := rfl
@[simp] theorem setCore_slot (s : State) (c : Coord) (x : Core) : (s.setCore c x).slot = s.slot := rfl
@[simp] theorem setCore_free (s : State) (c : Coord) (x : Core) : (s.setCore c x).free = s.free := rfl
@[simp] theorem setCore_fetched (s : State) (c : Coord) (x : Core) : (s.setCore c x).fetched = s.fetched := rfl
@[simp] theorem setCore_ts (s : State) (c : Coord) (x : Core) : (s.setCore c x).ts = s.ts := rfl
@[simp] theorem setCore_mem (s : State) (c : Coord) (x : Core) : (s.setCore c x).mem = s.mem := rfl
@[simp] theorem setCore_tags (s : State) (c : Coord) (x : Core) : (s.setCore c x).tags = s.tags := rfl
@[simp] theorem setCore_poison (s : State) (c : Coord) (x : Core) : (s.setCore c x).poison = s.poison := rfl
@[simp] theorem setCore_doubleErrors (s : State) (c : Coord) (x : Core) : (s.setCore c x).doubleErrors = s.doubleErrors := rfl
@[simp] theorem setCore_net (s : State) (c : Coord) (x : Core) : (s.setCore c x).net = s.net := rfl
@[simp] theorem setCore_clusters (s : State) (c : Coord) (x : Core) : (s.setCore c x).clusters = s.clusters := rfl
@[simp] theorem setCore_dies (s : State) (c : Coord) (x : Core) : (s.setCore c x).dies = s.dies := rfl
@[simp] theorem setCore_jobs (s : State) (c : Coord) (x : Core) : (s.setCore c x).jobs = s.jobs := rfl
@[simp] theorem setCore_counters (s : State) (c : Coord) (x : Core) : (s.setCore c x).counters = s.counters := rfl
@[simp] theorem setCore_keys (s : State) (c : Coord) (x : Core) : (s.setCore c x).keys = s.keys := rfl
@[simp] theorem setCore_pools (s : State) (c : Coord) (x : Core) : (s.setCore c x).pools = s.pools := rfl
@[simp] theorem setCore_pkg (s : State) (c : Coord) (x : Core) : (s.setCore c x).pkg = s.pkg := rfl

@[simp] theorem setCluster_agenda (s : State) (c : Coord) (x : Cluster) : (s.setCluster c x).agenda = s.agenda := rfl
@[simp] theorem setCluster_core (s : State) (c : Coord) (x : Cluster) : (s.setCluster c x).core = s.core := rfl
@[simp] theorem setCluster_slot (s : State) (c : Coord) (x : Cluster) : (s.setCluster c x).slot = s.slot := rfl
@[simp] theorem setCluster_free (s : State) (c : Coord) (x : Cluster) : (s.setCluster c x).free = s.free := rfl
@[simp] theorem setCluster_fetched (s : State) (c : Coord) (x : Cluster) : (s.setCluster c x).fetched = s.fetched := rfl
@[simp] theorem setCluster_ts (s : State) (c : Coord) (x : Cluster) : (s.setCluster c x).ts = s.ts := rfl
@[simp] theorem setCluster_mem (s : State) (c : Coord) (x : Cluster) : (s.setCluster c x).mem = s.mem := rfl
@[simp] theorem setCluster_tags (s : State) (c : Coord) (x : Cluster) : (s.setCluster c x).tags = s.tags := rfl
@[simp] theorem setCluster_poison (s : State) (c : Coord) (x : Cluster) : (s.setCluster c x).poison = s.poison := rfl
@[simp] theorem setCluster_doubleErrors (s : State) (c : Coord) (x : Cluster) : (s.setCluster c x).doubleErrors = s.doubleErrors := rfl
@[simp] theorem setCluster_net (s : State) (c : Coord) (x : Cluster) : (s.setCluster c x).net = s.net := rfl
@[simp] theorem setCluster_cores (s : State) (c : Coord) (x : Cluster) : (s.setCluster c x).cores = s.cores := rfl
@[simp] theorem setCluster_dies (s : State) (c : Coord) (x : Cluster) : (s.setCluster c x).dies = s.dies := rfl
@[simp] theorem setCluster_jobs (s : State) (c : Coord) (x : Cluster) : (s.setCluster c x).jobs = s.jobs := rfl
@[simp] theorem setCluster_counters (s : State) (c : Coord) (x : Cluster) : (s.setCluster c x).counters = s.counters := rfl
@[simp] theorem setCluster_keys (s : State) (c : Coord) (x : Cluster) : (s.setCluster c x).keys = s.keys := rfl
@[simp] theorem setCluster_pools (s : State) (c : Coord) (x : Cluster) : (s.setCluster c x).pools = s.pools := rfl
@[simp] theorem setCluster_pkg (s : State) (c : Coord) (x : Cluster) : (s.setCluster c x).pkg = s.pkg := rfl

@[simp] theorem setDie_agenda (s : State) (d : Nat) (x : Die) : (s.setDie d x).agenda = s.agenda := rfl
@[simp] theorem setDie_core (s : State) (d : Nat) (x : Die) : (s.setDie d x).core = s.core := rfl
@[simp] theorem setDie_slot (s : State) (d : Nat) (x : Die) : (s.setDie d x).slot = s.slot := rfl
@[simp] theorem setDie_free (s : State) (d : Nat) (x : Die) : (s.setDie d x).free = s.free := rfl
@[simp] theorem setDie_fetched (s : State) (d : Nat) (x : Die) : (s.setDie d x).fetched = s.fetched := rfl
@[simp] theorem setDie_ts (s : State) (d : Nat) (x : Die) : (s.setDie d x).ts = s.ts := rfl
@[simp] theorem setDie_mem (s : State) (d : Nat) (x : Die) : (s.setDie d x).mem = s.mem := rfl
@[simp] theorem setDie_tags (s : State) (d : Nat) (x : Die) : (s.setDie d x).tags = s.tags := rfl
@[simp] theorem setDie_poison (s : State) (d : Nat) (x : Die) : (s.setDie d x).poison = s.poison := rfl
@[simp] theorem setDie_doubleErrors (s : State) (d : Nat) (x : Die) : (s.setDie d x).doubleErrors = s.doubleErrors := rfl
@[simp] theorem setDie_net (s : State) (d : Nat) (x : Die) : (s.setDie d x).net = s.net := rfl
@[simp] theorem setDie_cores (s : State) (d : Nat) (x : Die) : (s.setDie d x).cores = s.cores := rfl
@[simp] theorem setDie_clusters (s : State) (d : Nat) (x : Die) : (s.setDie d x).clusters = s.clusters := rfl
@[simp] theorem setDie_jobs (s : State) (d : Nat) (x : Die) : (s.setDie d x).jobs = s.jobs := rfl
@[simp] theorem setDie_counters (s : State) (d : Nat) (x : Die) : (s.setDie d x).counters = s.counters := rfl
@[simp] theorem setDie_keys (s : State) (d : Nat) (x : Die) : (s.setDie d x).keys = s.keys := rfl
@[simp] theorem setDie_pools (s : State) (d : Nat) (x : Die) : (s.setDie d x).pools = s.pools := rfl
@[simp] theorem setDie_pkg (s : State) (d : Nat) (x : Die) : (s.setDie d x).pkg = s.pkg := rfl

@[simp] theorem setJob_agenda (s : State) (n : Nat) (x : Job) : (s.setJob n x).agenda = s.agenda := rfl
@[simp] theorem setJob_core (s : State) (n : Nat) (x : Job) : (s.setJob n x).core = s.core := rfl
@[simp] theorem setJob_slot (s : State) (n : Nat) (x : Job) : (s.setJob n x).slot = s.slot := rfl
@[simp] theorem setJob_free (s : State) (n : Nat) (x : Job) : (s.setJob n x).free = s.free := rfl
@[simp] theorem setJob_fetched (s : State) (n : Nat) (x : Job) : (s.setJob n x).fetched = s.fetched := rfl
@[simp] theorem setJob_ts (s : State) (n : Nat) (x : Job) : (s.setJob n x).ts = s.ts := rfl
@[simp] theorem setJob_mem (s : State) (n : Nat) (x : Job) : (s.setJob n x).mem = s.mem := rfl
@[simp] theorem setJob_tags (s : State) (n : Nat) (x : Job) : (s.setJob n x).tags = s.tags := rfl
@[simp] theorem setJob_poison (s : State) (n : Nat) (x : Job) : (s.setJob n x).poison = s.poison := rfl
@[simp] theorem setJob_doubleErrors (s : State) (n : Nat) (x : Job) : (s.setJob n x).doubleErrors = s.doubleErrors := rfl
@[simp] theorem setJob_net (s : State) (n : Nat) (x : Job) : (s.setJob n x).net = s.net := rfl
@[simp] theorem setJob_cores (s : State) (n : Nat) (x : Job) : (s.setJob n x).cores = s.cores := rfl
@[simp] theorem setJob_clusters (s : State) (n : Nat) (x : Job) : (s.setJob n x).clusters = s.clusters := rfl
@[simp] theorem setJob_dies (s : State) (n : Nat) (x : Job) : (s.setJob n x).dies = s.dies := rfl
@[simp] theorem setJob_counters (s : State) (n : Nat) (x : Job) : (s.setJob n x).counters = s.counters := rfl
@[simp] theorem setJob_keys (s : State) (n : Nat) (x : Job) : (s.setJob n x).keys = s.keys := rfl
@[simp] theorem setJob_pools (s : State) (n : Nat) (x : Job) : (s.setJob n x).pools = s.pools := rfl
@[simp] theorem setJob_pkg (s : State) (n : Nat) (x : Job) : (s.setJob n x).pkg = s.pkg := rfl

@[simp] theorem setSlot_agenda (s : State) (c : Coord) (i : Nat) (y : Slot) : (s.setSlot c i y).agenda = s.agenda := rfl
@[simp] theorem setSlot_core (s : State) (c : Coord) (i : Nat) (y : Slot) : (s.setSlot c i y).core = s.core := rfl
@[simp] theorem setSlot_slot (s : State) (c : Coord) (i : Nat) (y : Slot) : (s.setSlot c i y).slot = s.slot := rfl
@[simp] theorem setSlot_free (s : State) (c : Coord) (i : Nat) (y : Slot) : (s.setSlot c i y).free = s.free := rfl
@[simp] theorem setSlot_fetched (s : State) (c : Coord) (i : Nat) (y : Slot) : (s.setSlot c i y).fetched = s.fetched := rfl
@[simp] theorem setSlot_ts (s : State) (c : Coord) (i : Nat) (y : Slot) : (s.setSlot c i y).ts = s.ts := rfl
@[simp] theorem setSlot_mem (s : State) (c : Coord) (i : Nat) (y : Slot) : (s.setSlot c i y).mem = s.mem := rfl
@[simp] theorem setSlot_tags (s : State) (c : Coord) (i : Nat) (y : Slot) : (s.setSlot c i y).tags = s.tags := rfl
@[simp] theorem setSlot_poison (s : State) (c : Coord) (i : Nat) (y : Slot) : (s.setSlot c i y).poison = s.poison := rfl
@[simp] theorem setSlot_doubleErrors (s : State) (c : Coord) (i : Nat) (y : Slot) : (s.setSlot c i y).doubleErrors = s.doubleErrors := rfl
@[simp] theorem setSlot_net (s : State) (c : Coord) (i : Nat) (y : Slot) : (s.setSlot c i y).net = s.net := rfl
@[simp] theorem setSlot_clusters (s : State) (c : Coord) (i : Nat) (y : Slot) : (s.setSlot c i y).clusters = s.clusters := rfl
@[simp] theorem setSlot_dies (s : State) (c : Coord) (i : Nat) (y : Slot) : (s.setSlot c i y).dies = s.dies := rfl
@[simp] theorem setSlot_jobs (s : State) (c : Coord) (i : Nat) (y : Slot) : (s.setSlot c i y).jobs = s.jobs := rfl
@[simp] theorem setSlot_counters (s : State) (c : Coord) (i : Nat) (y : Slot) : (s.setSlot c i y).counters = s.counters := rfl
@[simp] theorem setSlot_keys (s : State) (c : Coord) (i : Nat) (y : Slot) : (s.setSlot c i y).keys = s.keys := rfl
@[simp] theorem setSlot_pools (s : State) (c : Coord) (i : Nat) (y : Slot) : (s.setSlot c i y).pools = s.pools := rfl
@[simp] theorem setSlot_pkg (s : State) (c : Coord) (i : Nat) (y : Slot) : (s.setSlot c i y).pkg = s.pkg := rfl

@[simp] theorem modCore_agenda (s : State) (c : Coord) (f : Core → Core) : (s.modCore c f).agenda = s.agenda := rfl
@[simp] theorem modCore_core (s : State) (c : Coord) (f : Core → Core) : (s.modCore c f).core = s.core := rfl
@[simp] theorem modCore_slot (s : State) (c : Coord) (f : Core → Core) : (s.modCore c f).slot = s.slot := rfl
@[simp] theorem modCore_free (s : State) (c : Coord) (f : Core → Core) : (s.modCore c f).free = s.free := rfl
@[simp] theorem modCore_fetched (s : State) (c : Coord) (f : Core → Core) : (s.modCore c f).fetched = s.fetched := rfl
@[simp] theorem modCore_ts (s : State) (c : Coord) (f : Core → Core) : (s.modCore c f).ts = s.ts := rfl
@[simp] theorem modCore_mem (s : State) (c : Coord) (f : Core → Core) : (s.modCore c f).mem = s.mem := rfl
@[simp] theorem modCore_tags (s : State) (c : Coord) (f : Core → Core) : (s.modCore c f).tags = s.tags := rfl
@[simp] theorem modCore_poison (s : State) (c : Coord) (f : Core → Core) : (s.modCore c f).poison = s.poison := rfl
@[simp] theorem modCore_doubleErrors (s : State) (c : Coord) (f : Core → Core) : (s.modCore c f).doubleErrors = s.doubleErrors := rfl
@[simp] theorem modCore_net (s : State) (c : Coord) (f : Core → Core) : (s.modCore c f).net = s.net := rfl
@[simp] theorem modCore_clusters (s : State) (c : Coord) (f : Core → Core) : (s.modCore c f).clusters = s.clusters := rfl
@[simp] theorem modCore_dies (s : State) (c : Coord) (f : Core → Core) : (s.modCore c f).dies = s.dies := rfl
@[simp] theorem modCore_jobs (s : State) (c : Coord) (f : Core → Core) : (s.modCore c f).jobs = s.jobs := rfl
@[simp] theorem modCore_counters (s : State) (c : Coord) (f : Core → Core) : (s.modCore c f).counters = s.counters := rfl
@[simp] theorem modCore_keys (s : State) (c : Coord) (f : Core → Core) : (s.modCore c f).keys = s.keys := rfl
@[simp] theorem modCore_pools (s : State) (c : Coord) (f : Core → Core) : (s.modCore c f).pools = s.pools := rfl
@[simp] theorem modCore_pkg (s : State) (c : Coord) (f : Core → Core) : (s.modCore c f).pkg = s.pkg := rfl

@[simp] theorem modSlot_agenda (s : State) (c : Coord) (i : Nat) (f : Slot → Slot) : (s.modSlot c i f).agenda = s.agenda := rfl
@[simp] theorem modSlot_core (s : State) (c : Coord) (i : Nat) (f : Slot → Slot) : (s.modSlot c i f).core = s.core := rfl
@[simp] theorem modSlot_slot (s : State) (c : Coord) (i : Nat) (f : Slot → Slot) : (s.modSlot c i f).slot = s.slot := rfl
@[simp] theorem modSlot_free (s : State) (c : Coord) (i : Nat) (f : Slot → Slot) : (s.modSlot c i f).free = s.free := rfl
@[simp] theorem modSlot_fetched (s : State) (c : Coord) (i : Nat) (f : Slot → Slot) : (s.modSlot c i f).fetched = s.fetched := rfl
@[simp] theorem modSlot_ts (s : State) (c : Coord) (i : Nat) (f : Slot → Slot) : (s.modSlot c i f).ts = s.ts := rfl
@[simp] theorem modSlot_mem (s : State) (c : Coord) (i : Nat) (f : Slot → Slot) : (s.modSlot c i f).mem = s.mem := rfl
@[simp] theorem modSlot_tags (s : State) (c : Coord) (i : Nat) (f : Slot → Slot) : (s.modSlot c i f).tags = s.tags := rfl
@[simp] theorem modSlot_poison (s : State) (c : Coord) (i : Nat) (f : Slot → Slot) : (s.modSlot c i f).poison = s.poison := rfl
@[simp] theorem modSlot_doubleErrors (s : State) (c : Coord) (i : Nat) (f : Slot → Slot) : (s.modSlot c i f).doubleErrors = s.doubleErrors := rfl
@[simp] theorem modSlot_net (s : State) (c : Coord) (i : Nat) (f : Slot → Slot) : (s.modSlot c i f).net = s.net := rfl
@[simp] theorem modSlot_clusters (s : State) (c : Coord) (i : Nat) (f : Slot → Slot) : (s.modSlot c i f).clusters = s.clusters := rfl
@[simp] theorem modSlot_dies (s : State) (c : Coord) (i : Nat) (f : Slot → Slot) : (s.modSlot c i f).dies = s.dies := rfl
@[simp] theorem modSlot_jobs (s : State) (c : Coord) (i : Nat) (f : Slot → Slot) : (s.modSlot c i f).jobs = s.jobs := rfl
@[simp] theorem modSlot_counters (s : State) (c : Coord) (i : Nat) (f : Slot → Slot) : (s.modSlot c i f).counters = s.counters := rfl
@[simp] theorem modSlot_keys (s : State) (c : Coord) (i : Nat) (f : Slot → Slot) : (s.modSlot c i f).keys = s.keys := rfl
@[simp] theorem modSlot_pools (s : State) (c : Coord) (i : Nat) (f : Slot → Slot) : (s.modSlot c i f).pools = s.pools := rfl
@[simp] theorem modSlot_pkg (s : State) (c : Coord) (i : Nat) (f : Slot → Slot) : (s.modSlot c i f).pkg = s.pkg := rfl

@[simp] theorem modSl_agenda (s : State) (f : Slot → Slot) : (s.modSl f).agenda = s.agenda := rfl
@[simp] theorem modSl_core (s : State) (f : Slot → Slot) : (s.modSl f).core = s.core := rfl
@[simp] theorem modSl_slot (s : State) (f : Slot → Slot) : (s.modSl f).slot = s.slot := rfl
@[simp] theorem modSl_free (s : State) (f : Slot → Slot) : (s.modSl f).free = s.free := rfl
@[simp] theorem modSl_fetched (s : State) (f : Slot → Slot) : (s.modSl f).fetched = s.fetched := rfl
@[simp] theorem modSl_ts (s : State) (f : Slot → Slot) : (s.modSl f).ts = s.ts := rfl
@[simp] theorem modSl_mem (s : State) (f : Slot → Slot) : (s.modSl f).mem = s.mem := rfl
@[simp] theorem modSl_tags (s : State) (f : Slot → Slot) : (s.modSl f).tags = s.tags := rfl
@[simp] theorem modSl_poison (s : State) (f : Slot → Slot) : (s.modSl f).poison = s.poison := rfl
@[simp] theorem modSl_doubleErrors (s : State) (f : Slot → Slot) : (s.modSl f).doubleErrors = s.doubleErrors := rfl
@[simp] theorem modSl_net (s : State) (f : Slot → Slot) : (s.modSl f).net = s.net := rfl
@[simp] theorem modSl_clusters (s : State) (f : Slot → Slot) : (s.modSl f).clusters = s.clusters := rfl
@[simp] theorem modSl_dies (s : State) (f : Slot → Slot) : (s.modSl f).dies = s.dies := rfl
@[simp] theorem modSl_jobs (s : State) (f : Slot → Slot) : (s.modSl f).jobs = s.jobs := rfl
@[simp] theorem modSl_counters (s : State) (f : Slot → Slot) : (s.modSl f).counters = s.counters := rfl
@[simp] theorem modSl_keys (s : State) (f : Slot → Slot) : (s.modSl f).keys = s.keys := rfl
@[simp] theorem modSl_pools (s : State) (f : Slot → Slot) : (s.modSl f).pools = s.pools := rfl
@[simp] theorem modSl_pkg (s : State) (f : Slot → Slot) : (s.modSl f).pkg = s.pkg := rfl

@[simp] theorem modCr_agenda (s : State) (f : Core → Core) : (s.modCr f).agenda = s.agenda := rfl
@[simp] theorem modCr_core (s : State) (f : Core → Core) : (s.modCr f).core = s.core := rfl
@[simp] theorem modCr_slot (s : State) (f : Core → Core) : (s.modCr f).slot = s.slot := rfl
@[simp] theorem modCr_free (s : State) (f : Core → Core) : (s.modCr f).free = s.free := rfl
@[simp] theorem modCr_fetched (s : State) (f : Core → Core) : (s.modCr f).fetched = s.fetched := rfl
@[simp] theorem modCr_ts (s : State) (f : Core → Core) : (s.modCr f).ts = s.ts := rfl
@[simp] theorem modCr_mem (s : State) (f : Core → Core) : (s.modCr f).mem = s.mem := rfl
@[simp] theorem modCr_tags (s : State) (f : Core → Core) : (s.modCr f).tags = s.tags := rfl
@[simp] theorem modCr_poison (s : State) (f : Core → Core) : (s.modCr f).poison = s.poison := rfl
@[simp] theorem modCr_doubleErrors (s : State) (f : Core → Core) : (s.modCr f).doubleErrors = s.doubleErrors := rfl
@[simp] theorem modCr_net (s : State) (f : Core → Core) : (s.modCr f).net = s.net := rfl
@[simp] theorem modCr_clusters (s : State) (f : Core → Core) : (s.modCr f).clusters = s.clusters := rfl
@[simp] theorem modCr_dies (s : State) (f : Core → Core) : (s.modCr f).dies = s.dies := rfl
@[simp] theorem modCr_jobs (s : State) (f : Core → Core) : (s.modCr f).jobs = s.jobs := rfl
@[simp] theorem modCr_counters (s : State) (f : Core → Core) : (s.modCr f).counters = s.counters := rfl
@[simp] theorem modCr_keys (s : State) (f : Core → Core) : (s.modCr f).keys = s.keys := rfl
@[simp] theorem modCr_pools (s : State) (f : Core → Core) : (s.modCr f).pools = s.pools := rfl
@[simp] theorem modCr_pkg (s : State) (f : Core → Core) : (s.modCr f).pkg = s.pkg := rfl

@[simp] theorem setG_agenda (s : State) (r : GReg) (c : Cap) : (s.setG r c).agenda = s.agenda := rfl
@[simp] theorem setG_core (s : State) (r : GReg) (c : Cap) : (s.setG r c).core = s.core := rfl
@[simp] theorem setG_slot (s : State) (r : GReg) (c : Cap) : (s.setG r c).slot = s.slot := rfl
@[simp] theorem setG_free (s : State) (r : GReg) (c : Cap) : (s.setG r c).free = s.free := rfl
@[simp] theorem setG_fetched (s : State) (r : GReg) (c : Cap) : (s.setG r c).fetched = s.fetched := rfl
@[simp] theorem setG_ts (s : State) (r : GReg) (c : Cap) : (s.setG r c).ts = s.ts := rfl
@[simp] theorem setG_mem (s : State) (r : GReg) (c : Cap) : (s.setG r c).mem = s.mem := rfl
@[simp] theorem setG_tags (s : State) (r : GReg) (c : Cap) : (s.setG r c).tags = s.tags := rfl
@[simp] theorem setG_poison (s : State) (r : GReg) (c : Cap) : (s.setG r c).poison = s.poison := rfl
@[simp] theorem setG_doubleErrors (s : State) (r : GReg) (c : Cap) : (s.setG r c).doubleErrors = s.doubleErrors := rfl
@[simp] theorem setG_net (s : State) (r : GReg) (c : Cap) : (s.setG r c).net = s.net := rfl
@[simp] theorem setG_clusters (s : State) (r : GReg) (c : Cap) : (s.setG r c).clusters = s.clusters := rfl
@[simp] theorem setG_dies (s : State) (r : GReg) (c : Cap) : (s.setG r c).dies = s.dies := rfl
@[simp] theorem setG_jobs (s : State) (r : GReg) (c : Cap) : (s.setG r c).jobs = s.jobs := rfl
@[simp] theorem setG_counters (s : State) (r : GReg) (c : Cap) : (s.setG r c).counters = s.counters := rfl
@[simp] theorem setG_keys (s : State) (r : GReg) (c : Cap) : (s.setG r c).keys = s.keys := rfl
@[simp] theorem setG_pools (s : State) (r : GReg) (c : Cap) : (s.setG r c).pools = s.pools := rfl
@[simp] theorem setG_pkg (s : State) (r : GReg) (c : Cap) : (s.setG r c).pkg = s.pkg := rfl

@[simp] theorem writeInt_agenda (s : State) (r : GReg) (w : Word) : (s.writeInt r w).agenda = s.agenda := rfl
@[simp] theorem writeInt_core (s : State) (r : GReg) (w : Word) : (s.writeInt r w).core = s.core := rfl
@[simp] theorem writeInt_slot (s : State) (r : GReg) (w : Word) : (s.writeInt r w).slot = s.slot := rfl
@[simp] theorem writeInt_free (s : State) (r : GReg) (w : Word) : (s.writeInt r w).free = s.free := rfl
@[simp] theorem writeInt_fetched (s : State) (r : GReg) (w : Word) : (s.writeInt r w).fetched = s.fetched := rfl
@[simp] theorem writeInt_ts (s : State) (r : GReg) (w : Word) : (s.writeInt r w).ts = s.ts := rfl
@[simp] theorem writeInt_mem (s : State) (r : GReg) (w : Word) : (s.writeInt r w).mem = s.mem := rfl
@[simp] theorem writeInt_tags (s : State) (r : GReg) (w : Word) : (s.writeInt r w).tags = s.tags := rfl
@[simp] theorem writeInt_poison (s : State) (r : GReg) (w : Word) : (s.writeInt r w).poison = s.poison := rfl
@[simp] theorem writeInt_doubleErrors (s : State) (r : GReg) (w : Word) : (s.writeInt r w).doubleErrors = s.doubleErrors := rfl
@[simp] theorem writeInt_net (s : State) (r : GReg) (w : Word) : (s.writeInt r w).net = s.net := rfl
@[simp] theorem writeInt_clusters (s : State) (r : GReg) (w : Word) : (s.writeInt r w).clusters = s.clusters := rfl
@[simp] theorem writeInt_dies (s : State) (r : GReg) (w : Word) : (s.writeInt r w).dies = s.dies := rfl
@[simp] theorem writeInt_jobs (s : State) (r : GReg) (w : Word) : (s.writeInt r w).jobs = s.jobs := rfl
@[simp] theorem writeInt_counters (s : State) (r : GReg) (w : Word) : (s.writeInt r w).counters = s.counters := rfl
@[simp] theorem writeInt_keys (s : State) (r : GReg) (w : Word) : (s.writeInt r w).keys = s.keys := rfl
@[simp] theorem writeInt_pools (s : State) (r : GReg) (w : Word) : (s.writeInt r w).pools = s.pools := rfl
@[simp] theorem writeInt_pkg (s : State) (r : GReg) (w : Word) : (s.writeInt r w).pkg = s.pkg := rfl

@[simp] theorem setView_agenda (s : State) (b : Nat) (x : BitVec 576) : (s.setView b x).agenda = s.agenda := rfl
@[simp] theorem setView_core (s : State) (b : Nat) (x : BitVec 576) : (s.setView b x).core = s.core := rfl
@[simp] theorem setView_slot (s : State) (b : Nat) (x : BitVec 576) : (s.setView b x).slot = s.slot := rfl
@[simp] theorem setView_free (s : State) (b : Nat) (x : BitVec 576) : (s.setView b x).free = s.free := rfl
@[simp] theorem setView_fetched (s : State) (b : Nat) (x : BitVec 576) : (s.setView b x).fetched = s.fetched := rfl
@[simp] theorem setView_ts (s : State) (b : Nat) (x : BitVec 576) : (s.setView b x).ts = s.ts := rfl
@[simp] theorem setView_mem (s : State) (b : Nat) (x : BitVec 576) : (s.setView b x).mem = s.mem := rfl
@[simp] theorem setView_tags (s : State) (b : Nat) (x : BitVec 576) : (s.setView b x).tags = s.tags := rfl
@[simp] theorem setView_poison (s : State) (b : Nat) (x : BitVec 576) : (s.setView b x).poison = s.poison := rfl
@[simp] theorem setView_doubleErrors (s : State) (b : Nat) (x : BitVec 576) : (s.setView b x).doubleErrors = s.doubleErrors := rfl
@[simp] theorem setView_net (s : State) (b : Nat) (x : BitVec 576) : (s.setView b x).net = s.net := rfl
@[simp] theorem setView_clusters (s : State) (b : Nat) (x : BitVec 576) : (s.setView b x).clusters = s.clusters := rfl
@[simp] theorem setView_dies (s : State) (b : Nat) (x : BitVec 576) : (s.setView b x).dies = s.dies := rfl
@[simp] theorem setView_jobs (s : State) (b : Nat) (x : BitVec 576) : (s.setView b x).jobs = s.jobs := rfl
@[simp] theorem setView_counters (s : State) (b : Nat) (x : BitVec 576) : (s.setView b x).counters = s.counters := rfl
@[simp] theorem setView_keys (s : State) (b : Nat) (x : BitVec 576) : (s.setView b x).keys = s.keys := rfl
@[simp] theorem setView_pools (s : State) (b : Nat) (x : BitVec 576) : (s.setView b x).pools = s.pools := rfl
@[simp] theorem setView_pkg (s : State) (b : Nat) (x : BitVec 576) : (s.setView b x).pkg = s.pkg := rfl

@[simp] theorem modPool_agenda (s : State) (c : Coord) (f : Pool → Pool) : (s.modPool c f).agenda = s.agenda := rfl
@[simp] theorem modPool_core (s : State) (c : Coord) (f : Pool → Pool) : (s.modPool c f).core = s.core := rfl
@[simp] theorem modPool_slot (s : State) (c : Coord) (f : Pool → Pool) : (s.modPool c f).slot = s.slot := rfl
@[simp] theorem modPool_free (s : State) (c : Coord) (f : Pool → Pool) : (s.modPool c f).free = s.free := rfl
@[simp] theorem modPool_fetched (s : State) (c : Coord) (f : Pool → Pool) : (s.modPool c f).fetched = s.fetched := rfl
@[simp] theorem modPool_ts (s : State) (c : Coord) (f : Pool → Pool) : (s.modPool c f).ts = s.ts := rfl
@[simp] theorem modPool_mem (s : State) (c : Coord) (f : Pool → Pool) : (s.modPool c f).mem = s.mem := rfl
@[simp] theorem modPool_tags (s : State) (c : Coord) (f : Pool → Pool) : (s.modPool c f).tags = s.tags := rfl
@[simp] theorem modPool_poison (s : State) (c : Coord) (f : Pool → Pool) : (s.modPool c f).poison = s.poison := rfl
@[simp] theorem modPool_doubleErrors (s : State) (c : Coord) (f : Pool → Pool) : (s.modPool c f).doubleErrors = s.doubleErrors := rfl
@[simp] theorem modPool_net (s : State) (c : Coord) (f : Pool → Pool) : (s.modPool c f).net = s.net := rfl
@[simp] theorem modPool_cores (s : State) (c : Coord) (f : Pool → Pool) : (s.modPool c f).cores = s.cores := rfl
@[simp] theorem modPool_clusters (s : State) (c : Coord) (f : Pool → Pool) : (s.modPool c f).clusters = s.clusters := rfl
@[simp] theorem modPool_dies (s : State) (c : Coord) (f : Pool → Pool) : (s.modPool c f).dies = s.dies := rfl
@[simp] theorem modPool_jobs (s : State) (c : Coord) (f : Pool → Pool) : (s.modPool c f).jobs = s.jobs := rfl
@[simp] theorem modPool_counters (s : State) (c : Coord) (f : Pool → Pool) : (s.modPool c f).counters = s.counters := rfl
@[simp] theorem modPool_keys (s : State) (c : Coord) (f : Pool → Pool) : (s.modPool c f).keys = s.keys := rfl
@[simp] theorem modPool_pkg (s : State) (c : Coord) (f : Pool → Pool) : (s.modPool c f).pkg = s.pkg := rfl

@[simp] theorem askPool_agenda (s : State) (c : Coord) (q : PoolRequest) : (s.askPool c q).agenda = s.agenda := by
  unfold State.askPool; split <;> rfl
@[simp] theorem askPool_core (s : State) (c : Coord) (q : PoolRequest) : (s.askPool c q).core = s.core := by
  unfold State.askPool; split <;> rfl
@[simp] theorem askPool_slot (s : State) (c : Coord) (q : PoolRequest) : (s.askPool c q).slot = s.slot := by
  unfold State.askPool; split <;> rfl
@[simp] theorem askPool_free (s : State) (c : Coord) (q : PoolRequest) : (s.askPool c q).free = s.free := by
  unfold State.askPool; split <;> rfl
@[simp] theorem askPool_fetched (s : State) (c : Coord) (q : PoolRequest) : (s.askPool c q).fetched = s.fetched := by
  unfold State.askPool; split <;> rfl
@[simp] theorem askPool_ts (s : State) (c : Coord) (q : PoolRequest) : (s.askPool c q).ts = s.ts := by
  unfold State.askPool; split <;> rfl
@[simp] theorem askPool_mem (s : State) (c : Coord) (q : PoolRequest) : (s.askPool c q).mem = s.mem := by
  unfold State.askPool; split <;> rfl
@[simp] theorem askPool_tags (s : State) (c : Coord) (q : PoolRequest) : (s.askPool c q).tags = s.tags := by
  unfold State.askPool; split <;> rfl
@[simp] theorem askPool_poison (s : State) (c : Coord) (q : PoolRequest) : (s.askPool c q).poison = s.poison := by
  unfold State.askPool; split <;> rfl
@[simp] theorem askPool_doubleErrors (s : State) (c : Coord) (q : PoolRequest) : (s.askPool c q).doubleErrors = s.doubleErrors := by
  unfold State.askPool; split <;> rfl
@[simp] theorem askPool_net (s : State) (c : Coord) (q : PoolRequest) : (s.askPool c q).net = s.net := by
  unfold State.askPool; split <;> rfl
@[simp] theorem askPool_cores (s : State) (c : Coord) (q : PoolRequest) : (s.askPool c q).cores = s.cores := by
  unfold State.askPool; split <;> rfl
@[simp] theorem askPool_clusters (s : State) (c : Coord) (q : PoolRequest) : (s.askPool c q).clusters = s.clusters := by
  unfold State.askPool; split <;> rfl
@[simp] theorem askPool_dies (s : State) (c : Coord) (q : PoolRequest) : (s.askPool c q).dies = s.dies := by
  unfold State.askPool; split <;> rfl
@[simp] theorem askPool_jobs (s : State) (c : Coord) (q : PoolRequest) : (s.askPool c q).jobs = s.jobs := by
  unfold State.askPool; split <;> rfl
@[simp] theorem askPool_counters (s : State) (c : Coord) (q : PoolRequest) : (s.askPool c q).counters = s.counters := by
  unfold State.askPool; split <;> rfl
@[simp] theorem askPool_keys (s : State) (c : Coord) (q : PoolRequest) : (s.askPool c q).keys = s.keys := by
  unfold State.askPool; split <;> rfl
@[simp] theorem askPool_pkg (s : State) (c : Coord) (q : PoolRequest) : (s.askPool c q).pkg = s.pkg := by
  unfold State.askPool; split <;> rfl

@[simp] theorem poolReads_agenda (s : State) (a k n : Nat) : (s.poolReads a k n).agenda = s.agenda := by
  unfold State.poolReads; split <;> simp
@[simp] theorem poolReads_core (s : State) (a k n : Nat) : (s.poolReads a k n).core = s.core := by
  unfold State.poolReads; split <;> simp
@[simp] theorem poolReads_slot (s : State) (a k n : Nat) : (s.poolReads a k n).slot = s.slot := by
  unfold State.poolReads; split <;> simp
@[simp] theorem poolReads_free (s : State) (a k n : Nat) : (s.poolReads a k n).free = s.free := by
  unfold State.poolReads; split <;> simp
@[simp] theorem poolReads_fetched (s : State) (a k n : Nat) : (s.poolReads a k n).fetched = s.fetched := by
  unfold State.poolReads; split <;> simp
@[simp] theorem poolReads_ts (s : State) (a k n : Nat) : (s.poolReads a k n).ts = s.ts := by
  unfold State.poolReads; split <;> simp
@[simp] theorem poolReads_mem (s : State) (a k n : Nat) : (s.poolReads a k n).mem = s.mem := by
  unfold State.poolReads; split <;> simp
@[simp] theorem poolReads_tags (s : State) (a k n : Nat) : (s.poolReads a k n).tags = s.tags := by
  unfold State.poolReads; split <;> simp
@[simp] theorem poolReads_poison (s : State) (a k n : Nat) : (s.poolReads a k n).poison = s.poison := by
  unfold State.poolReads; split <;> simp
@[simp] theorem poolReads_doubleErrors (s : State) (a k n : Nat) : (s.poolReads a k n).doubleErrors = s.doubleErrors := by
  unfold State.poolReads; split <;> simp
@[simp] theorem poolReads_net (s : State) (a k n : Nat) : (s.poolReads a k n).net = s.net := by
  unfold State.poolReads; split <;> simp
@[simp] theorem poolReads_cores (s : State) (a k n : Nat) : (s.poolReads a k n).cores = s.cores := by
  unfold State.poolReads; split <;> simp
@[simp] theorem poolReads_clusters (s : State) (a k n : Nat) : (s.poolReads a k n).clusters = s.clusters := by
  unfold State.poolReads; split <;> simp
@[simp] theorem poolReads_dies (s : State) (a k n : Nat) : (s.poolReads a k n).dies = s.dies := by
  unfold State.poolReads; split <;> simp
@[simp] theorem poolReads_jobs (s : State) (a k n : Nat) : (s.poolReads a k n).jobs = s.jobs := by
  unfold State.poolReads; split <;> simp
@[simp] theorem poolReads_counters (s : State) (a k n : Nat) : (s.poolReads a k n).counters = s.counters := by
  unfold State.poolReads; split <;> simp
@[simp] theorem poolReads_keys (s : State) (a k n : Nat) : (s.poolReads a k n).keys = s.keys := by
  unfold State.poolReads; split <;> simp
@[simp] theorem poolReads_pkg (s : State) (a k n : Nat) : (s.poolReads a k n).pkg = s.pkg := by
  unfold State.poolReads; split <;> simp

@[simp] theorem poolWrites_agenda (s : State) (a k n : Nat) (on : Nat → Bool) : (s.poolWrites a k n on).agenda = s.agenda := by
  unfold State.poolWrites; split <;> simp
@[simp] theorem poolWrites_core (s : State) (a k n : Nat) (on : Nat → Bool) : (s.poolWrites a k n on).core = s.core := by
  unfold State.poolWrites; split <;> simp
@[simp] theorem poolWrites_slot (s : State) (a k n : Nat) (on : Nat → Bool) : (s.poolWrites a k n on).slot = s.slot := by
  unfold State.poolWrites; split <;> simp
@[simp] theorem poolWrites_free (s : State) (a k n : Nat) (on : Nat → Bool) : (s.poolWrites a k n on).free = s.free := by
  unfold State.poolWrites; split <;> simp
@[simp] theorem poolWrites_fetched (s : State) (a k n : Nat) (on : Nat → Bool) : (s.poolWrites a k n on).fetched = s.fetched := by
  unfold State.poolWrites; split <;> simp
@[simp] theorem poolWrites_ts (s : State) (a k n : Nat) (on : Nat → Bool) : (s.poolWrites a k n on).ts = s.ts := by
  unfold State.poolWrites; split <;> simp
@[simp] theorem poolWrites_mem (s : State) (a k n : Nat) (on : Nat → Bool) : (s.poolWrites a k n on).mem = s.mem := by
  unfold State.poolWrites; split <;> simp
@[simp] theorem poolWrites_tags (s : State) (a k n : Nat) (on : Nat → Bool) : (s.poolWrites a k n on).tags = s.tags := by
  unfold State.poolWrites; split <;> simp
@[simp] theorem poolWrites_poison (s : State) (a k n : Nat) (on : Nat → Bool) : (s.poolWrites a k n on).poison = s.poison := by
  unfold State.poolWrites; split <;> simp
@[simp] theorem poolWrites_doubleErrors (s : State) (a k n : Nat) (on : Nat → Bool) : (s.poolWrites a k n on).doubleErrors = s.doubleErrors := by
  unfold State.poolWrites; split <;> simp
@[simp] theorem poolWrites_net (s : State) (a k n : Nat) (on : Nat → Bool) : (s.poolWrites a k n on).net = s.net := by
  unfold State.poolWrites; split <;> simp
@[simp] theorem poolWrites_cores (s : State) (a k n : Nat) (on : Nat → Bool) : (s.poolWrites a k n on).cores = s.cores := by
  unfold State.poolWrites; split <;> simp
@[simp] theorem poolWrites_clusters (s : State) (a k n : Nat) (on : Nat → Bool) : (s.poolWrites a k n on).clusters = s.clusters := by
  unfold State.poolWrites; split <;> simp
@[simp] theorem poolWrites_dies (s : State) (a k n : Nat) (on : Nat → Bool) : (s.poolWrites a k n on).dies = s.dies := by
  unfold State.poolWrites; split <;> simp
@[simp] theorem poolWrites_jobs (s : State) (a k n : Nat) (on : Nat → Bool) : (s.poolWrites a k n on).jobs = s.jobs := by
  unfold State.poolWrites; split <;> simp
@[simp] theorem poolWrites_counters (s : State) (a k n : Nat) (on : Nat → Bool) : (s.poolWrites a k n on).counters = s.counters := by
  unfold State.poolWrites; split <;> simp
@[simp] theorem poolWrites_keys (s : State) (a k n : Nat) (on : Nat → Bool) : (s.poolWrites a k n on).keys = s.keys := by
  unfold State.poolWrites; split <;> simp
@[simp] theorem poolWrites_pkg (s : State) (a k n : Nat) (on : Nat → Bool) : (s.poolWrites a k n on).pkg = s.pkg := by
  unfold State.poolWrites; split <;> simp

@[simp] theorem writeBytes_agenda (s : State) (k : Nat) (l : List Byte) : (s.writeBytes k l).agenda = s.agenda := rfl
@[simp] theorem writeBytes_core (s : State) (k : Nat) (l : List Byte) : (s.writeBytes k l).core = s.core := rfl
@[simp] theorem writeBytes_slot (s : State) (k : Nat) (l : List Byte) : (s.writeBytes k l).slot = s.slot := rfl
@[simp] theorem writeBytes_free (s : State) (k : Nat) (l : List Byte) : (s.writeBytes k l).free = s.free := rfl
@[simp] theorem writeBytes_fetched (s : State) (k : Nat) (l : List Byte) : (s.writeBytes k l).fetched = s.fetched := rfl
@[simp] theorem writeBytes_ts (s : State) (k : Nat) (l : List Byte) : (s.writeBytes k l).ts = s.ts := rfl
@[simp] theorem writeBytes_net (s : State) (k : Nat) (l : List Byte) : (s.writeBytes k l).net = s.net := rfl
@[simp] theorem writeBytes_cores (s : State) (k : Nat) (l : List Byte) : (s.writeBytes k l).cores = s.cores := rfl
@[simp] theorem writeBytes_clusters (s : State) (k : Nat) (l : List Byte) : (s.writeBytes k l).clusters = s.clusters := rfl
@[simp] theorem writeBytes_dies (s : State) (k : Nat) (l : List Byte) : (s.writeBytes k l).dies = s.dies := rfl
@[simp] theorem writeBytes_jobs (s : State) (k : Nat) (l : List Byte) : (s.writeBytes k l).jobs = s.jobs := rfl
@[simp] theorem writeBytes_counters (s : State) (k : Nat) (l : List Byte) : (s.writeBytes k l).counters = s.counters := rfl
@[simp] theorem writeBytes_keys (s : State) (k : Nat) (l : List Byte) : (s.writeBytes k l).keys = s.keys := rfl
@[simp] theorem writeBytes_pools (s : State) (k : Nat) (l : List Byte) : (s.writeBytes k l).pools = s.pools := rfl
@[simp] theorem writeBytes_pkg (s : State) (k : Nat) (l : List Byte) : (s.writeBytes k l).pkg = s.pkg := rfl

@[simp] theorem writeMasked_agenda (s : State) (k : Nat) (d m : List Byte) : (s.writeMasked k d m).agenda = s.agenda := rfl
@[simp] theorem writeMasked_core (s : State) (k : Nat) (d m : List Byte) : (s.writeMasked k d m).core = s.core := rfl
@[simp] theorem writeMasked_slot (s : State) (k : Nat) (d m : List Byte) : (s.writeMasked k d m).slot = s.slot := rfl
@[simp] theorem writeMasked_free (s : State) (k : Nat) (d m : List Byte) : (s.writeMasked k d m).free = s.free := rfl
@[simp] theorem writeMasked_fetched (s : State) (k : Nat) (d m : List Byte) : (s.writeMasked k d m).fetched = s.fetched := rfl
@[simp] theorem writeMasked_ts (s : State) (k : Nat) (d m : List Byte) : (s.writeMasked k d m).ts = s.ts := rfl
@[simp] theorem writeMasked_net (s : State) (k : Nat) (d m : List Byte) : (s.writeMasked k d m).net = s.net := rfl
@[simp] theorem writeMasked_cores (s : State) (k : Nat) (d m : List Byte) : (s.writeMasked k d m).cores = s.cores := rfl
@[simp] theorem writeMasked_clusters (s : State) (k : Nat) (d m : List Byte) : (s.writeMasked k d m).clusters = s.clusters := rfl
@[simp] theorem writeMasked_dies (s : State) (k : Nat) (d m : List Byte) : (s.writeMasked k d m).dies = s.dies := rfl
@[simp] theorem writeMasked_jobs (s : State) (k : Nat) (d m : List Byte) : (s.writeMasked k d m).jobs = s.jobs := rfl
@[simp] theorem writeMasked_counters (s : State) (k : Nat) (d m : List Byte) : (s.writeMasked k d m).counters = s.counters := rfl
@[simp] theorem writeMasked_keys (s : State) (k : Nat) (d m : List Byte) : (s.writeMasked k d m).keys = s.keys := rfl
@[simp] theorem writeMasked_pools (s : State) (k : Nat) (d m : List Byte) : (s.writeMasked k d m).pools = s.pools := rfl
@[simp] theorem writeMasked_pkg (s : State) (k : Nat) (d m : List Byte) : (s.writeMasked k d m).pkg = s.pkg := rfl

@[simp] theorem clear_agenda (s : State) (k n : Nat) : (s.clear k n).agenda = s.agenda := rfl
@[simp] theorem clear_core (s : State) (k n : Nat) : (s.clear k n).core = s.core := rfl
@[simp] theorem clear_slot (s : State) (k n : Nat) : (s.clear k n).slot = s.slot := rfl
@[simp] theorem clear_free (s : State) (k n : Nat) : (s.clear k n).free = s.free := rfl
@[simp] theorem clear_fetched (s : State) (k n : Nat) : (s.clear k n).fetched = s.fetched := rfl
@[simp] theorem clear_ts (s : State) (k n : Nat) : (s.clear k n).ts = s.ts := rfl
@[simp] theorem clear_net (s : State) (k n : Nat) : (s.clear k n).net = s.net := rfl
@[simp] theorem clear_cores (s : State) (k n : Nat) : (s.clear k n).cores = s.cores := rfl
@[simp] theorem clear_clusters (s : State) (k n : Nat) : (s.clear k n).clusters = s.clusters := rfl
@[simp] theorem clear_dies (s : State) (k n : Nat) : (s.clear k n).dies = s.dies := rfl
@[simp] theorem clear_jobs (s : State) (k n : Nat) : (s.clear k n).jobs = s.jobs := rfl
@[simp] theorem clear_counters (s : State) (k n : Nat) : (s.clear k n).counters = s.counters := rfl
@[simp] theorem clear_keys (s : State) (k n : Nat) : (s.clear k n).keys = s.keys := rfl
@[simp] theorem clear_pools (s : State) (k n : Nat) : (s.clear k n).pools = s.pools := rfl
@[simp] theorem clear_pkg (s : State) (k n : Nat) : (s.clear k n).pkg = s.pkg := rfl

@[simp] theorem post_agenda (s : State) (f : Flight) : (s.post f).agenda = s.agenda := rfl
@[simp] theorem post_core (s : State) (f : Flight) : (s.post f).core = s.core := rfl
@[simp] theorem post_slot (s : State) (f : Flight) : (s.post f).slot = s.slot := rfl
@[simp] theorem post_free (s : State) (f : Flight) : (s.post f).free = s.free := rfl
@[simp] theorem post_fetched (s : State) (f : Flight) : (s.post f).fetched = s.fetched := rfl
@[simp] theorem post_ts (s : State) (f : Flight) : (s.post f).ts = s.ts := rfl
@[simp] theorem post_mem (s : State) (f : Flight) : (s.post f).mem = s.mem := rfl
@[simp] theorem post_tags (s : State) (f : Flight) : (s.post f).tags = s.tags := rfl
@[simp] theorem post_poison (s : State) (f : Flight) : (s.post f).poison = s.poison := rfl
@[simp] theorem post_doubleErrors (s : State) (f : Flight) : (s.post f).doubleErrors = s.doubleErrors := rfl
@[simp] theorem post_cores (s : State) (f : Flight) : (s.post f).cores = s.cores := rfl
@[simp] theorem post_clusters (s : State) (f : Flight) : (s.post f).clusters = s.clusters := rfl
@[simp] theorem post_dies (s : State) (f : Flight) : (s.post f).dies = s.dies := rfl
@[simp] theorem post_jobs (s : State) (f : Flight) : (s.post f).jobs = s.jobs := rfl
@[simp] theorem post_counters (s : State) (f : Flight) : (s.post f).counters = s.counters := rfl
@[simp] theorem post_keys (s : State) (f : Flight) : (s.post f).keys = s.keys := rfl
@[simp] theorem post_pools (s : State) (f : Flight) : (s.post f).pools = s.pools := rfl
@[simp] theorem post_pkg (s : State) (f : Flight) : (s.post f).pkg = s.pkg := rfl

@[simp] theorem report_agenda (s : State) (c : Coord) (e : Entry) : (s.report c e).agenda = s.agenda := rfl
@[simp] theorem report_core (s : State) (c : Coord) (e : Entry) : (s.report c e).core = s.core := rfl
@[simp] theorem report_slot (s : State) (c : Coord) (e : Entry) : (s.report c e).slot = s.slot := rfl
@[simp] theorem report_free (s : State) (c : Coord) (e : Entry) : (s.report c e).free = s.free := rfl
@[simp] theorem report_fetched (s : State) (c : Coord) (e : Entry) : (s.report c e).fetched = s.fetched := rfl
@[simp] theorem report_ts (s : State) (c : Coord) (e : Entry) : (s.report c e).ts = s.ts := rfl
@[simp] theorem report_mem (s : State) (c : Coord) (e : Entry) : (s.report c e).mem = s.mem := rfl
@[simp] theorem report_tags (s : State) (c : Coord) (e : Entry) : (s.report c e).tags = s.tags := rfl
@[simp] theorem report_poison (s : State) (c : Coord) (e : Entry) : (s.report c e).poison = s.poison := rfl
@[simp] theorem report_doubleErrors (s : State) (c : Coord) (e : Entry) : (s.report c e).doubleErrors = s.doubleErrors := rfl
@[simp] theorem report_cores (s : State) (c : Coord) (e : Entry) : (s.report c e).cores = s.cores := rfl
@[simp] theorem report_clusters (s : State) (c : Coord) (e : Entry) : (s.report c e).clusters = s.clusters := rfl
@[simp] theorem report_dies (s : State) (c : Coord) (e : Entry) : (s.report c e).dies = s.dies := rfl
@[simp] theorem report_jobs (s : State) (c : Coord) (e : Entry) : (s.report c e).jobs = s.jobs := rfl
@[simp] theorem report_counters (s : State) (c : Coord) (e : Entry) : (s.report c e).counters = s.counters := rfl
@[simp] theorem report_keys (s : State) (c : Coord) (e : Entry) : (s.report c e).keys = s.keys := rfl
@[simp] theorem report_pools (s : State) (c : Coord) (e : Entry) : (s.report c e).pools = s.pools := rfl
@[simp] theorem report_pkg (s : State) (c : Coord) (e : Entry) : (s.report c e).pkg = s.pkg := rfl

@[simp] theorem awaiting_agenda (s : State) (st : SlotState) (w : Await) : (s.awaiting st w).agenda = s.agenda := rfl
@[simp] theorem awaiting_core (s : State) (st : SlotState) (w : Await) : (s.awaiting st w).core = s.core := rfl
@[simp] theorem awaiting_slot (s : State) (st : SlotState) (w : Await) : (s.awaiting st w).slot = s.slot := rfl
@[simp] theorem awaiting_free (s : State) (st : SlotState) (w : Await) : (s.awaiting st w).free = s.free := rfl
@[simp] theorem awaiting_fetched (s : State) (st : SlotState) (w : Await) : (s.awaiting st w).fetched = s.fetched := rfl
@[simp] theorem awaiting_ts (s : State) (st : SlotState) (w : Await) : (s.awaiting st w).ts = s.ts := rfl
@[simp] theorem awaiting_mem (s : State) (st : SlotState) (w : Await) : (s.awaiting st w).mem = s.mem := rfl
@[simp] theorem awaiting_tags (s : State) (st : SlotState) (w : Await) : (s.awaiting st w).tags = s.tags := rfl
@[simp] theorem awaiting_poison (s : State) (st : SlotState) (w : Await) : (s.awaiting st w).poison = s.poison := rfl
@[simp] theorem awaiting_doubleErrors (s : State) (st : SlotState) (w : Await) : (s.awaiting st w).doubleErrors = s.doubleErrors := rfl
@[simp] theorem awaiting_net (s : State) (st : SlotState) (w : Await) : (s.awaiting st w).net = s.net := rfl
@[simp] theorem awaiting_clusters (s : State) (st : SlotState) (w : Await) : (s.awaiting st w).clusters = s.clusters := rfl
@[simp] theorem awaiting_dies (s : State) (st : SlotState) (w : Await) : (s.awaiting st w).dies = s.dies := rfl
@[simp] theorem awaiting_jobs (s : State) (st : SlotState) (w : Await) : (s.awaiting st w).jobs = s.jobs := rfl
@[simp] theorem awaiting_counters (s : State) (st : SlotState) (w : Await) : (s.awaiting st w).counters = s.counters := rfl
@[simp] theorem awaiting_keys (s : State) (st : SlotState) (w : Await) : (s.awaiting st w).keys = s.keys := rfl
@[simp] theorem awaiting_pools (s : State) (st : SlotState) (w : Await) : (s.awaiting st w).pools = s.pools := rfl
@[simp] theorem awaiting_pkg (s : State) (st : SlotState) (w : Await) : (s.awaiting st w).pkg = s.pkg := rfl

@[simp] theorem retire_agenda (s : State) (len : Nat) (u : Uses) (p : Option Producer) : (s.retire len u p).agenda = s.agenda := rfl
@[simp] theorem retire_core (s : State) (len : Nat) (u : Uses) (p : Option Producer) : (s.retire len u p).core = s.core := rfl
@[simp] theorem retire_slot (s : State) (len : Nat) (u : Uses) (p : Option Producer) : (s.retire len u p).slot = s.slot := rfl
@[simp] theorem retire_free (s : State) (len : Nat) (u : Uses) (p : Option Producer) : (s.retire len u p).free = s.free := rfl
@[simp] theorem retire_fetched (s : State) (len : Nat) (u : Uses) (p : Option Producer) : (s.retire len u p).fetched = s.fetched := rfl
@[simp] theorem retire_ts (s : State) (len : Nat) (u : Uses) (p : Option Producer) : (s.retire len u p).ts = s.ts := rfl
@[simp] theorem retire_mem (s : State) (len : Nat) (u : Uses) (p : Option Producer) : (s.retire len u p).mem = s.mem := rfl
@[simp] theorem retire_tags (s : State) (len : Nat) (u : Uses) (p : Option Producer) : (s.retire len u p).tags = s.tags := rfl
@[simp] theorem retire_poison (s : State) (len : Nat) (u : Uses) (p : Option Producer) : (s.retire len u p).poison = s.poison := rfl
@[simp] theorem retire_doubleErrors (s : State) (len : Nat) (u : Uses) (p : Option Producer) : (s.retire len u p).doubleErrors = s.doubleErrors := rfl
@[simp] theorem retire_net (s : State) (len : Nat) (u : Uses) (p : Option Producer) : (s.retire len u p).net = s.net := rfl
@[simp] theorem retire_clusters (s : State) (len : Nat) (u : Uses) (p : Option Producer) : (s.retire len u p).clusters = s.clusters := rfl
@[simp] theorem retire_dies (s : State) (len : Nat) (u : Uses) (p : Option Producer) : (s.retire len u p).dies = s.dies := rfl
@[simp] theorem retire_jobs (s : State) (len : Nat) (u : Uses) (p : Option Producer) : (s.retire len u p).jobs = s.jobs := rfl
@[simp] theorem retire_counters (s : State) (len : Nat) (u : Uses) (p : Option Producer) : (s.retire len u p).counters = s.counters := rfl
@[simp] theorem retire_keys (s : State) (len : Nat) (u : Uses) (p : Option Producer) : (s.retire len u p).keys = s.keys := rfl
@[simp] theorem retire_pools (s : State) (len : Nat) (u : Uses) (p : Option Producer) : (s.retire len u p).pools = s.pools := rfl
@[simp] theorem retire_pkg (s : State) (len : Nat) (u : Uses) (p : Option Producer) : (s.retire len u p).pkg = s.pkg := rfl

/-! ### Reading back -/

@[simp] theorem coreAt_setCore (s : State) (c : Coord) (x : Core) : (s.setCore c x).coreAt c = x := by
  simp [State.setCore, State.coreAt]

theorem coreAt_setCore_other (s : State) (c d : Coord) (x : Core) (h : d ≠ c) : (s.setCore c x).coreAt d = s.coreAt d := by
  have : d.toNat ≠ c.toNat := fun e => h (BitVec.eq_of_toNat_eq e)
  simp [State.setCore, State.coreAt, look_put_other _ _ _ _ _ this]

@[simp] theorem core_slotAt_setSlot (x : Core) (i : Nat) (y : Slot) : (x.setSlot i y).slotAt i = y := by
  simp [Core.setSlot, Core.slotAt]

theorem core_slotAt_setSlot_other (x : Core) (i j : Nat) (y : Slot) (h : j ≠ i) : (x.setSlot i y).slotAt j = x.slotAt j := by
  simp [Core.setSlot, Core.slotAt, look_put_other _ _ _ _ _ h]

@[simp] theorem slotAt_setSlot (s : State) (c : Coord) (i : Nat) (y : Slot) : (s.setSlot c i y).slotAt c i = y := by
  simp [State.setSlot, State.slotAt]

theorem slotAt_setSlot_other (s : State) (c : Coord) (i j : Nat) (y : Slot) (h : j ≠ i) :
    (s.setSlot c i y).slotAt c j = s.slotAt c j := by
  simp [State.setSlot, State.slotAt, core_slotAt_setSlot_other _ _ _ _ h]

theorem coreAt_setSlot_other (s : State) (c d : Coord) (i : Nat) (y : Slot) (h : d ≠ c) :
    (s.setSlot c i y).coreAt d = s.coreAt d := coreAt_setCore_other _ _ _ _ h

@[simp] theorem sl_modSl (s : State) (f : Slot → Slot) : (s.modSl f).sl = f s.sl := by
  simp [State.modSl, State.setSl, State.sl]

theorem slotAt_modSl_other (s : State) (f : Slot → Slot) (i : Nat) (h : i ≠ s.slot) :
    (s.modSl f).slotAt s.core i = s.slotAt s.core i := slotAt_setSlot_other _ _ _ _ _ h

theorem coreAt_modSl_other (s : State) (f : Slot → Slot) (c : Coord) (h : c ≠ s.core) :
    (s.modSl f).coreAt c = s.coreAt c := coreAt_setSlot_other _ _ _ _ _ h

/-- The issuing core, its slots apart, is not changed by a change of the slot. -/
theorem cr_modSl (s : State) (f : Slot → Slot) : (s.modSl f).cr = s.cr.setSlot s.slot (f s.sl) := by
  simp [State.modSl, State.setSl, State.setSlot, State.cr, State.sl, State.slotAt]

@[simp] theorem setSlot_slots_nil (x : Core) (i : Nat) (y : Slot) :
    { x.setSlot i y with slots := [] } = { x with slots := [] } := rfl

@[simp] theorem modSl_modSl (s : State) (f g : Slot → Slot) : ((s.modSl f).modSl g).sl = g (f s.sl) := by simp

@[simp] theorem g_setG (s : State) (r : GReg) (c : Cap) : (s.setG r c).g r = c := by
  simp [State.setG, State.g]

theorem g_setG_other (s : State) (r q : GReg) (c : Cap) (h : q ≠ r) : (s.setG r c).g q = s.g q := by
  have : q.toNat ≠ r.toNat := fun e => h (BitVec.eq_of_toNat_eq e)
  simp [State.setG, State.g, look_put_other _ _ _ _ _ this]

@[simp] theorem g_writeInt (s : State) (r : GReg) (w : Word) : (s.writeInt r w).g r = Cap.ofWord w := g_setG _ _ _

theorem g_writeInt_other (s : State) (r q : GReg) (w : Word) (h : q ≠ r) : (s.writeInt r w).g q = s.g q :=
  g_setG_other _ _ _ _ h

@[simp] theorem jobAt_setJob (s : State) (n : Nat) (x : Job) : (s.setJob n x).jobAt n = x := by
  simp [State.setJob, State.jobAt]

@[simp] theorem dieAt_setDie (s : State) (d : Nat) (x : Die) : (s.setDie d x).dieAt d = x := by
  simp [State.setDie, State.dieAt]

@[simp] theorem clusterAt_setCluster (s : State) (c : Coord) (x : Cluster) : (s.setCluster c x).clusterAt c = x := by
  simp [State.setCluster, State.clusterAt]

@[simp] theorem coreAt_modCore (s : State) (c : Coord) (f : Core → Core) : (s.modCore c f).coreAt c = f (s.coreAt c) := by
  simp [State.modCore]

/-! ### Frames -/

/-- A change of the issuing slot alone leaves everything around it. -/
theorem sameAround_modSl (s : State) (f : Slot → Slot) : SameAround s (s.modSl f) where
  bytes _ := rfl
  tags := rfl
  poison := rfl
  doubleErrors := rfl
  net := rfl
  clusters := rfl
  dies := rfl
  jobs := rfl
  counters := rfl
  pkg := rfl
  keys := rfl
  ts := rfl
  core := rfl
  slot := rfl
  otherCores c h := coreAt_modSl_other s f c h
  otherSlots i h := slotAt_modSl_other s f i h
  ownCore := by rw [cr_modSl, setSlot_slots_nil]

theorem SameAround.trans {a b c : State} (h : SameAround a b) (g : SameAround b c) : SameAround a c where
  bytes k := (g.bytes k).trans (h.bytes k)
  tags := g.tags.trans h.tags
  poison := g.poison.trans h.poison
  doubleErrors := g.doubleErrors.trans h.doubleErrors
  net := g.net.trans h.net
  clusters := g.clusters.trans h.clusters
  dies := g.dies.trans h.dies
  jobs := g.jobs.trans h.jobs
  counters := g.counters.trans h.counters
  pkg := g.pkg.trans h.pkg
  keys := g.keys.trans h.keys
  ts := g.ts.trans h.ts
  core := g.core.trans h.core
  slot := g.slot.trans h.slot
  otherCores d hd := (g.otherCores d (by rw [h.core]; exact hd)).trans (h.otherCores d hd)
  otherSlots i hi := by
    have := g.otherSlots i (by rw [h.slot]; exact hi)
    rw [h.core] at this
    exact this.trans (h.otherSlots i hi)
  ownCore := g.ownCore.trans h.ownCore

/-! ### Issue and retirement -/

/-- An instruction that passes the checks has the effect of its body. -/
theorem issueState_of_issues {s t : State} {u : Uses} (h : Issues s u t) (len : Nat) (pre : State → Option Nat)
    (body : State → Ret) (hp : pre t = none) : issueState s len u pre body = settle len u (body t) := by
  obtain ⟨l, k, hc, hl, rfl⟩ := h.lands
  have hs : (u.sysOnly && !s.sl.priv) = false := by
    cases hu : u.sysOnly
    · rfl
    · simp [h.privileged hu]
  simp [issueState, hs, h.formed, h.aligned, hc, hp, h.bounded, hl]

/-- Words that can all be read do not stop an instruction. -/
theorem reading_of_readable {t : State} {l : List (Nat × Nat)} (h : t.lostMember l = none) (r : Ret) : t.reading l r = r := by
  simp [State.reading, h]

theorem issue_of_issues {s t : State} {u : Uses} (h : Issues s u t) (len : Nat) (body : State → Ret) :
    issue s len u body = .next (settle len u (body t)) := by
  rw [issue, issueState_of_issues h len noPre body rfl]

theorem issuePre_of_issues {s t : State} {u : Uses} (h : Issues s u t) (len : Nat) (pre : State → Option Nat)
    (body : State → Ret) (hp : pre t = none) : issuePre s len u pre body = .next (settle len u (body t)) := by
  rw [issuePre, issueState_of_issues h len pre body hp]

/-- Retirement after a change of g register `d` alone. -/
theorem retired_setG (t : State) (d : GReg) (c : Cap) (len : Nat) (u : Uses) (p : Option Producer) :
    Retired len [d] t ((t.setG d c).retire len u p) ∧ ((t.setG d c).retire len u p).g d = c := by
  refine ⟨⟨(sameAround_modSl t _).trans (sameAround_modSl _ _), ?_, ?_, ?_, ?_⟩, ?_⟩
  · constructor <;> simp [State.retire, State.setG, retireSlot]
  · intro r hr
    have : r ≠ d := by simpa using hr
    have h := g_setG_other t d r c this
    simpa [State.retire, State.g, retireSlot] using h
  · simp [State.retire, retireSlot]
  · simp [State.retire, State.setG, retireSlot, word]
  · have h := g_setG t d c
    simpa [State.retire, State.g, retireSlot] using h

/-- Retirement after no change at all. -/
theorem retired_plain (t : State) (len : Nat) (u : Uses) (p : Option Producer) : Retired len [] t (t.retire len u p) := by
  refine ⟨sameAround_modSl t _, ?_, ?_, ?_, ?_⟩
  · constructor <;> simp [State.retire, retireSlot]
  · intro r _
    simp [State.retire, State.g, retireSlot]
  · simp [State.retire, retireSlot]
  · simp [State.retire, retireSlot, word]

end Sys2Proof.Machine
end

