-- ==== Sys2Proof/Laws/Memory.lean ====
section
/-! SUPPORT. Sys2Proof/Laws/Memory.lean: reading back what was written, and that every operation on the memory keeps its canonical form. -/

namespace Sys2Proof.Machine

set_option Elab.async false

/-! ### Reading back -/

theorem look_erase_same (m : List Host.Cell) (k : Nat) (u : Byte) : look u (Memory.erase m k) k = u := by
  induction m with
  | nil => rfl
  | cons c r ih =>
    by_cases h : c.1 = k
    · simpa [Memory.erase, h] using ih
    · simp [Memory.erase, h, look, ih]

theorem look_erase_other (m : List Host.Cell) (k j : Nat) (u : Byte) (hj : j ≠ k) :
    look u (Memory.erase m k) j = look u m j := by
  induction m with
  | nil => rfl
  | cons c r ih =>
    by_cases h : c.1 = k
    · have : ¬ c.1 = j := fun e => hj (e.symm.trans h)
      simp [Memory.erase, h, look, ih, Ne.symm hj]
    · by_cases h2 : c.1 = j
      · subst h2; simp [Memory.erase, h, look]
      · simp [Memory.erase, h, look, h2, ih]

theorem look_insert_same (m : List Host.Cell) (k : Nat) (b u : Byte) (h : ∀ c ∈ m, c.1 ≠ k) :
    look u (Memory.insert k b m) k = b := by
  induction m with
  | nil => simp [Memory.insert, look]
  | cons c r ih =>
    have hc : c.1 ≠ k := h c (List.mem_cons_self ..)
    by_cases hk : k < c.1
    · simp [Memory.insert, hk, look]
    · simp [Memory.insert, hk, look, hc, ih fun d hd => h d (List.mem_cons_of_mem _ hd)]

theorem look_insert_other (m : List Host.Cell) (k j : Nat) (b u : Byte) (hj : j ≠ k) :
    look u (Memory.insert k b m) j = look u m j := by
  induction m with
  | nil => simp [Memory.insert, look, Ne.symm hj]
  | cons c r ih =>
    by_cases hk : k < c.1
    · simp [Memory.insert, hk, look, Ne.symm hj]
    · by_cases h2 : c.1 = j
      · subst h2; simp [Memory.insert, hk, look]
      · simp [Memory.insert, hk, look, h2, ih]

theorem erase_no_key (m : List Host.Cell) (k : Nat) : ∀ c ∈ Memory.erase m k, c.1 ≠ k := by
  induction m with
  | nil => simp [Memory.erase]
  | cons c r ih =>
    by_cases h : c.1 = k
    · simpa [Memory.erase, h] using ih
    · simp only [Memory.erase, h, if_false, List.mem_cons]
      rintro d (rfl | hd)
      · exact h
      · exact ih d hd

@[simp] theorem read_write_same (m : List Host.Cell) (k : Nat) (b : Byte) : Memory.read (Memory.write m k b) k = b := by
  unfold Memory.read Memory.write
  split
  · rename_i h; rw [look_erase_same, h]
  · exact look_insert_same _ _ _ _ (erase_no_key m k)

theorem read_write_other (m : List Host.Cell) (k j : Nat) (b : Byte) (h : j ≠ k) :
    Memory.read (Memory.write m k b) j = Memory.read m j := by
  unfold Memory.read Memory.write
  split
  · exact look_erase_other _ _ _ _ h
  · rw [look_insert_other _ _ _ _ _ h, look_erase_other _ _ _ _ h]

theorem read_writeAll_other (l : List Byte) : ∀ (m : List Host.Cell) (k j : Nat), (j < k ∨ k + l.length ≤ j) →
    Memory.read (Memory.writeAll m k l) j = Memory.read m j := by
  induction l with
  | nil => intros; rfl
  | cons b r ih =>
    intro m k j h
    simp only [List.length_cons] at h
    simp only [Memory.writeAll]
    rw [ih _ _ _ (by omega), read_write_other _ _ _ _ (by omega)]

theorem read_writeAll_in (l : List Byte) : ∀ (m : List Host.Cell) (k i : Nat) (h : i < l.length),
    Memory.read (Memory.writeAll m k l) (k + i) = l[i] := by
  induction l with
  | nil => intro _ _ _ h; simp at h
  | cons b r ih =>
    intro m k i h
    simp only [Memory.writeAll]
    cases i with
    | zero => rw [Nat.add_zero, read_writeAll_other _ _ _ _ (by omega)]; simp
    | succ i =>
      have := ih (Memory.write m k b) (k + 1) i (by simpa using h)
      rw [show k + (i + 1) = k + 1 + i by omega, this]
      rfl

/-! ### The canonical form -/

theorem wf_cons (c : Host.Cell) (r : List Host.Cell) :
    Memory.wf (c :: r) = true ↔ c.2 ≠ Config.unlistedByte ∧ (∀ d ∈ r.head?, c.1 < d.1) ∧ Memory.wf r = true := by
  cases r with
  | nil => simp [Memory.wf]
  | cons d r => simp [Memory.wf, and_assoc]

theorem wf_all_above (m : List Host.Cell) : ∀ c, Memory.wf (c :: m) = true → ∀ d ∈ m, c.1 < d.1 := by
  induction m with
  | nil => simp
  | cons e r ih =>
    intro c h d hd
    obtain ⟨_, h1, h2⟩ := (wf_cons _ _).1 h
    have he : c.1 < e.1 := h1 e rfl
    rcases List.mem_cons.1 hd with rfl | hd
    · exact he
    · exact Nat.lt_trans he (ih e h2 d hd)

theorem wf_of_parts (c : Host.Cell) (r : List Host.Cell) (h1 : c.2 ≠ Config.unlistedByte) (h2 : ∀ d ∈ r, c.1 < d.1)
    (h3 : Memory.wf r = true) : Memory.wf (c :: r) = true :=
  (wf_cons _ _).2 ⟨h1, fun d hd => h2 d (List.mem_of_mem_head? hd), h3⟩

theorem wf_filter (p : Host.Cell → Bool) (m : List Host.Cell) (h : Memory.wf m = true) : Memory.wf (m.filter p) = true := by
  induction m with
  | nil => rfl
  | cons c r ih =>
    have hr := ((wf_cons _ _).1 h).2.2
    by_cases hp : p c
    · rw [List.filter_cons_of_pos hp]
      exact wf_of_parts _ _ ((wf_cons _ _).1 h).1
        (fun d hd => wf_all_above r c h d ((List.mem_filter.1 hd).1)) (ih hr)
    · rw [List.filter_cons_of_neg hp]; exact ih hr

theorem erase_eq_filter (m : List Host.Cell) (k : Nat) : Memory.erase m k = m.filter fun c => c.1 != k := by
  induction m with
  | nil => rfl
  | cons c r ih => by_cases h : c.1 = k <;> simp [Memory.erase, h, ih]

theorem wf_erase (m : List Host.Cell) (k : Nat) (h : Memory.wf m = true) : Memory.wf (Memory.erase m k) = true := by
  rw [erase_eq_filter]; exact wf_filter _ _ h

theorem mem_insert (m : List Host.Cell) (k : Nat) (b : Byte) : ∀ d ∈ Memory.insert k b m, d = (k, b) ∨ d ∈ m := by
  induction m with
  | nil => simp [Memory.insert]
  | cons c r ih =>
    intro d hd
    by_cases hk : k < c.1
    · simpa [Memory.insert, hk] using hd
    · simp only [Memory.insert, hk, if_false, List.mem_cons] at hd
      rcases hd with rfl | hd
      · exact .inr (List.mem_cons_self ..)
      · rcases ih d hd with h | h
        · exact .inl h
        · exact .inr (List.mem_cons_of_mem _ h)

theorem wf_insert (m : List Host.Cell) (k : Nat) (b : Byte) (hb : b ≠ Config.unlistedByte) (hk : ∀ c ∈ m, c.1 ≠ k)
    (h : Memory.wf m = true) : Memory.wf (Memory.insert k b m) = true := by
  induction m with
  | nil => simp [Memory.insert, Memory.wf, hb]
  | cons c r ih =>
    have hc := (wf_cons _ _).1 h
    by_cases hlt : k < c.1
    · simp only [Memory.insert, hlt, if_true]
      refine wf_of_parts _ _ hb (fun d hd => ?_) h
      rcases List.mem_cons.1 hd with rfl | hd
      · exact hlt
      · exact Nat.lt_trans hlt (wf_all_above r c h d hd)
    · have hck : c.1 < k := by
        have := hk c (List.mem_cons_self ..)
        omega
      simp only [Memory.insert, hlt, if_false]
      refine wf_of_parts _ _ hc.1 (fun d hd => ?_) (ih (fun d hd => hk d (List.mem_cons_of_mem _ hd)) hc.2.2)
      rcases mem_insert r k b d hd with rfl | hd
      · exact hck
      · exact wf_all_above r c h d hd

theorem wf_write (m : List Host.Cell) (k : Nat) (b : Byte) (h : Memory.wf m = true) : Memory.wf (Memory.write m k b) = true := by
  unfold Memory.write
  split
  · exact wf_erase m k h
  · rename_i hb
    exact wf_insert _ _ _ hb (erase_no_key m k) (wf_erase m k h)

theorem wf_writeAll (l : List Byte) : ∀ (m : List Host.Cell) (k : Nat), Memory.wf m = true →
    Memory.wf (Memory.writeAll m k l) = true := by
  induction l with
  | nil => intro m k h; exact h
  | cons b r ih => intro m k h; exact ih _ _ (wf_write m k b h)

/-! ### The operations of the state -/

theorem canonical_reset : State.reset.memoryCanonical := rfl

theorem canonical_writeBytes {s : State} (h : s.memoryCanonical) (k : Nat) (l : List Byte) :
    (s.writeBytes k l).memoryCanonical := wf_writeAll _ s.mem k h

theorem canonical_writeNat {s : State} (h : s.memoryCanonical) (k n x : Nat) : (s.writeNat k n x).memoryCanonical :=
  canonical_writeBytes h _ _

theorem canonical_writeMasked {s : State} (h : s.memoryCanonical) (k : Nat) (d m : List Byte) :
    (s.writeMasked k d m).memoryCanonical := wf_writeAll _ s.mem k h

theorem canonical_writeCap {s : State} (h : s.memoryCanonical) (k : Nat) (c : Cap) : (s.writeCap k c).memoryCanonical := by
  unfold State.writeCap
  split <;> exact canonical_writeBytes h _ _

theorem canonical_clear {s : State} (h : s.memoryCanonical) (k n : Nat) : (s.clear k n).memoryCanonical := by
  show Memory.wf (s.clear k n).mem = true
  simp only [State.clear]
  split
  · exact wf_filter _ _ h
  · exact wf_writeAll _ s.mem k h

@[simp] theorem sealed_length (s : State) (k : Nat) (l : List Byte) : (s.sealed k l).length = l.length := by
  simp [State.sealed]

/-- A byte written is the byte read, and every other byte is as before. -/
theorem read_writeBytes (s : State) (k : Nat) (l : List Byte) (i : Nat) (h : i < l.length) :
    (s.writeBytes k l).byteAt (k + i) = l[i] := by
  show Memory.read (Memory.writeAll s.mem k (s.sealed k l)) (k + i) ^^^ s.pad (k + i) = l[i]
  rw [read_writeAll_in (s.sealed k l) s.mem k i (by simpa using h)]
  simp [State.sealed, BitVec.xor_assoc]

theorem read_writeBytes_other (s : State) (k : Nat) (l : List Byte) (j : Nat) (h : j < k ∨ k + l.length ≤ j) :
    (s.writeBytes k l).byteAt j = s.byteAt j := by
  show Memory.read (Memory.writeAll s.mem k (s.sealed k l)) j ^^^ s.pad j = Memory.read s.mem j ^^^ s.pad j
  rw [read_writeAll_other (s.sealed k l) s.mem k j (by simpa using h)]

end Sys2Proof.Machine
end

