-- ==== Sys2Proof/Laws/Ops.lean ====
section
/-! SUPPORT. Sys2Proof/Laws/Ops.lean: for the shared operations, once each: what a refused check of issue does, what a transfer of control and a trap leave, how an access served by its own core runs, and how a message is delivered. -/

namespace Sys2Proof.Machine

/-! ### The checks of issue (R220, R224) -/

/-- A system instruction at user privilege takes illegal instruction, and nothing else happens. -/
theorem issueState_unprivileged {s : State} {u : Uses} (h : u.sysOnly = true) (hp : s.sl.priv = false) (len : Nat)
    (pre : State → Option Nat) (body : State → Ret) :
    issueState s len u pre body = s.takeTrap 0x01 s.sl.pc.addr s.fetched := by
  simp [issueState, h, hp]

/-- A malformed field or a misaligned group takes illegal operand. -/
theorem issueState_malformed {s : State} {u : Uses} (hp : u.sysOnly = true → s.sl.priv = true)
    (h : u.bad = true ∨ misaligned u = true) (len : Nat) (pre : State → Option Nat) (body : State → Ret) :
    issueState s len u pre body = s.takeTrap 0x02 s.sl.pc.addr 0 := by
  have hs : (u.sysOnly && !s.sl.priv) = false := by
    cases hu : u.sysOnly
    · rfl
    · simp [hp hu]
  rcases h with h | h <;> simp [issueState, hs, h]

/-- What IssueCheck refuses takes illegal operand. -/
theorem issueState_hazard {s : State} {u : Uses} (hp : u.sysOnly = true → s.sl.priv = true) (hb : u.bad = false)
    (hm : misaligned u = false) (h : issueCheck u s.sl.haz = none) (len : Nat) (pre : State → Option Nat)
    (body : State → Ret) : issueState s len u pre body = s.takeTrap 0x02 s.sl.pc.addr 0 := by
  have hs : (u.sysOnly && !s.sl.priv) = false := by
    cases hu : u.sysOnly
    · rfl
    · simp [hp hu]
  simp [issueState, hs, hb, hm, h]

/-! ### Transfers of control -/

/-- A transfer of control to `c` after a change of no register. -/
theorem jumped_plain (t : State) (c : Cap) (len : Nat) (u : Uses) : Jumped c [] t (settle len u (.jump t c)) := by
  refine ⟨(retired_plain t len u none).around.trans (sameAround_modSl (t.retire len u none) fun y => { y with pc := c }), ?_, ?_, ?_, ?_⟩
  · constructor <;> simp [settle, State.retire, retireSlot]
  · intro r _
    simp [settle, State.retire, State.g, retireSlot]
  · simp [settle, State.retire, retireSlot]
  · simp [settle]

/-- A transfer of control to `c` that links in g register `d`. -/
theorem jumped_setG (t : State) (d : GReg) (x c : Cap) (len : Nat) (u : Uses) :
    Jumped c [d] t (settle len u (.jump (t.setG d x) c)) ∧ (settle len u (.jump (t.setG d x) c)).g d = x := by
  refine ⟨⟨(retired_setG t d x len u none).1.around.trans (sameAround_modSl ((t.setG d x).retire len u none) fun y => { y with pc := c }), ?_, ?_, ?_, ?_⟩, ?_⟩
  · constructor <;> simp [settle, State.retire, State.setG, retireSlot]
  · intro r hr
    have h := g_setG_other t d r x (by simpa using hr)
    simpa [settle, State.retire, State.g, retireSlot] using h
  · simp [settle, State.retire, retireSlot]
  · simp [settle]
  · have h := g_setG t d x
    simpa [settle, State.retire, State.g, retireSlot] using h

/-! ### Taking an exception (R418-R422) -/

/-- A trap that a level takes changes the issuing slot alone, and leaves in it what `enterTrap` says. -/
theorem takeTrap_taken {s : State} {cause : Nat} {sys : Bool} (h : trapLevel s.sl s.evec cause = some sys)
    (epc eaddr : Word) (asy : Bool) :
    SameAround s (s.takeTrap cause epc eaddr asy) ∧
      (s.takeTrap cause epc eaddr asy).sl = enterTrap s.sl s.job s.evec sys (word (cause + at_ 8 (b2n asy))) epc eaddr := by
  simp only [State.takeTrap, h]
  exact ⟨sameAround_modSl s _, sl_modSl s _⟩

/-- The fields of a slot that has entered a trap: the registers that save, the new mode, and the handler's address. -/
theorem enterTrap_fields (x : Slot) (j : Job) (evec : Word) (sys : Bool) (ecause epc eaddr : Word) :
    let y := enterTrap x j evec sys ecause epc eaddr
    y.sys = { x.sys with epc, ecause, eaddr } ∧ y.priv = sys ∧ y.st = .ready ∧ y.haz = [] ∧ y.g = x.g ∧ y.v = x.v ∧ y.k = x.k ∧
      y.b = x.b ∧ y.gen = x.gen ∧ y.mem = x.mem ∧
      y.pc = codeAt j (if sys then bits evec.toNat 63 32 else bits evec.toNat 31 0) ∧
      (if sys then y.inSystem = true ∧ y.inUser = x.inUser ∧ y.trapUser = x.trapUser
        else y.inUser = true ∧ y.inSystem = x.inSystem ∧ y.trapSystem = x.trapSystem) := by
  cases sys <;> simp [enterTrap]

/-- A trap leaves the memory as it was, whoever takes it. -/
@[simp] theorem takeTrap_mem (s : State) (cause : Nat) (epc eaddr : Word) (asy : Bool) :
    (s.takeTrap cause epc eaddr asy).mem = s.mem := by
  unfold State.takeTrap
  split
  · unfold State.unhandled
    split
    · simp only [State.endHandler, modCore_mem]
      repeat (first | rfl | split)
    · simp
  · simp

/-! ### An access that its own core serves (R47, R103) -/

/-- No wayfarer migrates here: the access goes on at once. -/
theorem wayAccess_here {s : State} {c : Cap} {need : Need} {x n : Nat} (h : s.migrationTarget c need x n = none) (len : Nat)
    (ask : Ask) (fin : Completion) :
    s.wayAccess len c need ask fin x n = s.access len c need ask fin (partsOf s.core x n 0) := by
  simp [State.wayAccess, h]

/-- The one piece of an access whose one part passes the checks. -/
def onePiece (p : Part) (r : Route) : Group := { route := r, core := p.core, x := p.x.toNat, n := p.n, runs := [(0, p.off, p.n)] }

theorem piecesOf_one (ask : Ask) (p : Part) (r : Route) : piecesOf ask [(p, r)] = [onePiece p r] := by
  cases ask <;> rfl

/-- An access of one part that passes the checks at route `r`. -/
theorem access_one {s : State} {c : Cap} {need : Need} {p : Part} {r : Route}
    (h : checkPart s { core := p.core, priv := s.sl.priv, job := s.jobNo } c need p.x0 p.n0 p.x p.n = .ok r) (len : Nat)
    (ask : Ask) (fin : Completion) (st : SlotState) (w : Await) (conc : State → Pending → Ret) :
    s.access len c need ask fin [p] st w conc = s.perform len st w ask fin [onePiece p r] conc := by
  simp [State.access, checkParts, h, piecesOf_one]

/-- A piece that the core serves itself, and that is served at once, completes the instruction. -/
theorem perform_key {s t : State} {g : Group} {k : Nat} {ask : Ask} {a : Served} (hg : g.route = .key k)
    (hs : s.serveHere ask g { dst := s.core, src := s.core, op := 0x40, tag := (freeTag s.cr.msg).getD 0 } = (t, a))
    (hf : ask.mayDefer = false ∨ (freeTag s.cr.msg).isSome = true) (h1 : a ≠ .retry) (h2 : a ≠ .later) (len : Nat) (fin : Completion) (st : SlotState) (w : Await)
    (conc : State → Pending → Ret) :
    s.perform len st w ask fin [g] conc = conc t (({ pieces := [], len, fin } : Pending).take g.runs g.x a) := by
  have hr : g.remote = false := by simp [Group.remote, hg]
  have hi : s.overfull [] = none := by simp [State.overfull]
  have hs' : s.serveHere ask g { dst := s.core, src := s.core, op := 64, gen := 0#10, tag := (freeTag s.cr.msg).getD 0, ts := 0#64 } = (t, a) := hs
  have hd : (ask.mayDefer && (freeTag s.cr.msg).isNone) = false := by
    rcases hf with h | h
    · simp [h]
    · simp [Option.isNone_eq_false_iff, h]
  simp [State.perform, hr, hi, hs', h1, h2, hd]

/-- An access of one part that goes by message: it is sent when a tag is free and there is room, and its slot stands as
`st` says. -/
theorem perform_far {s : State} {g : Group} {dst : Coord} {a : Nat} {ask : Ask} (hg : g.route = .msg dst a)
    (hi : s.overfull [s.request ask g] = none) (len : Nat) (fin : Completion) (st : SlotState) (w : Await)
    (conc : State → Pending → Ret) :
    s.perform len st w ask fin [g] conc =
      (let t := s.modSl fun x => { x with
         st, await := w, pend := some { pieces := [], len, fin, todo := [({ tag := 0, addr := g.x, runs := g.runs, pa := g.route.place }, s.request ask g)] } }
       .stay (t.pumpSlot 1024 t.core t.slot)) := by
  have hr : g.remote = true := by simp [Group.remote, hg]
  simp [State.perform, hr, hi]

/-! ### Messages (R106, R109) -/

/-- A well-formed message is delivered when it is the first of its class and its receiver takes it. -/
theorem delivery_taken {s t : State} {op : Nat} {src dst : Coord} {f : Flight} {body : State → Flight → Option State}
    (h : s.arriving src dst op = some f) (hm : f.malformed = false) (hb : body (s.takeOut f) f = some t) :
    delivery op src dst body s = .next t := by
  simp [delivery, h, hm, hb]

/-- A malformed message is discarded, and refused where a reply is wanted (R101). -/
theorem delivery_malformed {s : State} {op : Nat} {src dst : Coord} {f : Flight} {body : State → Flight → Option State}
    (h : s.arriving src dst op = some f) (hm : f.malformed = true) :
    delivery op src dst body s = .next ((s.takeOut f).refuseMessage f) := by
  simp [delivery, h, hm]

/-- Where no message can be delivered nothing happens. -/
theorem delivery_none {s : State} {op : Nat} {src dst : Coord} {body : State → Flight → Option State}
    (h : s.arriving src dst op = none) : delivery op src dst body s = .next s := by
  simp [delivery, h]

/-- A message that its receiver does not take stays where it is. -/
theorem delivery_refused {s : State} {op : Nat} {src dst : Coord} {f : Flight} {body : State → Flight → Option State}
    (h : s.arriving src dst op = some f) (hm : f.malformed = false) (hb : body (s.takeOut f) f = none) :
    delivery op src dst body s = .next s := by
  simp [delivery, h, hm, hb]

/-- A message that is sent stands last among those on their way, in a send queue of its sender. -/
theorem post_net (s : State) (f : Flight) : (s.post f).net = s.net ++ [s.sent f] := rfl

/-- A message that a thread or a handler sends waits in the send queue of its own. -/
theorem sent_queued {s : State} {f : Flight} (h : f.via ≠ .mesh) : s.sent f = { f with ts := s.ts } := by
  simp [State.sent, h]

/-- A request changes nothing but the queues of the pools. -/
theorem askPool_only (s : State) (c : Coord) (q : PoolRequest) : ∃ p, s.askPool c q = { s with pools := p } := by
  unfold State.askPool; split
  · exact ⟨s.pools, rfl⟩
  · exact ⟨_, rfl⟩

theorem askPools_only (f : Nat → Coord) (q : Nat → PoolRequest) (l : List Nat) :
    ∀ s : State, ∃ p, l.foldl (fun t m => t.askPool (f m) (q m)) s = { s with pools := p } := by
  induction l with
  | nil => exact fun s => ⟨s.pools, rfl⟩
  | cons m r ih =>
    intro s
    obtain ⟨p, hp⟩ := askPool_only s (f m) (q m)
    obtain ⟨p', hp'⟩ := ih { s with pools := p }
    exact ⟨p', by simpa [hp] using hp'⟩

theorem fileReads_only (s : State) (l : List (Nat × Nat)) : ∃ p, s.fileReads l = { s with pools := p } := by
  simpa [State.fileReads] using askPools_only (fun m => gangMember s.core m) _ _ s

theorem fileWrites_only (s : State) (r : List Nat) (b p : List (Nat × Nat)) : ∃ q, s.fileWrites r b p = { s with pools := q } := by
  simpa [State.fileWrites] using askPools_only (fun m => gangMember s.core m) _ _ s

/-- A change of one core leaves the others as they were. -/
theorem coreAt_modCore_other (s : State) (c d : Coord) (f : Core → Core) (h : d ≠ c) : (s.modCore c f).coreAt d = s.coreAt d :=
  coreAt_setCore_other _ _ _ _ h

end Sys2Proof.Machine
end

