-- ==== Sys2Proof/Laws/PerInstr.lean ====
section
/-! SUPPORT. Sys2Proof/Laws/PerInstr.lean: the fields of an encoded word, and for every constructor that its word decodes to it and carries its length. -/

namespace Sys2Proof.Laws

set_option Elab.async false

open Sys2Proof.Machine

/-! ### Fields of the words -/

@[simp] theorem word32_mark (m : BitVec 2) (j : BitVec 6) (d a b : BitVec 5) (f : BitVec 7) :
    (word32 m j d a b f).extractLsb' 30 2 = 3#2 := by
  unfold word32
  repeat (first | rw [BitVec.extractLsb'_append_eq_of_le (by decide)] | rw [BitVec.extractLsb'_append_eq_of_add_le (by decide)])
  simp

@[simp] theorem word32_map (m : BitVec 2) (j : BitVec 6) (d a b : BitVec 5) (f : BitVec 7) :
    (word32 m j d a b f).extractLsb' 28 2 = m := by
  unfold word32
  repeat (first | rw [BitVec.extractLsb'_append_eq_of_le (by decide)] | rw [BitVec.extractLsb'_append_eq_of_add_le (by decide)])
  simp

@[simp] theorem word32_major (m : BitVec 2) (j : BitVec 6) (d a b : BitVec 5) (f : BitVec 7) :
    (word32 m j d a b f).extractLsb' 22 6 = j := by
  unfold word32
  repeat (first | rw [BitVec.extractLsb'_append_eq_of_le (by decide)] | rw [BitVec.extractLsb'_append_eq_of_add_le (by decide)])
  simp

@[simp] theorem word32_rd (m : BitVec 2) (j : BitVec 6) (d a b : BitVec 5) (f : BitVec 7) :
    (word32 m j d a b f).extractLsb' 17 5 = d := by
  unfold word32
  repeat (first | rw [BitVec.extractLsb'_append_eq_of_le (by decide)] | rw [BitVec.extractLsb'_append_eq_of_add_le (by decide)])
  simp

@[simp] theorem word32_ra (m : BitVec 2) (j : BitVec 6) (d a b : BitVec 5) (f : BitVec 7) :
    (word32 m j d a b f).extractLsb' 12 5 = a := by
  unfold word32
  repeat (first | rw [BitVec.extractLsb'_append_eq_of_le (by decide)] | rw [BitVec.extractLsb'_append_eq_of_add_le (by decide)])
  simp

@[simp] theorem word32_rb (m : BitVec 2) (j : BitVec 6) (d a b : BitVec 5) (f : BitVec 7) :
    (word32 m j d a b f).extractLsb' 7 5 = b := by
  unfold word32
  repeat (first | rw [BitVec.extractLsb'_append_eq_of_le (by decide)] | rw [BitVec.extractLsb'_append_eq_of_add_le (by decide)])
  simp

@[simp] theorem word32_fn (m : BitVec 2) (j : BitVec 6) (d a b : BitVec 5) (f : BitVec 7) :
    (word32 m j d a b f).extractLsb' 0 7 = f := by
  unfold word32
  repeat (first | rw [BitVec.extractLsb'_append_eq_of_le (by decide)] | rw [BitVec.extractLsb'_append_eq_of_add_le (by decide)])
  simp

@[simp] theorem wordCR_class (op : BitVec 4) (d a : BitVec 5) :
    (wordCR op d a).extractLsb' 14 2 = 0#2 := by
  unfold wordCR
  repeat (first | rw [BitVec.extractLsb'_append_eq_of_le (by decide)] | rw [BitVec.extractLsb'_append_eq_of_add_le (by decide)])
  simp

@[simp] theorem wordCR_op (op : BitVec 4) (d a : BitVec 5) :
    (wordCR op d a).extractLsb' 10 4 = op := by
  unfold wordCR
  repeat (first | rw [BitVec.extractLsb'_append_eq_of_le (by decide)] | rw [BitVec.extractLsb'_append_eq_of_add_le (by decide)])
  simp

@[simp] theorem wordCR_d (op : BitVec 4) (d a : BitVec 5) :
    (wordCR op d a).extractLsb' 5 5 = d := by
  unfold wordCR
  repeat (first | rw [BitVec.extractLsb'_append_eq_of_le (by decide)] | rw [BitVec.extractLsb'_append_eq_of_add_le (by decide)])
  simp

@[simp] theorem wordCR_a (op : BitVec 4) (d a : BitVec 5) :
    (wordCR op d a).extractLsb' 0 5 = a := by
  unfold wordCR
  repeat (first | rw [BitVec.extractLsb'_append_eq_of_le (by decide)] | rw [BitVec.extractLsb'_append_eq_of_add_le (by decide)])
  simp

@[simp] theorem wordCI_class (op : BitVec 3) (d : BitVec 5) (i : BitVec 6) :
    (wordCI op d i).extractLsb' 14 2 = 1#2 := by
  unfold wordCI
  repeat (first | rw [BitVec.extractLsb'_append_eq_of_le (by decide)] | rw [BitVec.extractLsb'_append_eq_of_add_le (by decide)])
  simp

@[simp] theorem wordCI_op (op : BitVec 3) (d : BitVec 5) (i : BitVec 6) :
    (wordCI op d i).extractLsb' 11 3 = op := by
  unfold wordCI
  repeat (first | rw [BitVec.extractLsb'_append_eq_of_le (by decide)] | rw [BitVec.extractLsb'_append_eq_of_add_le (by decide)])
  simp

@[simp] theorem wordCI_d (op : BitVec 3) (d : BitVec 5) (i : BitVec 6) :
    (wordCI op d i).extractLsb' 6 5 = d := by
  unfold wordCI
  repeat (first | rw [BitVec.extractLsb'_append_eq_of_le (by decide)] | rw [BitVec.extractLsb'_append_eq_of_add_le (by decide)])
  simp

@[simp] theorem wordCI_i (op : BitVec 3) (d : BitVec 5) (i : BitVec 6) :
    (wordCI op d i).extractLsb' 0 6 = i := by
  unfold wordCI
  repeat (first | rw [BitVec.extractLsb'_append_eq_of_le (by decide)] | rw [BitVec.extractLsb'_append_eq_of_add_le (by decide)])
  simp

@[simp] theorem wordCS_class (op : BitVec 4) (x : BitVec 10) :
    (wordCS op x).extractLsb' 14 2 = 2#2 := by
  unfold wordCS
  repeat (first | rw [BitVec.extractLsb'_append_eq_of_le (by decide)] | rw [BitVec.extractLsb'_append_eq_of_add_le (by decide)])
  simp

@[simp] theorem wordCS_op (op : BitVec 4) (x : BitVec 10) :
    (wordCS op x).extractLsb' 10 4 = op := by
  unfold wordCS
  repeat (first | rw [BitVec.extractLsb'_append_eq_of_le (by decide)] | rw [BitVec.extractLsb'_append_eq_of_add_le (by decide)])
  simp

@[simp] theorem wordCS_arg (op : BitVec 4) (x : BitVec 10) :
    (wordCS op x).extractLsb' 0 10 = x := by
  unfold wordCS
  repeat (first | rw [BitVec.extractLsb'_append_eq_of_le (by decide)] | rw [BitVec.extractLsb'_append_eq_of_add_le (by decide)])
  simp

@[simp] theorem wordSched_mark (op : BitVec 8) (f : SForm) :
    (wordSched op f).extractLsb' 76 4 = 15#4 := by
  unfold wordSched
  repeat (first | rw [BitVec.extractLsb'_append_eq_of_le (by decide)] | rw [BitVec.extractLsb'_append_eq_of_add_le (by decide)])
  simp

@[simp] theorem wordSched_op (op : BitVec 8) (f : SForm) :
    (wordSched op f).extractLsb' 68 8 = op := by
  unfold wordSched
  repeat (first | rw [BitVec.extractLsb'_append_eq_of_le (by decide)] | rw [BitVec.extractLsb'_append_eq_of_add_le (by decide)])
  simp

@[simp] theorem wordSched_t (op : BitVec 8) (f : SForm) :
    (wordSched op f).extractLsb' 64 4 = f.t := by
  unfold wordSched
  repeat (first | rw [BitVec.extractLsb'_append_eq_of_le (by decide)] | rw [BitVec.extractLsb'_append_eq_of_add_le (by decide)])
  simp

@[simp] theorem wordSched_vd (op : BitVec 8) (f : SForm) :
    (wordSched op f).extractLsb' 59 5 = f.vd := by
  unfold wordSched
  repeat (first | rw [BitVec.extractLsb'_append_eq_of_le (by decide)] | rw [BitVec.extractLsb'_append_eq_of_add_le (by decide)])
  simp

@[simp] theorem wordSched_va (op : BitVec 8) (f : SForm) :
    (wordSched op f).extractLsb' 54 5 = f.va := by
  unfold wordSched
  repeat (first | rw [BitVec.extractLsb'_append_eq_of_le (by decide)] | rw [BitVec.extractLsb'_append_eq_of_add_le (by decide)])
  simp

@[simp] theorem wordSched_vb (op : BitVec 8) (f : SForm) :
    (wordSched op f).extractLsb' 49 5 = f.vb := by
  unfold wordSched
  repeat (first | rw [BitVec.extractLsb'_append_eq_of_le (by decide)] | rw [BitVec.extractLsb'_append_eq_of_add_le (by decide)])
  simp

@[simp] theorem wordSched_vc (op : BitVec 8) (f : SForm) :
    (wordSched op f).extractLsb' 44 5 = f.vc := by
  unfold wordSched
  repeat (first | rw [BitVec.extractLsb'_append_eq_of_le (by decide)] | rw [BitVec.extractLsb'_append_eq_of_add_le (by decide)])
  simp

@[simp] theorem wordSched_pred (op : BitVec 8) (f : SForm) :
    (wordSched op f).extractLsb' 41 3 = f.pred := by
  unfold wordSched
  repeat (first | rw [BitVec.extractLsb'_append_eq_of_le (by decide)] | rw [BitVec.extractLsb'_append_eq_of_add_le (by decide)])
  simp

@[simp] theorem wordSched_la (op : BitVec 8) (f : SForm) :
    (wordSched op f).extractLsb' 37 4 = f.la := by
  unfold wordSched
  repeat (first | rw [BitVec.extractLsb'_append_eq_of_le (by decide)] | rw [BitVec.extractLsb'_append_eq_of_add_le (by decide)])
  simp

@[simp] theorem wordSched_pk (op : BitVec 8) (f : SForm) :
    (wordSched op f).extractLsb' 36 1 = f.pk := by
  unfold wordSched
  repeat (first | rw [BitVec.extractLsb'_append_eq_of_le (by decide)] | rw [BitVec.extractLsb'_append_eq_of_add_le (by decide)])
  simp

@[simp] theorem wordSched_fr (op : BitVec 8) (f : SForm) :
    (wordSched op f).extractLsb' 32 4 = f.fr := by
  unfold wordSched
  repeat (first | rw [BitVec.extractLsb'_append_eq_of_le (by decide)] | rw [BitVec.extractLsb'_append_eq_of_add_le (by decide)])
  simp

@[simp] theorem wordSched_keep (op : BitVec 8) (f : SForm) :
    (wordSched op f).extractLsb' 24 3 = f.keep := by
  unfold wordSched
  repeat (first | rw [BitVec.extractLsb'_append_eq_of_le (by decide)] | rw [BitVec.extractLsb'_append_eq_of_add_le (by decide)])
  simp

@[simp] theorem wordSched_md (op : BitVec 8) (f : SForm) :
    (wordSched op f).extractLsb' 20 4 = f.md := by
  unfold wordSched
  repeat (first | rw [BitVec.extractLsb'_append_eq_of_le (by decide)] | rw [BitVec.extractLsb'_append_eq_of_add_le (by decide)])
  simp

@[simp] theorem wordSched_ps (op : BitVec 8) (f : SForm) :
    (wordSched op f).extractLsb' 17 3 = f.ps := by
  unfold wordSched
  repeat (first | rw [BitVec.extractLsb'_append_eq_of_le (by decide)] | rw [BitVec.extractLsb'_append_eq_of_add_le (by decide)])
  simp

@[simp] theorem wordSched_fs (op : BitVec 8) (f : SForm) :
    (wordSched op f).extractLsb' 0 17 = f.fs := by
  unfold wordSched
  repeat (first | rw [BitVec.extractLsb'_append_eq_of_le (by decide)] | rw [BitVec.extractLsb'_append_eq_of_add_le (by decide)])
  simp

@[simp] theorem wordEngine_mark (op : BitVec 8) (f : EForm) :
    (wordEngine op f).extractLsb' 76 4 = 15#4 := by
  unfold wordEngine
  repeat (first | rw [BitVec.extractLsb'_append_eq_of_le (by decide)] | rw [BitVec.extractLsb'_append_eq_of_add_le (by decide)])
  simp

@[simp] theorem wordEngine_op (op : BitVec 8) (f : EForm) :
    (wordEngine op f).extractLsb' 68 8 = op := by
  unfold wordEngine
  repeat (first | rw [BitVec.extractLsb'_append_eq_of_le (by decide)] | rw [BitVec.extractLsb'_append_eq_of_add_le (by decide)])
  simp

@[simp] theorem wordEngine_t (op : BitVec 8) (f : EForm) :
    (wordEngine op f).extractLsb' 64 4 = f.t := by
  unfold wordEngine
  repeat (first | rw [BitVec.extractLsb'_append_eq_of_le (by decide)] | rw [BitVec.extractLsb'_append_eq_of_add_le (by decide)])
  simp

@[simp] theorem wordEngine_gj (op : BitVec 8) (f : EForm) :
    (wordEngine op f).extractLsb' 59 5 = f.gj := by
  unfold wordEngine
  repeat (first | rw [BitVec.extractLsb'_append_eq_of_le (by decide)] | rw [BitVec.extractLsb'_append_eq_of_add_le (by decide)])
  simp

@[simp] theorem wordEngine_ga (op : BitVec 8) (f : EForm) :
    (wordEngine op f).extractLsb' 54 5 = f.ga := by
  unfold wordEngine
  repeat (first | rw [BitVec.extractLsb'_append_eq_of_le (by decide)] | rw [BitVec.extractLsb'_append_eq_of_add_le (by decide)])
  simp

@[simp] theorem wordEngine_gb (op : BitVec 8) (f : EForm) :
    (wordEngine op f).extractLsb' 49 5 = f.gb := by
  unfold wordEngine
  repeat (first | rw [BitVec.extractLsb'_append_eq_of_le (by decide)] | rw [BitVec.extractLsb'_append_eq_of_add_le (by decide)])
  simp

@[simp] theorem wordEngine_gc (op : BitVec 8) (f : EForm) :
    (wordEngine op f).extractLsb' 44 5 = f.gc := by
  unfold wordEngine
  repeat (first | rw [BitVec.extractLsb'_append_eq_of_le (by decide)] | rw [BitVec.extractLsb'_append_eq_of_add_le (by decide)])
  simp

@[simp] theorem wordEngine_sg (op : BitVec 8) (f : EForm) :
    (wordEngine op f).extractLsb' 41 3 = f.sg := by
  unfold wordEngine
  repeat (first | rw [BitVec.extractLsb'_append_eq_of_le (by decide)] | rw [BitVec.extractLsb'_append_eq_of_add_le (by decide)])
  simp

@[simp] theorem wordEngine_la (op : BitVec 8) (f : EForm) :
    (wordEngine op f).extractLsb' 37 4 = f.la := by
  unfold wordEngine
  repeat (first | rw [BitVec.extractLsb'_append_eq_of_le (by decide)] | rw [BitVec.extractLsb'_append_eq_of_add_le (by decide)])
  simp

@[simp] theorem wordEngine_gd (op : BitVec 8) (f : EForm) :
    (wordEngine op f).extractLsb' 32 5 = f.gd := by
  unfold wordEngine
  repeat (first | rw [BitVec.extractLsb'_append_eq_of_le (by decide)] | rw [BitVec.extractLsb'_append_eq_of_add_le (by decide)])
  simp

@[simp] theorem wordEngine_es (op : BitVec 8) (f : EForm) :
    (wordEngine op f).extractLsb' 0 32 = f.es := by
  unfold wordEngine
  repeat (first | rw [BitVec.extractLsb'_append_eq_of_le (by decide)] | rw [BitVec.extractLsb'_append_eq_of_add_le (by decide)])
  simp

@[simp] theorem wordSched_reserved (op : BitVec 8) (f : SForm) :
    (wordSched op f).extractLsb' 27 5 = 0#5 := by
  unfold wordSched
  repeat (first | rw [BitVec.extractLsb'_append_eq_of_le (by decide)] | rw [BitVec.extractLsb'_append_eq_of_add_le (by decide)])
  simp

@[simp] theorem pack43_hi (x : BitVec 4) (y : BitVec 3) :
    (pack43 x y).extractLsb' 3 4 = x := by
  unfold pack43
  repeat (first | rw [BitVec.extractLsb'_append_eq_of_le (by decide)] | rw [BitVec.extractLsb'_append_eq_of_add_le (by decide)])
  simp

@[simp] theorem pack43_lo (x : BitVec 4) (y : BitVec 3) :
    (pack43 x y).extractLsb' 0 3 = y := by
  unfold pack43
  repeat (first | rw [BitVec.extractLsb'_append_eq_of_le (by decide)] | rw [BitVec.extractLsb'_append_eq_of_add_le (by decide)])
  simp

@[simp] theorem pack52_hi (x : BitVec 5) (y : BitVec 2) :
    (pack52 x y).extractLsb' 2 5 = x := by
  unfold pack52
  repeat (first | rw [BitVec.extractLsb'_append_eq_of_le (by decide)] | rw [BitVec.extractLsb'_append_eq_of_add_le (by decide)])
  simp

@[simp] theorem pack52_lo (x : BitVec 5) (y : BitVec 2) :
    (pack52 x y).extractLsb' 0 2 = y := by
  unfold pack52
  repeat (first | rw [BitVec.extractLsb'_append_eq_of_le (by decide)] | rw [BitVec.extractLsb'_append_eq_of_add_le (by decide)])
  simp

@[simp] theorem pack61_hi (x : BitVec 6) (y : BitVec 1) :
    (pack61 x y).extractLsb' 1 6 = x := by
  unfold pack61
  repeat (first | rw [BitVec.extractLsb'_append_eq_of_le (by decide)] | rw [BitVec.extractLsb'_append_eq_of_add_le (by decide)])
  simp

@[simp] theorem pack61_lo (x : BitVec 6) (y : BitVec 1) :
    (pack61 x y).extractLsb' 0 1 = y := by
  unfold pack61
  repeat (first | rw [BitVec.extractLsb'_append_eq_of_le (by decide)] | rw [BitVec.extractLsb'_append_eq_of_add_le (by decide)])
  simp

@[simp] theorem pack25_hi (x : BitVec 2) (y : BitVec 5) :
    (pack25 x y).extractLsb' 5 2 = x := by
  unfold pack25
  repeat (first | rw [BitVec.extractLsb'_append_eq_of_le (by decide)] | rw [BitVec.extractLsb'_append_eq_of_add_le (by decide)])
  simp

@[simp] theorem pack25_lo (x : BitVec 2) (y : BitVec 5) :
    (pack25 x y).extractLsb' 0 5 = y := by
  unfold pack25
  repeat (first | rw [BitVec.extractLsb'_append_eq_of_le (by decide)] | rw [BitVec.extractLsb'_append_eq_of_add_le (by decide)])
  simp

@[simp] theorem pack16_hi (x : BitVec 1) (y : BitVec 6) :
    (pack16 x y).extractLsb' 6 1 = x := by
  unfold pack16
  repeat (first | rw [BitVec.extractLsb'_append_eq_of_le (by decide)] | rw [BitVec.extractLsb'_append_eq_of_add_le (by decide)])
  simp

@[simp] theorem pack16_lo (x : BitVec 1) (y : BitVec 6) :
    (pack16 x y).extractLsb' 0 6 = y := by
  unfold pack16
  repeat (first | rw [BitVec.extractLsb'_append_eq_of_le (by decide)] | rw [BitVec.extractLsb'_append_eq_of_add_le (by decide)])
  simp

@[simp] theorem pack214_hi (x : BitVec 2) (y : BitVec 1) (z : BitVec 4) :
    (pack214 x y z).extractLsb' 5 2 = x := by
  unfold pack214
  repeat (first | rw [BitVec.extractLsb'_append_eq_of_le (by decide)] | rw [BitVec.extractLsb'_append_eq_of_add_le (by decide)])
  simp

@[simp] theorem pack214_mid (x : BitVec 2) (y : BitVec 1) (z : BitVec 4) :
    (pack214 x y z).extractLsb' 4 1 = y := by
  unfold pack214
  repeat (first | rw [BitVec.extractLsb'_append_eq_of_le (by decide)] | rw [BitVec.extractLsb'_append_eq_of_add_le (by decide)])
  simp

@[simp] theorem pack214_lo (x : BitVec 2) (y : BitVec 1) (z : BitVec 4) :
    (pack214 x y z).extractLsb' 0 4 = z := by
  unfold pack214
  repeat (first | rw [BitVec.extractLsb'_append_eq_of_le (by decide)] | rw [BitVec.extractLsb'_append_eq_of_add_le (by decide)])
  simp

@[simp] theorem pack223_hi (x y : BitVec 2) (z : BitVec 3) :
    (pack223 x y z).extractLsb' 5 2 = x := by
  unfold pack223
  repeat (first | rw [BitVec.extractLsb'_append_eq_of_le (by decide)] | rw [BitVec.extractLsb'_append_eq_of_add_le (by decide)])
  simp

@[simp] theorem pack223_mid (x y : BitVec 2) (z : BitVec 3) :
    (pack223 x y z).extractLsb' 3 2 = y := by
  unfold pack223
  repeat (first | rw [BitVec.extractLsb'_append_eq_of_le (by decide)] | rw [BitVec.extractLsb'_append_eq_of_add_le (by decide)])
  simp

@[simp] theorem pack223_lo (x y : BitVec 2) (z : BitVec 3) :
    (pack223 x y z).extractLsb' 0 3 = z := by
  unfold pack223
  repeat (first | rw [BitVec.extractLsb'_append_eq_of_le (by decide)] | rw [BitVec.extractLsb'_append_eq_of_add_le (by decide)])
  simp

@[simp] theorem pack25_bit5 (x : BitVec 2) (y : BitVec 5) :
    (pack25 x y).extractLsb' 5 1 = x.extractLsb' 0 1 := by
  unfold pack25
  repeat (first | rw [BitVec.extractLsb'_append_eq_of_le (by decide)] | rw [BitVec.extractLsb'_append_eq_of_add_le (by decide)])

@[simp] theorem imm12_parts (i : BitVec 12) : imm12 (immHi i) (immLo i) = i := by
  apply BitVec.eq_of_toNat_eq
  simp only [imm12, immHi, immLo, BitVec.toNat_append, BitVec.extractLsb'_toNat, Nat.shiftLeft_eq]
  rw [← Nat.shiftLeft_eq, ← Nat.shiftLeft_add_eq_or_of_lt (Nat.mod_lt _ (by decide))]
  simp only [Nat.shiftLeft_eq, Nat.shiftRight_eq_div_pow]
  have := i.isLt
  omega

@[simp] theorem off17_parts (o : BitVec 17) : off17 (offHi o) (offMid o) (offLo o) = o := by
  apply BitVec.eq_of_toNat_eq
  simp only [off17, offHi, offMid, offLo, BitVec.toNat_append, BitVec.extractLsb'_toNat]
  rw [← Nat.shiftLeft_add_eq_or_of_lt (Nat.mod_lt _ (by decide)), ← Nat.shiftLeft_add_eq_or_of_lt (Nat.mod_lt _ (by decide))]
  simp only [Nat.shiftLeft_eq, Nat.shiftRight_eq_div_pow]
  have := o.isLt
  omega

@[simp] theorem sform_wordSched (op : BitVec 8) (f : SForm) : sform (wordSched op f) = f := by simp [sform]

@[simp] theorem eform_wordEngine (op : BitVec 8) (f : EForm) : eform (wordEngine op f) = f := by simp [eform]

@[simp] theorem liW_mark (d : BitVec 5) (imm : BitVec 64) :
    (15#4 ++ 0x7E#7 ++ d ++ imm).extractLsb' 76 4 = 15#4 := by
  repeat (first | rw [BitVec.extractLsb'_append_eq_of_le (by decide)] | rw [BitVec.extractLsb'_append_eq_of_add_le (by decide)])
  simp

@[simp] theorem liW_top (d : BitVec 5) (imm : BitVec 64) :
    (15#4 ++ 0x7E#7 ++ d ++ imm).extractLsb' 69 7 = 0x7E#7 := by
  repeat (first | rw [BitVec.extractLsb'_append_eq_of_le (by decide)] | rw [BitVec.extractLsb'_append_eq_of_add_le (by decide)])
  simp

@[simp] theorem liW_d (d : BitVec 5) (imm : BitVec 64) :
    (15#4 ++ 0x7E#7 ++ d ++ imm).extractLsb' 64 5 = d := by
  repeat (first | rw [BitVec.extractLsb'_append_eq_of_le (by decide)] | rw [BitVec.extractLsb'_append_eq_of_add_le (by decide)])
  simp

@[simp] theorem liW_imm (d : BitVec 5) (imm : BitVec 64) :
    (15#4 ++ 0x7E#7 ++ d ++ imm).extractLsb' 0 64 = imm := by
  repeat (first | rw [BitVec.extractLsb'_append_eq_of_le (by decide)] | rw [BitVec.extractLsb'_append_eq_of_add_le (by decide)])
  simp

@[simp] theorem safept_mark (gm vm : BitVec 32) :
    (15#4 ++ 0xFE0#12 ++ gm ++ vm).extractLsb' 76 4 = 15#4 := by
  repeat (first | rw [BitVec.extractLsb'_append_eq_of_le (by decide)] | rw [BitVec.extractLsb'_append_eq_of_add_le (by decide)])
  simp

@[simp] theorem safept_all (gm vm : BitVec 32) :
    (15#4 ++ 0xFE0#12 ++ gm ++ vm).extractLsb' 64 12 = 0xFE0#12 := by
  repeat (first | rw [BitVec.extractLsb'_append_eq_of_le (by decide)] | rw [BitVec.extractLsb'_append_eq_of_add_le (by decide)])
  simp

@[simp] theorem safept_gm (gm vm : BitVec 32) :
    (15#4 ++ 0xFE0#12 ++ gm ++ vm).extractLsb' 32 32 = gm := by
  repeat (first | rw [BitVec.extractLsb'_append_eq_of_le (by decide)] | rw [BitVec.extractLsb'_append_eq_of_add_le (by decide)])
  simp

@[simp] theorem safept_vm (gm vm : BitVec 32) :
    (15#4 ++ 0xFE0#12 ++ gm ++ vm).extractLsb' 0 32 = vm := by
  repeat (first | rw [BitVec.extractLsb'_append_eq_of_le (by decide)] | rw [BitVec.extractLsb'_append_eq_of_add_le (by decide)])
  simp

theorem liW_op (d : BitVec 5) (imm : BitVec 64) :
    192 ≤ ((15#4 ++ 0x7E#7 ++ d ++ imm).extractLsb' 68 8).toNat := by
  have h : (15#4 ++ 0x7E#7 ++ d ++ imm).extractLsb' 68 8 = 0x7E#7 ++ d.extractLsb' 4 1 := by
    rw [BitVec.extractLsb'_append_eq_of_le (by decide)]
    clear imm; revert d; decide
  rw [h]; clear h imm; revert d; decide

theorem safept_op (gm vm : BitVec 32) :
    ((15#4 ++ 0xFE0#12 ++ gm ++ vm).extractLsb' 68 8) = 0xFE#8 := by
  repeat (first | rw [BitVec.extractLsb'_append_eq_of_le (by decide)])
  decide

theorem safept_top (gm vm : BitVec 32) :
    ((15#4 ++ 0xFE0#12 ++ gm ++ vm).extractLsb' 69 7) = 0x7F#7 := by
  repeat (first | rw [BitVec.extractLsb'_append_eq_of_le (by decide)])
  decide

theorem wordCR_ne (op : BitVec 4) (d a : BitVec 5) (h : op ≠ 0#4) : ¬ wordCR op d a = 0#16 := by
  intro e
  have := congrArg (BitVec.extractLsb' 10 4) e
  rw [wordCR_op] at this
  exact h (by simpa using this)

@[simp] theorem wordCI_ne (op : BitVec 3) (d : BitVec 5) (i : BitVec 6) : ¬ wordCI op d i = 0#16 := by
  intro e
  have := congrArg (BitVec.extractLsb' 14 2) e
  rw [wordCI_class] at this
  exact absurd this (by decide)

@[simp] theorem wordCS_ne (op : BitVec 4) (x : BitVec 10) : ¬ wordCS op x = 0#16 := by
  intro e
  have := congrArg (BitVec.extractLsb' 14 2) e
  rw [wordCS_class] at this
  exact absurd this (by decide)

theorem formAgrees_of {i : Instr} (h : i.wellFormed = true) : i.formAgrees = true := by
  unfold Instr.wellFormed at h
  simp_all

theorem illForm_of {i : Instr} (h : i.wellFormed = true) : illForm i = none := by
  unfold Instr.wellFormed at h
  cases hx : illForm i <;> simp_all

theorem md_vbcast {f : SForm} (h : (Instr.vbcast f).wellFormed = true) : f.md = 0 := by
  have h := illForm_of h
  by_contra hm
  simp_all only [illForm, schedSpec, illSched]
  simp_all
  split at h <;> simp at h

theorem md_vbcastE {f : SForm} (h : (Instr.vbcastE f).wellFormed = true) : ¬ f.md = 0#4 := by
  have h := illForm_of h
  by_contra hm
  simp_all only [illForm, schedSpec, illSched]
  simp_all
  split at h <;> simp at h

theorem md_vmovgG {f : SForm} (h : (Instr.vmovgG f).wellFormed = true) : f.md = 0 := by
  have h := illForm_of h
  by_contra hm
  simp_all only [illForm, schedSpec, illSched]
  simp_all
  split at h <;> simp at h

theorem md_vmovgV {f : SForm} (h : (Instr.vmovgV f).wellFormed = true) : ¬ f.md = 0#4 := by
  have h := illForm_of h
  by_contra hm
  simp_all only [illForm, schedSpec, illSched]
  simp_all
  split at h <;> simp at h

/-! ### The family -/

/-- What the decoder answers to a word of a given length. -/
noncomputable def decodeEncoding : Encoding → Except Reject Instr
  | .w16 w => checked (decode16 w)
  | .w32 w => checked (decode32 w)
  | .w80 w => decode80 w

/-- The top bits of the first parcel give the length of the word (R211). -/
def lengthMarked : Encoding → Prop
  | .w16 w => (w.extractLsb' 14 2).toNat < 3
  | .w32 w => (w.extractLsb' 30 2).toNat = 3 ∧ (w.extractLsb' 28 2).toNat < 3
  | .w80 w => (w.extractLsb' 76 4).toNat = 15

theorem checked_ok {i : Instr} (h : i.wellFormed = true) : checked (.ok i) = .ok i := by
  have h' : illForm i = none := by
    unfold Instr.wellFormed at h
    cases hx : illForm i <;> simp_all
  simp [checked, h']

/-- Field conditions that no constructor fails. -/
theorem need_true (i : Instr) : need true i = .ok i := rfl

theorem decode80_sched (op : BitVec 8) (f : SForm) (h : op.toNat < 128) :
    decode80 (wordSched op f) = checked (decodeSched op.toNat f) := by
  simp [decode80, assemble80, h]

theorem decode80_engine (op : BitVec 8) (f : EForm) (h : 128 ≤ op.toNat) (h' : op.toNat < 192) :
    decode80 (wordEngine op f) = checked (decodeEngine op.toNat f) := by
  simp [decode80, assemble80, h', Nat.not_lt.mpr h]

namespace RoundTrip

/-- The word that the encoder gives a well-formed instruction decodes to it, and marks its own length. -/
def Statement (i : Instr) : Prop :=
  i.wellFormed = true → ∀ e, encode i = some e → decodeEncoding e = .ok i ∧ lengthMarked e

theorem add (d a b : GReg) (w : BitVec 3) : Statement (.add d a b w) := by
  intro h e he
  obtain rfl := Option.some.inj he
  refine ⟨?_, by simp [lengthMarked]⟩
  simpa [decodeEncoding, decode32, decodeMap0, decodeMap1, decodeMap2, need, hi4, hi5, hi6, hi2, hi1, mid1, mid2, bit5, lo1, lo2, lo3,
    lo4, lo5, lo6] using checked_ok h

theorem sub (d a b : GReg) (w : BitVec 3) : Statement (.sub d a b w) := by
  intro h e he
  obtain rfl := Option.some.inj he
  refine ⟨?_, by simp [lengthMarked]⟩
  simpa [decodeEncoding, decode32, decodeMap0, decodeMap1, decodeMap2, need, hi4, hi5, hi6, hi2, hi1, mid1, mid2, bit5, lo1, lo2, lo3,
    lo4, lo5, lo6] using checked_ok h

theorem mul (d a b : GReg) (w : BitVec 3) : Statement (.mul d a b w) := by
  intro h e he
  obtain rfl := Option.some.inj he
  refine ⟨?_, by simp [lengthMarked]⟩
  simpa [decodeEncoding, decode32, decodeMap0, decodeMap1, decodeMap2, need, hi4, hi5, hi6, hi2, hi1, mid1, mid2, bit5, lo1, lo2, lo3,
    lo4, lo5, lo6] using checked_ok h

theorem mulh (d a b : GReg) (w : BitVec 3) : Statement (.mulh d a b w) := by
  intro h e he
  obtain rfl := Option.some.inj he
  refine ⟨?_, by simp [lengthMarked]⟩
  simpa [decodeEncoding, decode32, decodeMap0, decodeMap1, decodeMap2, need, hi4, hi5, hi6, hi2, hi1, mid1, mid2, bit5, lo1, lo2, lo3,
    lo4, lo5, lo6] using checked_ok h

theorem mulhu (d a b : GReg) (w : BitVec 3) : Statement (.mulhu d a b w) := by
  intro h e he
  obtain rfl := Option.some.inj he
  refine ⟨?_, by simp [lengthMarked]⟩
  simpa [decodeEncoding, decode32, decodeMap0, decodeMap1, decodeMap2, need, hi4, hi5, hi6, hi2, hi1, mid1, mid2, bit5, lo1, lo2, lo3,
    lo4, lo5, lo6] using checked_ok h

theorem div (d a b : GReg) (w : BitVec 3) : Statement (.div d a b w) := by
  intro h e he
  obtain rfl := Option.some.inj he
  refine ⟨?_, by simp [lengthMarked]⟩
  simpa [decodeEncoding, decode32, decodeMap0, decodeMap1, decodeMap2, need, hi4, hi5, hi6, hi2, hi1, mid1, mid2, bit5, lo1, lo2, lo3,
    lo4, lo5, lo6] using checked_ok h

theorem divu (d a b : GReg) (w : BitVec 3) : Statement (.divu d a b w) := by
  intro h e he
  obtain rfl := Option.some.inj he
  refine ⟨?_, by simp [lengthMarked]⟩
  simpa [decodeEncoding, decode32, decodeMap0, decodeMap1, decodeMap2, need, hi4, hi5, hi6, hi2, hi1, mid1, mid2, bit5, lo1, lo2, lo3,
    lo4, lo5, lo6] using checked_ok h

theorem rem (d a b : GReg) (w : BitVec 3) : Statement (.rem d a b w) := by
  intro h e he
  obtain rfl := Option.some.inj he
  refine ⟨?_, by simp [lengthMarked]⟩
  simpa [decodeEncoding, decode32, decodeMap0, decodeMap1, decodeMap2, need, hi4, hi5, hi6, hi2, hi1, mid1, mid2, bit5, lo1, lo2, lo3,
    lo4, lo5, lo6] using checked_ok h

theorem remu (d a b : GReg) (w : BitVec 3) : Statement (.remu d a b w) := by
  intro h e he
  obtain rfl := Option.some.inj he
  refine ⟨?_, by simp [lengthMarked]⟩
  simpa [decodeEncoding, decode32, decodeMap0, decodeMap1, decodeMap2, need, hi4, hi5, hi6, hi2, hi1, mid1, mid2, bit5, lo1, lo2, lo3,
    lo4, lo5, lo6] using checked_ok h

theorem and (d a b : GReg) (w : BitVec 3) : Statement (.and d a b w) := by
  intro h e he
  obtain rfl := Option.some.inj he
  refine ⟨?_, by simp [lengthMarked]⟩
  simpa [decodeEncoding, decode32, decodeMap0, decodeMap1, decodeMap2, need, hi4, hi5, hi6, hi2, hi1, mid1, mid2, bit5, lo1, lo2, lo3,
    lo4, lo5, lo6] using checked_ok h

theorem or (d a b : GReg) (w : BitVec 3) : Statement (.or d a b w) := by
  intro h e he
  obtain rfl := Option.some.inj he
  refine ⟨?_, by simp [lengthMarked]⟩
  simpa [decodeEncoding, decode32, decodeMap0, decodeMap1, decodeMap2, need, hi4, hi5, hi6, hi2, hi1, mid1, mid2, bit5, lo1, lo2, lo3,
    lo4, lo5, lo6] using checked_ok h

theorem xor (d a b : GReg) (w : BitVec 3) : Statement (.xor d a b w) := by
  intro h e he
  obtain rfl := Option.some.inj he
  refine ⟨?_, by simp [lengthMarked]⟩
  simpa [decodeEncoding, decode32, decodeMap0, decodeMap1, decodeMap2, need, hi4, hi5, hi6, hi2, hi1, mid1, mid2, bit5, lo1, lo2, lo3,
    lo4, lo5, lo6] using checked_ok h

theorem shl (d a b : GReg) (w : BitVec 3) : Statement (.shl d a b w) := by
  intro h e he
  obtain rfl := Option.some.inj he
  refine ⟨?_, by simp [lengthMarked]⟩
  simpa [decodeEncoding, decode32, decodeMap0, decodeMap1, decodeMap2, need, hi4, hi5, hi6, hi2, hi1, mid1, mid2, bit5, lo1, lo2, lo3,
    lo4, lo5, lo6] using checked_ok h

theorem shr (d a b : GReg) (w : BitVec 3) : Statement (.shr d a b w) := by
  intro h e he
  obtain rfl := Option.some.inj he
  refine ⟨?_, by simp [lengthMarked]⟩
  simpa [decodeEncoding, decode32, decodeMap0, decodeMap1, decodeMap2, need, hi4, hi5, hi6, hi2, hi1, mid1, mid2, bit5, lo1, lo2, lo3,
    lo4, lo5, lo6] using checked_ok h

theorem sar (d a b : GReg) (w : BitVec 3) : Statement (.sar d a b w) := by
  intro h e he
  obtain rfl := Option.some.inj he
  refine ⟨?_, by simp [lengthMarked]⟩
  simpa [decodeEncoding, decode32, decodeMap0, decodeMap1, decodeMap2, need, hi4, hi5, hi6, hi2, hi1, mid1, mid2, bit5, lo1, lo2, lo3,
    lo4, lo5, lo6] using checked_ok h

theorem rol (d a b : GReg) (w : BitVec 3) : Statement (.rol d a b w) := by
  intro h e he
  obtain rfl := Option.some.inj he
  refine ⟨?_, by simp [lengthMarked]⟩
  simpa [decodeEncoding, decode32, decodeMap0, decodeMap1, decodeMap2, need, hi4, hi5, hi6, hi2, hi1, mid1, mid2, bit5, lo1, lo2, lo3,
    lo4, lo5, lo6] using checked_ok h

theorem clz (d a : GReg) (w : BitVec 3) : Statement (.clz d a w) := by
  intro h e he
  obtain rfl := Option.some.inj he
  refine ⟨?_, by simp [lengthMarked]⟩
  simpa [decodeEncoding, decode32, decodeMap0, decodeMap1, decodeMap2, need, hi4, hi5, hi6, hi2, hi1, mid1, mid2, bit5, lo1, lo2, lo3,
    lo4, lo5, lo6] using checked_ok h

theorem ctz (d a : GReg) (w : BitVec 3) : Statement (.ctz d a w) := by
  intro h e he
  obtain rfl := Option.some.inj he
  refine ⟨?_, by simp [lengthMarked]⟩
  simpa [decodeEncoding, decode32, decodeMap0, decodeMap1, decodeMap2, need, hi4, hi5, hi6, hi2, hi1, mid1, mid2, bit5, lo1, lo2, lo3,
    lo4, lo5, lo6] using checked_ok h

theorem popc (d a : GReg) (w : BitVec 3) : Statement (.popc d a w) := by
  intro h e he
  obtain rfl := Option.some.inj he
  refine ⟨?_, by simp [lengthMarked]⟩
  simpa [decodeEncoding, decode32, decodeMap0, decodeMap1, decodeMap2, need, hi4, hi5, hi6, hi2, hi1, mid1, mid2, bit5, lo1, lo2, lo3,
    lo4, lo5, lo6] using checked_ok h

theorem min (d a b : GReg) (w : BitVec 3) : Statement (.min d a b w) := by
  intro h e he
  obtain rfl := Option.some.inj he
  refine ⟨?_, by simp [lengthMarked]⟩
  simpa [decodeEncoding, decode32, decodeMap0, decodeMap1, decodeMap2, need, hi4, hi5, hi6, hi2, hi1, mid1, mid2, bit5, lo1, lo2, lo3,
    lo4, lo5, lo6] using checked_ok h

theorem max (d a b : GReg) (w : BitVec 3) : Statement (.max d a b w) := by
  intro h e he
  obtain rfl := Option.some.inj he
  refine ⟨?_, by simp [lengthMarked]⟩
  simpa [decodeEncoding, decode32, decodeMap0, decodeMap1, decodeMap2, need, hi4, hi5, hi6, hi2, hi1, mid1, mid2, bit5, lo1, lo2, lo3,
    lo4, lo5, lo6] using checked_ok h

theorem minu (d a b : GReg) (w : BitVec 3) : Statement (.minu d a b w) := by
  intro h e he
  obtain rfl := Option.some.inj he
  refine ⟨?_, by simp [lengthMarked]⟩
  simpa [decodeEncoding, decode32, decodeMap0, decodeMap1, decodeMap2, need, hi4, hi5, hi6, hi2, hi1, mid1, mid2, bit5, lo1, lo2, lo3,
    lo4, lo5, lo6] using checked_ok h

theorem maxu (d a b : GReg) (w : BitVec 3) : Statement (.maxu d a b w) := by
  intro h e he
  obtain rfl := Option.some.inj he
  refine ⟨?_, by simp [lengthMarked]⟩
  simpa [decodeEncoding, decode32, decodeMap0, decodeMap1, decodeMap2, need, hi4, hi5, hi6, hi2, hi1, mid1, mid2, bit5, lo1, lo2, lo3,
    lo4, lo5, lo6] using checked_ok h

theorem sel (d a b c : GReg) : Statement (.sel d a b c) := by
  intro h e he
  obtain rfl := Option.some.inj he
  refine ⟨?_, by simp [lengthMarked]⟩
  simpa [decodeEncoding, decode32, decodeMap0, decodeMap1, decodeMap2, need, hi4, hi5, hi6, hi2, hi1, mid1, mid2, bit5, lo1, lo2, lo3,
    lo4, lo5, lo6] using checked_ok h

theorem seq (d a b : GReg) (w : BitVec 3) : Statement (.seq d a b w) := by
  intro h e he
  obtain rfl := Option.some.inj he
  refine ⟨?_, by simp [lengthMarked]⟩
  simpa [decodeEncoding, decode32, decodeMap0, decodeMap1, decodeMap2, need, hi4, hi5, hi6, hi2, hi1, mid1, mid2, bit5, lo1, lo2, lo3,
    lo4, lo5, lo6] using checked_ok h

theorem sne (d a b : GReg) (w : BitVec 3) : Statement (.sne d a b w) := by
  intro h e he
  obtain rfl := Option.some.inj he
  refine ⟨?_, by simp [lengthMarked]⟩
  simpa [decodeEncoding, decode32, decodeMap0, decodeMap1, decodeMap2, need, hi4, hi5, hi6, hi2, hi1, mid1, mid2, bit5, lo1, lo2, lo3,
    lo4, lo5, lo6] using checked_ok h

theorem slt (d a b : GReg) (w : BitVec 3) : Statement (.slt d a b w) := by
  intro h e he
  obtain rfl := Option.some.inj he
  refine ⟨?_, by simp [lengthMarked]⟩
  simpa [decodeEncoding, decode32, decodeMap0, decodeMap1, decodeMap2, need, hi4, hi5, hi6, hi2, hi1, mid1, mid2, bit5, lo1, lo2, lo3,
    lo4, lo5, lo6] using checked_ok h

theorem sltu (d a b : GReg) (w : BitVec 3) : Statement (.sltu d a b w) := by
  intro h e he
  obtain rfl := Option.some.inj he
  refine ⟨?_, by simp [lengthMarked]⟩
  simpa [decodeEncoding, decode32, decodeMap0, decodeMap1, decodeMap2, need, hi4, hi5, hi6, hi2, hi1, mid1, mid2, bit5, lo1, lo2, lo3,
    lo4, lo5, lo6] using checked_ok h

theorem mov (d a : GReg) : Statement (.mov d a) := by
  intro h e he
  obtain rfl := Option.some.inj he
  refine ⟨?_, by simp [lengthMarked]⟩
  simpa [decodeEncoding, decode32, decodeMap0, decodeMap1, decodeMap2, need, hi4, hi5, hi6, hi2, hi1, mid1, mid2, bit5, lo1, lo2, lo3,
    lo4, lo5, lo6] using checked_ok h

theorem extN64 (d a b : GReg) (l : BitVec 6) : Statement (.extN64 d a b l) := by
  intro h e he
  obtain rfl := Option.some.inj he
  refine ⟨?_, by simp [lengthMarked]⟩
  simpa [decodeEncoding, decode32, decodeMap0, decodeMap1, decodeMap2, need, hi4, hi5, hi6, hi2, hi1, mid1, mid2, bit5, lo1, lo2, lo3,
    lo4, lo5, lo6] using checked_ok h

theorem extI64 (d a b : GReg) (l : BitVec 6) : Statement (.extI64 d a b l) := by
  intro h e he
  obtain rfl := Option.some.inj he
  refine ⟨?_, by simp [lengthMarked]⟩
  simpa [decodeEncoding, decode32, decodeMap0, decodeMap1, decodeMap2, need, hi4, hi5, hi6, hi2, hi1, mid1, mid2, bit5, lo1, lo2, lo3,
    lo4, lo5, lo6] using checked_ok h

theorem ins (d a b : GReg) (l : BitVec 6) : Statement (.ins d a b l) := by
  intro h e he
  obtain rfl := Option.some.inj he
  refine ⟨?_, by simp [lengthMarked]⟩
  simpa [decodeEncoding, decode32, decodeMap0, decodeMap1, decodeMap2, need, hi4, hi5, hi6, hi2, hi1, mid1, mid2, bit5, lo1, lo2, lo3,
    lo4, lo5, lo6] using checked_ok h

theorem ret (a : GReg) : Statement (.ret a) := by
  intro h e he
  obtain rfl := Option.some.inj he
  refine ⟨?_, by simp [lengthMarked]⟩
  simpa [decodeEncoding, decode32, decodeMap0, decodeMap1, decodeMap2, need, hi4, hi5, hi6, hi2, hi1, mid1, mid2, bit5, lo1, lo2, lo3,
    lo4, lo5, lo6] using checked_ok h

theorem addi (d a : GReg) (i : BitVec 12) : Statement (.addi d a i) := by
  intro h e he
  obtain rfl := Option.some.inj he
  refine ⟨?_, by simp [lengthMarked]⟩
  simpa [decodeEncoding, decode32, decodeMap0, decodeMap1, decodeMap2, need, hi4, hi5, hi6, hi2, hi1, mid1, mid2, bit5, lo1, lo2, lo3,
    lo4, lo5, lo6] using checked_ok h

theorem andi (d a : GReg) (i : BitVec 12) : Statement (.andi d a i) := by
  intro h e he
  obtain rfl := Option.some.inj he
  refine ⟨?_, by simp [lengthMarked]⟩
  simpa [decodeEncoding, decode32, decodeMap0, decodeMap1, decodeMap2, need, hi4, hi5, hi6, hi2, hi1, mid1, mid2, bit5, lo1, lo2, lo3,
    lo4, lo5, lo6] using checked_ok h

theorem ori (d a : GReg) (i : BitVec 12) : Statement (.ori d a i) := by
  intro h e he
  obtain rfl := Option.some.inj he
  refine ⟨?_, by simp [lengthMarked]⟩
  simpa [decodeEncoding, decode32, decodeMap0, decodeMap1, decodeMap2, need, hi4, hi5, hi6, hi2, hi1, mid1, mid2, bit5, lo1, lo2, lo3,
    lo4, lo5, lo6] using checked_ok h

theorem xori (d a : GReg) (i : BitVec 12) : Statement (.xori d a i) := by
  intro h e he
  obtain rfl := Option.some.inj he
  refine ⟨?_, by simp [lengthMarked]⟩
  simpa [decodeEncoding, decode32, decodeMap0, decodeMap1, decodeMap2, need, hi4, hi5, hi6, hi2, hi1, mid1, mid2, bit5, lo1, lo2, lo3,
    lo4, lo5, lo6] using checked_ok h

theorem shli (d a : GReg) (u : BitVec 6) : Statement (.shli d a u) := by
  intro h e he
  obtain rfl := Option.some.inj he
  refine ⟨?_, by simp [lengthMarked]⟩
  simpa [decodeEncoding, decode32, decodeMap0, decodeMap1, decodeMap2, need, hi4, hi5, hi6, hi2, hi1, mid1, mid2, bit5, lo1, lo2, lo3,
    lo4, lo5, lo6] using checked_ok h

theorem shri (d a : GReg) (u : BitVec 6) : Statement (.shri d a u) := by
  intro h e he
  obtain rfl := Option.some.inj he
  refine ⟨?_, by simp [lengthMarked]⟩
  simpa [decodeEncoding, decode32, decodeMap0, decodeMap1, decodeMap2, need, hi4, hi5, hi6, hi2, hi1, mid1, mid2, bit5, lo1, lo2, lo3,
    lo4, lo5, lo6] using checked_ok h

theorem sari (d a : GReg) (u : BitVec 6) : Statement (.sari d a u) := by
  intro h e he
  obtain rfl := Option.some.inj he
  refine ⟨?_, by simp [lengthMarked]⟩
  simpa [decodeEncoding, decode32, decodeMap0, decodeMap1, decodeMap2, need, hi4, hi5, hi6, hi2, hi1, mid1, mid2, bit5, lo1, lo2, lo3,
    lo4, lo5, lo6] using checked_ok h

theorem li (d : GReg) (i : BitVec 12) : Statement (.li d i) := by
  intro h e he
  obtain rfl := Option.some.inj he
  refine ⟨?_, by simp [lengthMarked]⟩
  simpa [decodeEncoding, decode32, decodeMap0, decodeMap1, decodeMap2, need, hi4, hi5, hi6, hi2, hi1, mid1, mid2, bit5, lo1, lo2, lo3,
    lo4, lo5, lo6] using checked_ok h

theorem lih (d a : GReg) (i : BitVec 12) : Statement (.lih d a i) := by
  intro h e he
  obtain rfl := Option.some.inj he
  refine ⟨?_, by simp [lengthMarked]⟩
  simpa [decodeEncoding, decode32, decodeMap0, decodeMap1, decodeMap2, need, hi4, hi5, hi6, hi2, hi1, mid1, mid2, bit5, lo1, lo2, lo3,
    lo4, lo5, lo6] using checked_ok h

theorem caddi (d a : GReg) (i : BitVec 12) : Statement (.caddi d a i) := by
  intro h e he
  obtain rfl := Option.some.inj he
  refine ⟨?_, by simp [lengthMarked]⟩
  simpa [decodeEncoding, decode32, decodeMap0, decodeMap1, decodeMap2, need, hi4, hi5, hi6, hi2, hi1, mid1, mid2, bit5, lo1, lo2, lo3,
    lo4, lo5, lo6] using checked_ok h

theorem cadd (d a b : GReg) : Statement (.cadd d a b) := by
  intro h e he
  obtain rfl := Option.some.inj he
  refine ⟨?_, by simp [lengthMarked]⟩
  simpa [decodeEncoding, decode32, decodeMap0, decodeMap1, decodeMap2, need, hi4, hi5, hi6, hi2, hi1, mid1, mid2, bit5, lo1, lo2, lo3,
    lo4, lo5, lo6] using checked_ok h

theorem csub (d a b : GReg) : Statement (.csub d a b) := by
  intro h e he
  obtain rfl := Option.some.inj he
  refine ⟨?_, by simp [lengthMarked]⟩
  simpa [decodeEncoding, decode32, decodeMap0, decodeMap1, decodeMap2, need, hi4, hi5, hi6, hi2, hi1, mid1, mid2, bit5, lo1, lo2, lo3,
    lo4, lo5, lo6] using checked_ok h

theorem csetb (d a b : GReg) : Statement (.csetb d a b) := by
  intro h e he
  obtain rfl := Option.some.inj he
  refine ⟨?_, by simp [lengthMarked]⟩
  simpa [decodeEncoding, decode32, decodeMap0, decodeMap1, decodeMap2, need, hi4, hi5, hi6, hi2, hi1, mid1, mid2, bit5, lo1, lo2, lo3,
    lo4, lo5, lo6] using checked_ok h

theorem csetp (d a b : GReg) : Statement (.csetp d a b) := by
  intro h e he
  obtain rfl := Option.some.inj he
  refine ⟨?_, by simp [lengthMarked]⟩
  simpa [decodeEncoding, decode32, decodeMap0, decodeMap1, decodeMap2, need, hi4, hi5, hi6, hi2, hi1, mid1, mid2, bit5, lo1, lo2, lo3,
    lo4, lo5, lo6] using checked_ok h

theorem csetf (d a b : GReg) : Statement (.csetf d a b) := by
  intro h e he
  obtain rfl := Option.some.inj he
  refine ⟨?_, by simp [lengthMarked]⟩
  simpa [decodeEncoding, decode32, decodeMap0, decodeMap1, decodeMap2, need, hi4, hi5, hi6, hi2, hi1, mid1, mid2, bit5, lo1, lo2, lo3,
    lo4, lo5, lo6] using checked_ok h

theorem csetc (d a b : GReg) : Statement (.csetc d a b) := by
  intro h e he
  obtain rfl := Option.some.inj he
  refine ⟨?_, by simp [lengthMarked]⟩
  simpa [decodeEncoding, decode32, decodeMap0, decodeMap1, decodeMap2, need, hi4, hi5, hi6, hi2, hi1, mid1, mid2, bit5, lo1, lo2, lo3,
    lo4, lo5, lo6] using checked_ok h

theorem cgeta (d a : GReg) : Statement (.cgeta d a) := by
  intro h e he
  obtain rfl := Option.some.inj he
  refine ⟨?_, by simp [lengthMarked]⟩
  simpa [decodeEncoding, decode32, decodeMap0, decodeMap1, decodeMap2, need, hi4, hi5, hi6, hi2, hi1, mid1, mid2, bit5, lo1, lo2, lo3,
    lo4, lo5, lo6] using checked_ok h

theorem cgetb (d a : GReg) : Statement (.cgetb d a) := by
  intro h e he
  obtain rfl := Option.some.inj he
  refine ⟨?_, by simp [lengthMarked]⟩
  simpa [decodeEncoding, decode32, decodeMap0, decodeMap1, decodeMap2, need, hi4, hi5, hi6, hi2, hi1, mid1, mid2, bit5, lo1, lo2, lo3,
    lo4, lo5, lo6] using checked_ok h

theorem cgett (d a : GReg) : Statement (.cgett d a) := by
  intro h e he
  obtain rfl := Option.some.inj he
  refine ⟨?_, by simp [lengthMarked]⟩
  simpa [decodeEncoding, decode32, decodeMap0, decodeMap1, decodeMap2, need, hi4, hi5, hi6, hi2, hi1, mid1, mid2, bit5, lo1, lo2, lo3,
    lo4, lo5, lo6] using checked_ok h

theorem cgetp (d a : GReg) : Statement (.cgetp d a) := by
  intro h e he
  obtain rfl := Option.some.inj he
  refine ⟨?_, by simp [lengthMarked]⟩
  simpa [decodeEncoding, decode32, decodeMap0, decodeMap1, decodeMap2, need, hi4, hi5, hi6, hi2, hi1, mid1, mid2, bit5, lo1, lo2, lo3,
    lo4, lo5, lo6] using checked_ok h

theorem cgetf (d a : GReg) : Statement (.cgetf d a) := by
  intro h e he
  obtain rfl := Option.some.inj he
  refine ⟨?_, by simp [lengthMarked]⟩
  simpa [decodeEncoding, decode32, decodeMap0, decodeMap1, decodeMap2, need, hi4, hi5, hi6, hi2, hi1, mid1, mid2, bit5, lo1, lo2, lo3,
    lo4, lo5, lo6] using checked_ok h

theorem ctag (d a : GReg) : Statement (.ctag d a) := by
  intro h e he
  obtain rfl := Option.some.inj he
  refine ⟨?_, by simp [lengthMarked]⟩
  simpa [decodeEncoding, decode32, decodeMap0, decodeMap1, decodeMap2, need, hi4, hi5, hi6, hi2, hi1, mid1, mid2, bit5, lo1, lo2, lo3,
    lo4, lo5, lo6] using checked_ok h

theorem cclr (d a : GReg) : Statement (.cclr d a) := by
  intro h e he
  obtain rfl := Option.some.inj he
  refine ⟨?_, by simp [lengthMarked]⟩
  simpa [decodeEncoding, decode32, decodeMap0, decodeMap1, decodeMap2, need, hi4, hi5, hi6, hi2, hi1, mid1, mid2, bit5, lo1, lo2, lo3,
    lo4, lo5, lo6] using checked_ok h

theorem br (o : BitVec 17) : Statement (.br o) := by
  intro h e he
  obtain rfl := Option.some.inj he
  refine ⟨?_, by simp [lengthMarked]⟩
  simpa [decodeEncoding, decode32, decodeMap0, decodeMap1, decodeMap2, need, hi4, hi5, hi6, hi2, hi1, mid1, mid2, bit5, lo1, lo2, lo3,
    lo4, lo5, lo6] using checked_ok h

theorem jal (d : GReg) (o : BitVec 17) : Statement (.jal d o) := by
  intro h e he
  obtain rfl := Option.some.inj he
  refine ⟨?_, by simp [lengthMarked]⟩
  simpa [decodeEncoding, decode32, decodeMap0, decodeMap1, decodeMap2, need, hi4, hi5, hi6, hi2, hi1, mid1, mid2, bit5, lo1, lo2, lo3,
    lo4, lo5, lo6] using checked_ok h

theorem jalr (d a : GReg) (i : BitVec 12) : Statement (.jalr d a i) := by
  intro h e he
  obtain rfl := Option.some.inj he
  refine ⟨?_, by simp [lengthMarked]⟩
  simpa [decodeEncoding, decode32, decodeMap0, decodeMap1, decodeMap2, need, hi4, hi5, hi6, hi2, hi1, mid1, mid2, bit5, lo1, lo2, lo3,
    lo4, lo5, lo6] using checked_ok h

theorem bccEq (d a : GReg) (i : BitVec 12) : Statement (.bccEq d a i) := by
  intro h e he
  obtain rfl := Option.some.inj he
  refine ⟨?_, by simp [lengthMarked]⟩
  simpa [decodeEncoding, decode32, decodeMap0, decodeMap1, decodeMap2, need, hi4, hi5, hi6, hi2, hi1, mid1, mid2, bit5, lo1, lo2, lo3,
    lo4, lo5, lo6] using checked_ok h

theorem bccNe (d a : GReg) (i : BitVec 12) : Statement (.bccNe d a i) := by
  intro h e he
  obtain rfl := Option.some.inj he
  refine ⟨?_, by simp [lengthMarked]⟩
  simpa [decodeEncoding, decode32, decodeMap0, decodeMap1, decodeMap2, need, hi4, hi5, hi6, hi2, hi1, mid1, mid2, bit5, lo1, lo2, lo3,
    lo4, lo5, lo6] using checked_ok h

theorem bccLt (d a : GReg) (i : BitVec 12) : Statement (.bccLt d a i) := by
  intro h e he
  obtain rfl := Option.some.inj he
  refine ⟨?_, by simp [lengthMarked]⟩
  simpa [decodeEncoding, decode32, decodeMap0, decodeMap1, decodeMap2, need, hi4, hi5, hi6, hi2, hi1, mid1, mid2, bit5, lo1, lo2, lo3,
    lo4, lo5, lo6] using checked_ok h

theorem bccGe (d a : GReg) (i : BitVec 12) : Statement (.bccGe d a i) := by
  intro h e he
  obtain rfl := Option.some.inj he
  refine ⟨?_, by simp [lengthMarked]⟩
  simpa [decodeEncoding, decode32, decodeMap0, decodeMap1, decodeMap2, need, hi4, hi5, hi6, hi2, hi1, mid1, mid2, bit5, lo1, lo2, lo3,
    lo4, lo5, lo6] using checked_ok h

theorem bccLtu (d a : GReg) (i : BitVec 12) : Statement (.bccLtu d a i) := by
  intro h e he
  obtain rfl := Option.some.inj he
  refine ⟨?_, by simp [lengthMarked]⟩
  simpa [decodeEncoding, decode32, decodeMap0, decodeMap1, decodeMap2, need, hi4, hi5, hi6, hi2, hi1, mid1, mid2, bit5, lo1, lo2, lo3,
    lo4, lo5, lo6] using checked_ok h

theorem bccGeu (d a : GReg) (i : BitVec 12) : Statement (.bccGeu d a i) := by
  intro h e he
  obtain rfl := Option.some.inj he
  refine ⟨?_, by simp [lengthMarked]⟩
  simpa [decodeEncoding, decode32, decodeMap0, decodeMap1, decodeMap2, need, hi4, hi5, hi6, hi2, hi1, mid1, mid2, bit5, lo1, lo2, lo3,
    lo4, lo5, lo6] using checked_ok h

theorem ldI8 (d a : GReg) (i : BitVec 12) : Statement (.ldI8 d a i) := by
  intro h e he
  obtain rfl := Option.some.inj he
  refine ⟨?_, by simp [lengthMarked]⟩
  simpa [decodeEncoding, decode32, decodeMap0, decodeMap1, decodeMap2, need, hi4, hi5, hi6, hi2, hi1, mid1, mid2, bit5, lo1, lo2, lo3,
    lo4, lo5, lo6] using checked_ok h

theorem ldI16 (d a : GReg) (i : BitVec 12) : Statement (.ldI16 d a i) := by
  intro h e he
  obtain rfl := Option.some.inj he
  refine ⟨?_, by simp [lengthMarked]⟩
  simpa [decodeEncoding, decode32, decodeMap0, decodeMap1, decodeMap2, need, hi4, hi5, hi6, hi2, hi1, mid1, mid2, bit5, lo1, lo2, lo3,
    lo4, lo5, lo6] using checked_ok h

theorem ldI32 (d a : GReg) (i : BitVec 12) : Statement (.ldI32 d a i) := by
  intro h e he
  obtain rfl := Option.some.inj he
  refine ⟨?_, by simp [lengthMarked]⟩
  simpa [decodeEncoding, decode32, decodeMap0, decodeMap1, decodeMap2, need, hi4, hi5, hi6, hi2, hi1, mid1, mid2, bit5, lo1, lo2, lo3,
    lo4, lo5, lo6] using checked_ok h

theorem ldI64 (d a : GReg) (i : BitVec 12) : Statement (.ldI64 d a i) := by
  intro h e he
  obtain rfl := Option.some.inj he
  refine ⟨?_, by simp [lengthMarked]⟩
  simpa [decodeEncoding, decode32, decodeMap0, decodeMap1, decodeMap2, need, hi4, hi5, hi6, hi2, hi1, mid1, mid2, bit5, lo1, lo2, lo3,
    lo4, lo5, lo6] using checked_ok h

theorem ldN8 (d a : GReg) (i : BitVec 12) : Statement (.ldN8 d a i) := by
  intro h e he
  obtain rfl := Option.some.inj he
  refine ⟨?_, by simp [lengthMarked]⟩
  simpa [decodeEncoding, decode32, decodeMap0, decodeMap1, decodeMap2, need, hi4, hi5, hi6, hi2, hi1, mid1, mid2, bit5, lo1, lo2, lo3,
    lo4, lo5, lo6] using checked_ok h

theorem ldN16 (d a : GReg) (i : BitVec 12) : Statement (.ldN16 d a i) := by
  intro h e he
  obtain rfl := Option.some.inj he
  refine ⟨?_, by simp [lengthMarked]⟩
  simpa [decodeEncoding, decode32, decodeMap0, decodeMap1, decodeMap2, need, hi4, hi5, hi6, hi2, hi1, mid1, mid2, bit5, lo1, lo2, lo3,
    lo4, lo5, lo6] using checked_ok h

theorem ldN32 (d a : GReg) (i : BitVec 12) : Statement (.ldN32 d a i) := by
  intro h e he
  obtain rfl := Option.some.inj he
  refine ⟨?_, by simp [lengthMarked]⟩
  simpa [decodeEncoding, decode32, decodeMap0, decodeMap1, decodeMap2, need, hi4, hi5, hi6, hi2, hi1, mid1, mid2, bit5, lo1, lo2, lo3,
    lo4, lo5, lo6] using checked_ok h

theorem ldN64 (d a : GReg) (i : BitVec 12) : Statement (.ldN64 d a i) := by
  intro h e he
  obtain rfl := Option.some.inj he
  refine ⟨?_, by simp [lengthMarked]⟩
  simpa [decodeEncoding, decode32, decodeMap0, decodeMap1, decodeMap2, need, hi4, hi5, hi6, hi2, hi1, mid1, mid2, bit5, lo1, lo2, lo3,
    lo4, lo5, lo6] using checked_ok h

theorem st8 (d a : GReg) (i : BitVec 12) : Statement (.st8 d a i) := by
  intro h e he
  obtain rfl := Option.some.inj he
  refine ⟨?_, by simp [lengthMarked]⟩
  simpa [decodeEncoding, decode32, decodeMap0, decodeMap1, decodeMap2, need, hi4, hi5, hi6, hi2, hi1, mid1, mid2, bit5, lo1, lo2, lo3,
    lo4, lo5, lo6] using checked_ok h

theorem st16 (d a : GReg) (i : BitVec 12) : Statement (.st16 d a i) := by
  intro h e he
  obtain rfl := Option.some.inj he
  refine ⟨?_, by simp [lengthMarked]⟩
  simpa [decodeEncoding, decode32, decodeMap0, decodeMap1, decodeMap2, need, hi4, hi5, hi6, hi2, hi1, mid1, mid2, bit5, lo1, lo2, lo3,
    lo4, lo5, lo6] using checked_ok h

theorem st32 (d a : GReg) (i : BitVec 12) : Statement (.st32 d a i) := by
  intro h e he
  obtain rfl := Option.some.inj he
  refine ⟨?_, by simp [lengthMarked]⟩
  simpa [decodeEncoding, decode32, decodeMap0, decodeMap1, decodeMap2, need, hi4, hi5, hi6, hi2, hi1, mid1, mid2, bit5, lo1, lo2, lo3,
    lo4, lo5, lo6] using checked_ok h

theorem st64 (d a : GReg) (i : BitVec 12) : Statement (.st64 d a i) := by
  intro h e he
  obtain rfl := Option.some.inj he
  refine ⟨?_, by simp [lengthMarked]⟩
  simpa [decodeEncoding, decode32, decodeMap0, decodeMap1, decodeMap2, need, hi4, hi5, hi6, hi2, hi1, mid1, mid2, bit5, lo1, lo2, lo3,
    lo4, lo5, lo6] using checked_ok h

theorem ldc (d a : GReg) (i : BitVec 12) : Statement (.ldc d a i) := by
  intro h e he
  obtain rfl := Option.some.inj he
  refine ⟨?_, by simp [lengthMarked]⟩
  simpa [decodeEncoding, decode32, decodeMap0, decodeMap1, decodeMap2, need, hi4, hi5, hi6, hi2, hi1, mid1, mid2, bit5, lo1, lo2, lo3,
    lo4, lo5, lo6] using checked_ok h

theorem stc (d a : GReg) (i : BitVec 12) : Statement (.stc d a i) := by
  intro h e he
  obtain rfl := Option.some.inj he
  refine ⟨?_, by simp [lengthMarked]⟩
  simpa [decodeEncoding, decode32, decodeMap0, decodeMap1, decodeMap2, need, hi4, hi5, hi6, hi2, hi1, mid1, mid2, bit5, lo1, lo2, lo3,
    lo4, lo5, lo6] using checked_ok h

theorem ldAcq (d a b : GReg) (w : BitVec 3) : Statement (.ldAcq d a b w) := by
  intro h e he
  obtain rfl := Option.some.inj he
  refine ⟨?_, by simp [lengthMarked]⟩
  simpa [decodeEncoding, decode32, decodeMap0, decodeMap1, decodeMap2, need, hi4, hi5, hi6, hi2, hi1, mid1, mid2, bit5, lo1, lo2, lo3,
    lo4, lo5, lo6] using checked_ok h

theorem stRel (d a b : GReg) (z : BitVec 2) : Statement (.stRel d a b z) := by
  intro h e he
  obtain rfl := Option.some.inj he
  refine ⟨?_, by simp [lengthMarked]⟩
  simpa [decodeEncoding, decode32, decodeMap0, decodeMap1, decodeMap2, need, hi4, hi5, hi6, hi2, hi1, mid1, mid2, bit5, lo1, lo2, lo3,
    lo4, lo5, lo6] using checked_ok h

theorem fence (a : GReg) (o : BitVec 2) : Statement (.fence a o) := by
  intro h e he
  obtain rfl := Option.some.inj he
  refine ⟨?_, by simp [lengthMarked]⟩
  simpa [decodeEncoding, decode32, decodeMap0, decodeMap1, decodeMap2, need, hi4, hi5, hi6, hi2, hi1, mid1, mid2, bit5, lo1, lo2, lo3,
    lo4, lo5, lo6] using checked_ok h

theorem ifence : Statement .ifence := by
  intro h e he
  obtain rfl := Option.some.inj he
  refine ⟨?_, by simp [lengthMarked]⟩
  simpa [decodeEncoding, decode32, decodeMap0, decodeMap1, decodeMap2, need, hi4, hi5, hi6, hi2, hi1, mid1, mid2, bit5, lo1, lo2, lo3,
    lo4, lo5, lo6] using checked_ok h

theorem pref (h : BitVec 5) (a : GReg) (i : BitVec 12) : Statement (.pref h a i) := by
  intro h e he
  obtain rfl := Option.some.inj he
  refine ⟨?_, by simp [lengthMarked]⟩
  simpa [decodeEncoding, decode32, decodeMap0, decodeMap1, decodeMap2, need, hi4, hi5, hi6, hi2, hi1, mid1, mid2, bit5, lo1, lo2, lo3,
    lo4, lo5, lo6] using checked_ok h

theorem casN32 (d a b c : GReg) (o : BitVec 2) : Statement (.casN32 d a b c o) := by
  intro h e he
  obtain rfl := Option.some.inj he
  refine ⟨?_, by simp [lengthMarked]⟩
  simpa [decodeEncoding, decode32, decodeMap0, decodeMap1, decodeMap2, need, hi4, hi5, hi6, hi2, hi1, mid1, mid2, bit5, lo1, lo2, lo3,
    lo4, lo5, lo6] using checked_ok h

theorem casN64 (d a b c : GReg) (o : BitVec 2) : Statement (.casN64 d a b c o) := by
  intro h e he
  obtain rfl := Option.some.inj he
  refine ⟨?_, by simp [lengthMarked]⟩
  simpa [decodeEncoding, decode32, decodeMap0, decodeMap1, decodeMap2, need, hi4, hi5, hi6, hi2, hi1, mid1, mid2, bit5, lo1, lo2, lo3,
    lo4, lo5, lo6] using checked_ok h

theorem send (d a b : GReg) : Statement (.send d a b) := by
  intro h e he
  obtain rfl := Option.some.inj he
  refine ⟨?_, by simp [lengthMarked]⟩
  simpa [decodeEncoding, decode32, decodeMap0, decodeMap1, decodeMap2, need, hi4, hi5, hi6, hi2, hi1, mid1, mid2, bit5, lo1, lo2, lo3,
    lo4, lo5, lo6] using checked_ok h

theorem sendx (d a b : GReg) : Statement (.sendx d a b) := by
  intro h e he
  obtain rfl := Option.some.inj he
  refine ⟨?_, by simp [lengthMarked]⟩
  simpa [decodeEncoding, decode32, decodeMap0, decodeMap1, decodeMap2, need, hi4, hi5, hi6, hi2, hi1, mid1, mid2, bit5, lo1, lo2, lo3,
    lo4, lo5, lo6] using checked_ok h

theorem hret (a : GReg) (v : BitVec 1) (m : BitVec 4) : Statement (.hret a v m) := by
  intro h e he
  obtain rfl := Option.some.inj he
  refine ⟨?_, by simp [lengthMarked]⟩
  simpa [decodeEncoding, decode32, decodeMap0, decodeMap1, decodeMap2, need, hi4, hi5, hi6, hi2, hi1, mid1, mid2, bit5, lo1, lo2, lo3,
    lo4, lo5, lo6] using checked_ok h

theorem amoAddN32 (d a b c : GReg) (o : BitVec 2) : Statement (.amoAddN32 d a b c o) := by
  intro h e he
  obtain rfl := Option.some.inj he
  refine ⟨?_, by simp [lengthMarked]⟩
  simpa [decodeEncoding, decode32, decodeMap0, decodeMap1, decodeMap2, need, hi4, hi5, hi6, hi2, hi1, mid1, mid2, bit5, lo1, lo2, lo3,
    lo4, lo5, lo6] using checked_ok h

theorem amoAddN64 (d a b c : GReg) (o : BitVec 2) : Statement (.amoAddN64 d a b c o) := by
  intro h e he
  obtain rfl := Option.some.inj he
  refine ⟨?_, by simp [lengthMarked]⟩
  simpa [decodeEncoding, decode32, decodeMap0, decodeMap1, decodeMap2, need, hi4, hi5, hi6, hi2, hi1, mid1, mid2, bit5, lo1, lo2, lo3,
    lo4, lo5, lo6] using checked_ok h

theorem amoAndN32 (d a b c : GReg) (o : BitVec 2) : Statement (.amoAndN32 d a b c o) := by
  intro h e he
  obtain rfl := Option.some.inj he
  refine ⟨?_, by simp [lengthMarked]⟩
  simpa [decodeEncoding, decode32, decodeMap0, decodeMap1, decodeMap2, need, hi4, hi5, hi6, hi2, hi1, mid1, mid2, bit5, lo1, lo2, lo3,
    lo4, lo5, lo6] using checked_ok h

theorem amoAndN64 (d a b c : GReg) (o : BitVec 2) : Statement (.amoAndN64 d a b c o) := by
  intro h e he
  obtain rfl := Option.some.inj he
  refine ⟨?_, by simp [lengthMarked]⟩
  simpa [decodeEncoding, decode32, decodeMap0, decodeMap1, decodeMap2, need, hi4, hi5, hi6, hi2, hi1, mid1, mid2, bit5, lo1, lo2, lo3,
    lo4, lo5, lo6] using checked_ok h

theorem amoOrN32 (d a b c : GReg) (o : BitVec 2) : Statement (.amoOrN32 d a b c o) := by
  intro h e he
  obtain rfl := Option.some.inj he
  refine ⟨?_, by simp [lengthMarked]⟩
  simpa [decodeEncoding, decode32, decodeMap0, decodeMap1, decodeMap2, need, hi4, hi5, hi6, hi2, hi1, mid1, mid2, bit5, lo1, lo2, lo3,
    lo4, lo5, lo6] using checked_ok h

theorem amoOrN64 (d a b c : GReg) (o : BitVec 2) : Statement (.amoOrN64 d a b c o) := by
  intro h e he
  obtain rfl := Option.some.inj he
  refine ⟨?_, by simp [lengthMarked]⟩
  simpa [decodeEncoding, decode32, decodeMap0, decodeMap1, decodeMap2, need, hi4, hi5, hi6, hi2, hi1, mid1, mid2, bit5, lo1, lo2, lo3,
    lo4, lo5, lo6] using checked_ok h

theorem amoXorN32 (d a b c : GReg) (o : BitVec 2) : Statement (.amoXorN32 d a b c o) := by
  intro h e he
  obtain rfl := Option.some.inj he
  refine ⟨?_, by simp [lengthMarked]⟩
  simpa [decodeEncoding, decode32, decodeMap0, decodeMap1, decodeMap2, need, hi4, hi5, hi6, hi2, hi1, mid1, mid2, bit5, lo1, lo2, lo3,
    lo4, lo5, lo6] using checked_ok h

theorem amoXorN64 (d a b c : GReg) (o : BitVec 2) : Statement (.amoXorN64 d a b c o) := by
  intro h e he
  obtain rfl := Option.some.inj he
  refine ⟨?_, by simp [lengthMarked]⟩
  simpa [decodeEncoding, decode32, decodeMap0, decodeMap1, decodeMap2, need, hi4, hi5, hi6, hi2, hi1, mid1, mid2, bit5, lo1, lo2, lo3,
    lo4, lo5, lo6] using checked_ok h

theorem amoMinI32 (d a b c : GReg) (o : BitVec 2) : Statement (.amoMinI32 d a b c o) := by
  intro h e he
  obtain rfl := Option.some.inj he
  refine ⟨?_, by simp [lengthMarked]⟩
  simpa [decodeEncoding, decode32, decodeMap0, decodeMap1, decodeMap2, need, hi4, hi5, hi6, hi2, hi1, mid1, mid2, bit5, lo1, lo2, lo3,
    lo4, lo5, lo6] using checked_ok h

theorem amoMinI64 (d a b c : GReg) (o : BitVec 2) : Statement (.amoMinI64 d a b c o) := by
  intro h e he
  obtain rfl := Option.some.inj he
  refine ⟨?_, by simp [lengthMarked]⟩
  simpa [decodeEncoding, decode32, decodeMap0, decodeMap1, decodeMap2, need, hi4, hi5, hi6, hi2, hi1, mid1, mid2, bit5, lo1, lo2, lo3,
    lo4, lo5, lo6] using checked_ok h

theorem amoMaxI32 (d a b c : GReg) (o : BitVec 2) : Statement (.amoMaxI32 d a b c o) := by
  intro h e he
  obtain rfl := Option.some.inj he
  refine ⟨?_, by simp [lengthMarked]⟩
  simpa [decodeEncoding, decode32, decodeMap0, decodeMap1, decodeMap2, need, hi4, hi5, hi6, hi2, hi1, mid1, mid2, bit5, lo1, lo2, lo3,
    lo4, lo5, lo6] using checked_ok h

theorem amoMaxI64 (d a b c : GReg) (o : BitVec 2) : Statement (.amoMaxI64 d a b c o) := by
  intro h e he
  obtain rfl := Option.some.inj he
  refine ⟨?_, by simp [lengthMarked]⟩
  simpa [decodeEncoding, decode32, decodeMap0, decodeMap1, decodeMap2, need, hi4, hi5, hi6, hi2, hi1, mid1, mid2, bit5, lo1, lo2, lo3,
    lo4, lo5, lo6] using checked_ok h

theorem amoMinuN32 (d a b c : GReg) (o : BitVec 2) : Statement (.amoMinuN32 d a b c o) := by
  intro h e he
  obtain rfl := Option.some.inj he
  refine ⟨?_, by simp [lengthMarked]⟩
  simpa [decodeEncoding, decode32, decodeMap0, decodeMap1, decodeMap2, need, hi4, hi5, hi6, hi2, hi1, mid1, mid2, bit5, lo1, lo2, lo3,
    lo4, lo5, lo6] using checked_ok h

theorem amoMinuN64 (d a b c : GReg) (o : BitVec 2) : Statement (.amoMinuN64 d a b c o) := by
  intro h e he
  obtain rfl := Option.some.inj he
  refine ⟨?_, by simp [lengthMarked]⟩
  simpa [decodeEncoding, decode32, decodeMap0, decodeMap1, decodeMap2, need, hi4, hi5, hi6, hi2, hi1, mid1, mid2, bit5, lo1, lo2, lo3,
    lo4, lo5, lo6] using checked_ok h

theorem amoMaxuN32 (d a b c : GReg) (o : BitVec 2) : Statement (.amoMaxuN32 d a b c o) := by
  intro h e he
  obtain rfl := Option.some.inj he
  refine ⟨?_, by simp [lengthMarked]⟩
  simpa [decodeEncoding, decode32, decodeMap0, decodeMap1, decodeMap2, need, hi4, hi5, hi6, hi2, hi1, mid1, mid2, bit5, lo1, lo2, lo3,
    lo4, lo5, lo6] using checked_ok h

theorem amoMaxuN64 (d a b c : GReg) (o : BitVec 2) : Statement (.amoMaxuN64 d a b c o) := by
  intro h e he
  obtain rfl := Option.some.inj he
  refine ⟨?_, by simp [lengthMarked]⟩
  simpa [decodeEncoding, decode32, decodeMap0, decodeMap1, decodeMap2, need, hi4, hi5, hi6, hi2, hi1, mid1, mid2, bit5, lo1, lo2, lo3,
    lo4, lo5, lo6] using checked_ok h

theorem amoSwapN32 (d a b c : GReg) (o : BitVec 2) : Statement (.amoSwapN32 d a b c o) := by
  intro h e he
  obtain rfl := Option.some.inj he
  refine ⟨?_, by simp [lengthMarked]⟩
  simpa [decodeEncoding, decode32, decodeMap0, decodeMap1, decodeMap2, need, hi4, hi5, hi6, hi2, hi1, mid1, mid2, bit5, lo1, lo2, lo3,
    lo4, lo5, lo6] using checked_ok h

theorem amoSwapN64 (d a b c : GReg) (o : BitVec 2) : Statement (.amoSwapN64 d a b c o) := by
  intro h e he
  obtain rfl := Option.some.inj he
  refine ⟨?_, by simp [lengthMarked]⟩
  simpa [decodeEncoding, decode32, decodeMap0, decodeMap1, decodeMap2, need, hi4, hi5, hi6, hi2, hi1, mid1, mid2, bit5, lo1, lo2, lo3,
    lo4, lo5, lo6] using checked_ok h

theorem amoFaddF32 (d a b c : GReg) (o : BitVec 2) : Statement (.amoFaddF32 d a b c o) := by
  intro h e he
  obtain rfl := Option.some.inj he
  refine ⟨?_, by simp [lengthMarked]⟩
  simpa [decodeEncoding, decode32, decodeMap0, decodeMap1, decodeMap2, need, hi4, hi5, hi6, hi2, hi1, mid1, mid2, bit5, lo1, lo2, lo3,
    lo4, lo5, lo6] using checked_ok h

theorem amoFaddBf16 (d a b c : GReg) (o : BitVec 2) : Statement (.amoFaddBf16 d a b c o) := by
  intro h e he
  obtain rfl := Option.some.inj he
  refine ⟨?_, by simp [lengthMarked]⟩
  simpa [decodeEncoding, decode32, decodeMap0, decodeMap1, decodeMap2, need, hi4, hi5, hi6, hi2, hi1, mid1, mid2, bit5, lo1, lo2, lo3,
    lo4, lo5, lo6] using checked_ok h

theorem putreg (a b : GReg) (p : BitVec 5) : Statement (.putreg a b p) := by
  intro h e he
  obtain rfl := Option.some.inj he
  refine ⟨?_, by simp [lengthMarked]⟩
  simpa [decodeEncoding, decode32, decodeMap0, decodeMap1, decodeMap2, need, hi4, hi5, hi6, hi2, hi1, mid1, mid2, bit5, lo1, lo2, lo3,
    lo4, lo5, lo6] using checked_ok h

theorem putregV (a b : GReg) (p : BitVec 5) : Statement (.putregV a b p) := by
  intro h e he
  obtain rfl := Option.some.inj he
  refine ⟨?_, by simp [lengthMarked]⟩
  simpa [decodeEncoding, decode32, decodeMap0, decodeMap1, decodeMap2, need, hi4, hi5, hi6, hi2, hi1, mid1, mid2, bit5, lo1, lo2, lo3,
    lo4, lo5, lo6] using checked_ok h

theorem bindMbx (d : GReg) : Statement (.bindMbx d) := by
  intro h e he
  obtain rfl := Option.some.inj he
  refine ⟨?_, by simp [lengthMarked]⟩
  simpa [decodeEncoding, decode32, decodeMap0, decodeMap1, decodeMap2, need, hi4, hi5, hi6, hi2, hi1, mid1, mid2, bit5, lo1, lo2, lo3,
    lo4, lo5, lo6] using checked_ok h

theorem bindStr (d a : GReg) : Statement (.bindStr d a) := by
  intro h e he
  obtain rfl := Option.some.inj he
  refine ⟨?_, by simp [lengthMarked]⟩
  simpa [decodeEncoding, decode32, decodeMap0, decodeMap1, decodeMap2, need, hi4, hi5, hi6, hi2, hi1, mid1, mid2, bit5, lo1, lo2, lo3,
    lo4, lo5, lo6] using checked_ok h

theorem unbind (d : GReg) : Statement (.unbind d) := by
  intro h e he
  obtain rfl := Option.some.inj he
  refine ⟨?_, by simp [lengthMarked]⟩
  simpa [decodeEncoding, decode32, decodeMap0, decodeMap1, decodeMap2, need, hi4, hi5, hi6, hi2, hi1, mid1, mid2, bit5, lo1, lo2, lo3,
    lo4, lo5, lo6] using checked_ok h

theorem pget (d : GReg) : Statement (.pget d) := by
  intro h e he
  obtain rfl := Option.some.inj he
  refine ⟨?_, by simp [lengthMarked]⟩
  simpa [decodeEncoding, decode32, decodeMap0, decodeMap1, decodeMap2, need, hi4, hi5, hi6, hi2, hi1, mid1, mid2, bit5, lo1, lo2, lo3,
    lo4, lo5, lo6] using checked_ok h

theorem pgetV (d : GReg) : Statement (.pgetV d) := by
  intro h e he
  obtain rfl := Option.some.inj he
  refine ⟨?_, by simp [lengthMarked]⟩
  simpa [decodeEncoding, decode32, decodeMap0, decodeMap1, decodeMap2, need, hi4, hi5, hi6, hi2, hi1, mid1, mid2, bit5, lo1, lo2, lo3,
    lo4, lo5, lo6] using checked_ok h

theorem ppeek (d : GReg) : Statement (.ppeek d) := by
  intro h e he
  obtain rfl := Option.some.inj he
  refine ⟨?_, by simp [lengthMarked]⟩
  simpa [decodeEncoding, decode32, decodeMap0, decodeMap1, decodeMap2, need, hi4, hi5, hi6, hi2, hi1, mid1, mid2, bit5, lo1, lo2, lo3,
    lo4, lo5, lo6] using checked_ok h

theorem ppeekV (d : GReg) : Statement (.ppeekV d) := by
  intro h e he
  obtain rfl := Option.some.inj he
  refine ⟨?_, by simp [lengthMarked]⟩
  simpa [decodeEncoding, decode32, decodeMap0, decodeMap1, decodeMap2, need, hi4, hi5, hi6, hi2, hi1, mid1, mid2, bit5, lo1, lo2, lo3,
    lo4, lo5, lo6] using checked_ok h

theorem migrate (d a : GReg) : Statement (.migrate d a) := by
  intro h e he
  obtain rfl := Option.some.inj he
  refine ⟨?_, by simp [lengthMarked]⟩
  simpa [decodeEncoding, decode32, decodeMap0, decodeMap1, decodeMap2, need, hi4, hi5, hi6, hi2, hi1, mid1, mid2, bit5, lo1, lo2, lo3,
    lo4, lo5, lo6] using checked_ok h

theorem lwake (a : GReg) (z : BitVec 1) : Statement (.lwake a z) := by
  intro h e he
  obtain rfl := Option.some.inj he
  refine ⟨?_, by simp [lengthMarked]⟩
  simpa [decodeEncoding, decode32, decodeMap0, decodeMap1, decodeMap2, need, hi4, hi5, hi6, hi2, hi1, mid1, mid2, bit5, lo1, lo2, lo3,
    lo4, lo5, lo6] using checked_ok h

theorem barinit (a b : GReg) : Statement (.barinit a b) := by
  intro h e he
  obtain rfl := Option.some.inj he
  refine ⟨?_, by simp [lengthMarked]⟩
  simpa [decodeEncoding, decode32, decodeMap0, decodeMap1, decodeMap2, need, hi4, hi5, hi6, hi2, hi1, mid1, mid2, bit5, lo1, lo2, lo3,
    lo4, lo5, lo6] using checked_ok h

theorem bararr (d a b : GReg) : Statement (.bararr d a b) := by
  intro h e he
  obtain rfl := Option.some.inj he
  refine ⟨?_, by simp [lengthMarked]⟩
  simpa [decodeEncoding, decode32, decodeMap0, decodeMap1, decodeMap2, need, hi4, hi5, hi6, hi2, hi1, mid1, mid2, bit5, lo1, lo2, lo3,
    lo4, lo5, lo6] using checked_ok h

theorem bardrop (d a b : GReg) : Statement (.bardrop d a b) := by
  intro h e he
  obtain rfl := Option.some.inj he
  refine ⟨?_, by simp [lengthMarked]⟩
  simpa [decodeEncoding, decode32, decodeMap0, decodeMap1, decodeMap2, need, hi4, hi5, hi6, hi2, hi1, mid1, mid2, bit5, lo1, lo2, lo3,
    lo4, lo5, lo6] using checked_ok h

theorem barwait (d a b : GReg) : Statement (.barwait d a b) := by
  intro h e he
  obtain rfl := Option.some.inj he
  refine ⟨?_, by simp [lengthMarked]⟩
  simpa [decodeEncoding, decode32, decodeMap0, decodeMap1, decodeMap2, need, hi4, hi5, hi6, hi2, hi1, mid1, mid2, bit5, lo1, lo2, lo3,
    lo4, lo5, lo6] using checked_ok h

theorem barexp (a b : GReg) : Statement (.barexp a b) := by
  intro h e he
  obtain rfl := Option.some.inj he
  refine ⟨?_, by simp [lengthMarked]⟩
  simpa [decodeEncoding, decode32, decodeMap0, decodeMap1, decodeMap2, need, hi4, hi5, hi6, hi2, hi1, mid1, mid2, bit5, lo1, lo2, lo3,
    lo4, lo5, lo6] using checked_ok h

theorem evsig (a : GReg) : Statement (.evsig a) := by
  intro h e he
  obtain rfl := Option.some.inj he
  refine ⟨?_, by simp [lengthMarked]⟩
  simpa [decodeEncoding, decode32, decodeMap0, decodeMap1, decodeMap2, need, hi4, hi5, hi6, hi2, hi1, mid1, mid2, bit5, lo1, lo2, lo3,
    lo4, lo5, lo6] using checked_ok h

theorem evwait (d a : GReg) : Statement (.evwait d a) := by
  intro h e he
  obtain rfl := Option.some.inj he
  refine ⟨?_, by simp [lengthMarked]⟩
  simpa [decodeEncoding, decode32, decodeMap0, decodeMap1, decodeMap2, need, hi4, hi5, hi6, hi2, hi1, mid1, mid2, bit5, lo1, lo2, lo3,
    lo4, lo5, lo6] using checked_ok h

theorem evclr (a : GReg) : Statement (.evclr a) := by
  intro h e he
  obtain rfl := Option.some.inj he
  refine ⟨?_, by simp [lengthMarked]⟩
  simpa [decodeEncoding, decode32, decodeMap0, decodeMap1, decodeMap2, need, hi4, hi5, hi6, hi2, hi1, mid1, mid2, bit5, lo1, lo2, lo3,
    lo4, lo5, lo6] using checked_ok h

theorem evqry (d a : GReg) : Statement (.evqry d a) := by
  intro h e he
  obtain rfl := Option.some.inj he
  refine ⟨?_, by simp [lengthMarked]⟩
  simpa [decodeEncoding, decode32, decodeMap0, decodeMap1, decodeMap2, need, hi4, hi5, hi6, hi2, hi1, mid1, mid2, bit5, lo1, lo2, lo3,
    lo4, lo5, lo6] using checked_ok h

theorem brdinit (a b : GReg) : Statement (.brdinit a b) := by
  intro h e he
  obtain rfl := Option.some.inj he
  refine ⟨?_, by simp [lengthMarked]⟩
  simpa [decodeEncoding, decode32, decodeMap0, decodeMap1, decodeMap2, need, hi4, hi5, hi6, hi2, hi1, mid1, mid2, bit5, lo1, lo2, lo3,
    lo4, lo5, lo6] using checked_ok h

theorem postv (d a b : GReg) (v : BitVec 2) : Statement (.postv d a b v) := by
  intro h e he
  obtain rfl := Option.some.inj he
  refine ⟨?_, by simp [lengthMarked]⟩
  simpa [decodeEncoding, decode32, decodeMap0, decodeMap1, decodeMap2, need, hi4, hi5, hi6, hi2, hi1, mid1, mid2, bit5, lo1, lo2, lo3,
    lo4, lo5, lo6] using checked_ok h

theorem brdread (d a b : GReg) (v : BitVec 2) : Statement (.brdread d a b v) := by
  intro h e he
  obtain rfl := Option.some.inj he
  refine ⟨?_, by simp [lengthMarked]⟩
  simpa [decodeEncoding, decode32, decodeMap0, decodeMap1, decodeMap2, need, hi4, hi5, hi6, hi2, hi1, mid1, mid2, bit5, lo1, lo2, lo3,
    lo4, lo5, lo6] using checked_ok h

theorem brdclr (a : GReg) : Statement (.brdclr a) := by
  intro h e he
  obtain rfl := Option.some.inj he
  refine ⟨?_, by simp [lengthMarked]⟩
  simpa [decodeEncoding, decode32, decodeMap0, decodeMap1, decodeMap2, need, hi4, hi5, hi6, hi2, hi1, mid1, mid2, bit5, lo1, lo2, lo3,
    lo4, lo5, lo6] using checked_ok h

theorem gang (i : BitVec 12) : Statement (.gang i) := by
  intro h e he
  obtain rfl := Option.some.inj he
  refine ⟨?_, by simp [lengthMarked]⟩
  simpa [decodeEncoding, decode32, decodeMap0, decodeMap1, decodeMap2, need, hi4, hi5, hi6, hi2, hi1, mid1, mid2, bit5, lo1, lo2, lo3,
    lo4, lo5, lo6] using checked_ok h

theorem ungang : Statement .ungang := by
  intro h e he
  obtain rfl := Option.some.inj he
  refine ⟨?_, by simp [lengthMarked]⟩
  simpa [decodeEncoding, decode32, decodeMap0, decodeMap1, decodeMap2, need, hi4, hi5, hi6, hi2, hi1, mid1, mid2, bit5, lo1, lo2, lo3,
    lo4, lo5, lo6] using checked_ok h

theorem yield : Statement .yield := by
  intro h e he
  obtain rfl := Option.some.inj he
  refine ⟨?_, by simp [lengthMarked]⟩
  simpa [decodeEncoding, decode32, decodeMap0, decodeMap1, decodeMap2, need, hi4, hi5, hi6, hi2, hi1, mid1, mid2, bit5, lo1, lo2, lo3,
    lo4, lo5, lo6] using checked_ok h

theorem wait (d a : GReg) (w : BitVec 2) : Statement (.wait d a w) := by
  intro h e he
  obtain rfl := Option.some.inj he
  refine ⟨?_, by simp [lengthMarked]⟩
  simpa [decodeEncoding, decode32, decodeMap0, decodeMap1, decodeMap2, need, hi4, hi5, hi6, hi2, hi1, mid1, mid2, bit5, lo1, lo2, lo3,
    lo4, lo5, lo6] using checked_ok h

theorem tsync : Statement .tsync := by
  intro h e he
  obtain rfl := Option.some.inj he
  refine ⟨?_, by simp [lengthMarked]⟩
  simpa [decodeEncoding, decode32, decodeMap0, decodeMap1, decodeMap2, need, hi4, hi5, hi6, hi2, hi1, mid1, mid2, bit5, lo1, lo2, lo3,
    lo4, lo5, lo6] using checked_ok h

theorem retire : Statement .retire := by
  intro h e he
  obtain rfl := Option.some.inj he
  refine ⟨?_, by simp [lengthMarked]⟩
  simpa [decodeEncoding, decode32, decodeMap0, decodeMap1, decodeMap2, need, hi4, hi5, hi6, hi2, hi1, mid1, mid2, bit5, lo1, lo2, lo3,
    lo4, lo5, lo6] using checked_ok h

theorem nop : Statement .nop := by
  intro h e he
  obtain rfl := Option.some.inj he
  refine ⟨?_, by simp [lengthMarked]⟩
  simpa [decodeEncoding, decode32, decodeMap0, decodeMap1, decodeMap2, need, hi4, hi5, hi6, hi2, hi1, mid1, mid2, bit5, lo1, lo2, lo3,
    lo4, lo5, lo6] using checked_ok h

theorem brk (i : BitVec 12) : Statement (.brk i) := by
  intro h e he
  obtain rfl := Option.some.inj he
  refine ⟨?_, by simp [lengthMarked]⟩
  simpa [decodeEncoding, decode32, decodeMap0, decodeMap1, decodeMap2, need, hi4, hi5, hi6, hi2, hi1, mid1, mid2, bit5, lo1, lo2, lo3,
    lo4, lo5, lo6] using checked_ok h

theorem qpush (d a : GReg) : Statement (.qpush d a) := by
  intro h e he
  obtain rfl := Option.some.inj he
  refine ⟨?_, by simp [lengthMarked]⟩
  simpa [decodeEncoding, decode32, decodeMap0, decodeMap1, decodeMap2, need, hi4, hi5, hi6, hi2, hi1, mid1, mid2, bit5, lo1, lo2, lo3,
    lo4, lo5, lo6] using checked_ok h

theorem qpop (d a : GReg) : Statement (.qpop d a) := by
  intro h e he
  obtain rfl := Option.some.inj he
  refine ⟨?_, by simp [lengthMarked]⟩
  simpa [decodeEncoding, decode32, decodeMap0, decodeMap1, decodeMap2, need, hi4, hi5, hi6, hi2, hi1, mid1, mid2, bit5, lo1, lo2, lo3,
    lo4, lo5, lo6] using checked_ok h

theorem spawn (d a : GReg) (t : BitVec 1) : Statement (.spawn d a t) := by
  intro h e he
  obtain rfl := Option.some.inj he
  refine ⟨?_, by simp [lengthMarked]⟩
  simpa [decodeEncoding, decode32, decodeMap0, decodeMap1, decodeMap2, need, hi4, hi5, hi6, hi2, hi1, mid1, mid2, bit5, lo1, lo2, lo3,
    lo4, lo5, lo6] using checked_ok h

theorem launch (d a : GReg) : Statement (.launch d a) := by
  intro h e he
  obtain rfl := Option.some.inj he
  refine ⟨?_, by simp [lengthMarked]⟩
  simpa [decodeEncoding, decode32, decodeMap0, decodeMap1, decodeMap2, need, hi4, hi5, hi6, hi2, hi1, mid1, mid2, bit5, lo1, lo2, lo3,
    lo4, lo5, lo6] using checked_ok h

theorem cplsig : Statement .cplsig := by
  intro h e he
  obtain rfl := Option.some.inj he
  refine ⟨?_, by simp [lengthMarked]⟩
  simpa [decodeEncoding, decode32, decodeMap0, decodeMap1, decodeMap2, need, hi4, hi5, hi6, hi2, hi1, mid1, mid2, bit5, lo1, lo2, lo3,
    lo4, lo5, lo6] using checked_ok h

theorem cplsigTask (a : GReg) : Statement (.cplsigTask a) := by
  intro h e he
  obtain rfl := Option.some.inj he
  refine ⟨?_, by simp [lengthMarked]⟩
  simpa [decodeEncoding, decode32, decodeMap0, decodeMap1, decodeMap2, need, hi4, hi5, hi6, hi2, hi1, mid1, mid2, bit5, lo1, lo2, lo3,
    lo4, lo5, lo6] using checked_ok h

theorem mwait (d a : GReg) : Statement (.mwait d a) := by
  intro h e he
  obtain rfl := Option.some.inj he
  refine ⟨?_, by simp [lengthMarked]⟩
  simpa [decodeEncoding, decode32, decodeMap0, decodeMap1, decodeMap2, need, hi4, hi5, hi6, hi2, hi1, mid1, mid2, bit5, lo1, lo2, lo3,
    lo4, lo5, lo6] using checked_ok h

theorem mstat (d a : GReg) : Statement (.mstat d a) := by
  intro h e he
  obtain rfl := Option.some.inj he
  refine ⟨?_, by simp [lengthMarked]⟩
  simpa [decodeEncoding, decode32, decodeMap0, decodeMap1, decodeMap2, need, hi4, hi5, hi6, hi2, hi1, mid1, mid2, bit5, lo1, lo2, lo3,
    lo4, lo5, lo6] using checked_ok h

theorem cstat (d a : GReg) : Statement (.cstat d a) := by
  intro h e he
  obtain rfl := Option.some.inj he
  refine ⟨?_, by simp [lengthMarked]⟩
  simpa [decodeEncoding, decode32, decodeMap0, decodeMap1, decodeMap2, need, hi4, hi5, hi6, hi2, hi1, mid1, mid2, bit5, lo1, lo2, lo3,
    lo4, lo5, lo6] using checked_ok h

theorem lvlmap (a : GReg) (l : BitVec 3) : Statement (.lvlmap a l) := by
  intro h e he
  obtain rfl := Option.some.inj he
  refine ⟨?_, by simp [lengthMarked]⟩
  simpa [decodeEncoding, decode32, decodeMap0, decodeMap1, decodeMap2, need, hi4, hi5, hi6, hi2, hi1, mid1, mid2, bit5, lo1, lo2, lo3,
    lo4, lo5, lo6] using checked_ok h

theorem lvlrun (a b : GReg) (p : BitVec 2) (l : BitVec 3) : Statement (.lvlrun a b p l) := by
  intro h e he
  obtain rfl := Option.some.inj he
  refine ⟨?_, by simp [lengthMarked]⟩
  simpa [decodeEncoding, decode32, decodeMap0, decodeMap1, decodeMap2, need, hi4, hi5, hi6, hi2, hi1, mid1, mid2, bit5, lo1, lo2, lo3,
    lo4, lo5, lo6] using checked_ok h

theorem trap (i : BitVec 12) : Statement (.trap i) := by
  intro h e he
  obtain rfl := Option.some.inj he
  refine ⟨?_, by simp [lengthMarked]⟩
  simpa [decodeEncoding, decode32, decodeMap0, decodeMap1, decodeMap2, need, hi4, hi5, hi6, hi2, hi1, mid1, mid2, bit5, lo1, lo2, lo3,
    lo4, lo5, lo6] using checked_ok h

theorem eret : Statement .eret := by
  intro h e he
  obtain rfl := Option.some.inj he
  refine ⟨?_, by simp [lengthMarked]⟩
  simpa [decodeEncoding, decode32, decodeMap0, decodeMap1, decodeMap2, need, hi4, hi5, hi6, hi2, hi1, mid1, mid2, bit5, lo1, lo2, lo3,
    lo4, lo5, lo6] using checked_ok h

theorem srr (d : GReg) (i : BitVec 12) : Statement (.srr d i) := by
  intro h e he
  obtain rfl := Option.some.inj he
  refine ⟨?_, by simp [lengthMarked]⟩
  simpa [decodeEncoding, decode32, decodeMap0, decodeMap1, decodeMap2, need, hi4, hi5, hi6, hi2, hi1, mid1, mid2, bit5, lo1, lo2, lo3,
    lo4, lo5, lo6] using checked_ok h

theorem srw (a : GReg) (i : BitVec 12) : Statement (.srw a i) := by
  intro h e he
  obtain rfl := Option.some.inj he
  refine ⟨?_, by simp [lengthMarked]⟩
  simpa [decodeEncoding, decode32, decodeMap0, decodeMap1, decodeMap2, need, hi4, hi5, hi6, hi2, hi1, mid1, mid2, bit5, lo1, lo2, lo3,
    lo4, lo5, lo6] using checked_ok h

theorem srs (d a : GReg) (i : BitVec 12) : Statement (.srs d a i) := by
  intro h e he
  obtain rfl := Option.some.inj he
  refine ⟨?_, by simp [lengthMarked]⟩
  simpa [decodeEncoding, decode32, decodeMap0, decodeMap1, decodeMap2, need, hi4, hi5, hi6, hi2, hi1, mid1, mid2, bit5, lo1, lo2, lo3,
    lo4, lo5, lo6] using checked_ok h

theorem src (d a : GReg) (i : BitVec 12) : Statement (.src d a i) := by
  intro h e he
  obtain rfl := Option.some.inj he
  refine ⟨?_, by simp [lengthMarked]⟩
  simpa [decodeEncoding, decode32, decodeMap0, decodeMap1, decodeMap2, need, hi4, hi5, hi6, hi2, hi1, mid1, mid2, bit5, lo1, lo2, lo3,
    lo4, lo5, lo6] using checked_ok h

theorem partset (a : GReg) : Statement (.partset a) := by
  intro h e he
  obtain rfl := Option.some.inj he
  refine ⟨?_, by simp [lengthMarked]⟩
  simpa [decodeEncoding, decode32, decodeMap0, decodeMap1, decodeMap2, need, hi4, hi5, hi6, hi2, hi1, mid1, mid2, bit5, lo1, lo2, lo3,
    lo4, lo5, lo6] using checked_ok h

theorem tlbinv (a b : GReg) (k : BitVec 2) : Statement (.tlbinv a b k) := by
  intro h e he
  obtain rfl := Option.some.inj he
  refine ⟨?_, by simp [lengthMarked]⟩
  simpa [decodeEncoding, decode32, decodeMap0, decodeMap1, decodeMap2, need, hi4, hi5, hi6, hi2, hi1, mid1, mid2, bit5, lo1, lo2, lo3,
    lo4, lo5, lo6] using checked_ok h

theorem ctxsave (d a : GReg) : Statement (.ctxsave d a) := by
  intro h e he
  obtain rfl := Option.some.inj he
  refine ⟨?_, by simp [lengthMarked]⟩
  simpa [decodeEncoding, decode32, decodeMap0, decodeMap1, decodeMap2, need, hi4, hi5, hi6, hi2, hi1, mid1, mid2, bit5, lo1, lo2, lo3,
    lo4, lo5, lo6] using checked_ok h

theorem ctxload (a : GReg) : Statement (.ctxload a) := by
  intro h e he
  obtain rfl := Option.some.inj he
  refine ⟨?_, by simp [lengthMarked]⟩
  simpa [decodeEncoding, decode32, decodeMap0, decodeMap1, decodeMap2, need, hi4, hi5, hi6, hi2, hi1, mid1, mid2, bit5, lo1, lo2, lo3,
    lo4, lo5, lo6] using checked_ok h

theorem curve (a : GReg) (c : BitVec 2) : Statement (.curve a c) := by
  intro h e he
  obtain rfl := Option.some.inj he
  refine ⟨?_, by simp [lengthMarked]⟩
  simpa [decodeEncoding, decode32, decodeMap0, decodeMap1, decodeMap2, need, hi4, hi5, hi6, hi2, hi1, mid1, mid2, bit5, lo1, lo2, lo3,
    lo4, lo5, lo6] using checked_ok h

theorem tsread (d : GReg) : Statement (.tsread d) := by
  intro h e he
  obtain rfl := Option.some.inj he
  refine ⟨?_, by simp [lengthMarked]⟩
  simpa [decodeEncoding, decode32, decodeMap0, decodeMap1, decodeMap2, need, hi4, hi5, hi6, hi2, hi1, mid1, mid2, bit5, lo1, lo2, lo3,
    lo4, lo5, lo6] using checked_ok h

theorem halt : Statement .halt := by
  intro h e he
  obtain rfl := Option.some.inj he
  refine ⟨?_, by simp [lengthMarked]⟩
  simpa [decodeEncoding, decode32, decodeMap0, decodeMap1, decodeMap2, need, hi4, hi5, hi6, hi2, hi1, mid1, mid2, bit5, lo1, lo2, lo3,
    lo4, lo5, lo6] using checked_ok h

theorem cAdd (d a : GReg) : Statement (.cAdd d a) := by
  intro h e he
  obtain rfl := Option.some.inj he
  refine ⟨?_, by simp [lengthMarked]⟩
  simpa [decodeEncoding, decode16, need, wordCR_ne 1#4 d a (by decide)] using checked_ok h

theorem cSub (d a : GReg) : Statement (.cSub d a) := by
  intro h e he
  obtain rfl := Option.some.inj he
  refine ⟨?_, by simp [lengthMarked]⟩
  simpa [decodeEncoding, decode16, need, wordCR_ne 2#4 d a (by decide)] using checked_ok h

theorem cAnd (d a : GReg) : Statement (.cAnd d a) := by
  intro h e he
  obtain rfl := Option.some.inj he
  refine ⟨?_, by simp [lengthMarked]⟩
  simpa [decodeEncoding, decode16, need, wordCR_ne 3#4 d a (by decide)] using checked_ok h

theorem cOr (d a : GReg) : Statement (.cOr d a) := by
  intro h e he
  obtain rfl := Option.some.inj he
  refine ⟨?_, by simp [lengthMarked]⟩
  simpa [decodeEncoding, decode16, need, wordCR_ne 4#4 d a (by decide)] using checked_ok h

theorem cXor (d a : GReg) : Statement (.cXor d a) := by
  intro h e he
  obtain rfl := Option.some.inj he
  refine ⟨?_, by simp [lengthMarked]⟩
  simpa [decodeEncoding, decode16, need, wordCR_ne 5#4 d a (by decide)] using checked_ok h

theorem cShl (d a : GReg) : Statement (.cShl d a) := by
  intro h e he
  obtain rfl := Option.some.inj he
  refine ⟨?_, by simp [lengthMarked]⟩
  simpa [decodeEncoding, decode16, need, wordCR_ne 6#4 d a (by decide)] using checked_ok h

theorem cShr (d a : GReg) : Statement (.cShr d a) := by
  intro h e he
  obtain rfl := Option.some.inj he
  refine ⟨?_, by simp [lengthMarked]⟩
  simpa [decodeEncoding, decode16, need, wordCR_ne 7#4 d a (by decide)] using checked_ok h

theorem cSar (d a : GReg) : Statement (.cSar d a) := by
  intro h e he
  obtain rfl := Option.some.inj he
  refine ⟨?_, by simp [lengthMarked]⟩
  simpa [decodeEncoding, decode16, need, wordCR_ne 8#4 d a (by decide)] using checked_ok h

theorem cMul (d a : GReg) : Statement (.cMul d a) := by
  intro h e he
  obtain rfl := Option.some.inj he
  refine ⟨?_, by simp [lengthMarked]⟩
  simpa [decodeEncoding, decode16, need, wordCR_ne 9#4 d a (by decide)] using checked_ok h

theorem cMin (d a : GReg) : Statement (.cMin d a) := by
  intro h e he
  obtain rfl := Option.some.inj he
  refine ⟨?_, by simp [lengthMarked]⟩
  simpa [decodeEncoding, decode16, need, wordCR_ne 10#4 d a (by decide)] using checked_ok h

theorem cMax (d a : GReg) : Statement (.cMax d a) := by
  intro h e he
  obtain rfl := Option.some.inj he
  refine ⟨?_, by simp [lengthMarked]⟩
  simpa [decodeEncoding, decode16, need, wordCR_ne 11#4 d a (by decide)] using checked_ok h

theorem cMinu (d a : GReg) : Statement (.cMinu d a) := by
  intro h e he
  obtain rfl := Option.some.inj he
  refine ⟨?_, by simp [lengthMarked]⟩
  simpa [decodeEncoding, decode16, need, wordCR_ne 12#4 d a (by decide)] using checked_ok h

theorem cMaxu (d a : GReg) : Statement (.cMaxu d a) := by
  intro h e he
  obtain rfl := Option.some.inj he
  refine ⟨?_, by simp [lengthMarked]⟩
  simpa [decodeEncoding, decode16, need, wordCR_ne 13#4 d a (by decide)] using checked_ok h

theorem cSlt (d a : GReg) : Statement (.cSlt d a) := by
  intro h e he
  obtain rfl := Option.some.inj he
  refine ⟨?_, by simp [lengthMarked]⟩
  simpa [decodeEncoding, decode16, need, wordCR_ne 14#4 d a (by decide)] using checked_ok h

theorem cMov (d a : GReg) : Statement (.cMov d a) := by
  intro h e he
  obtain rfl := Option.some.inj he
  refine ⟨?_, by simp [lengthMarked]⟩
  simpa [decodeEncoding, decode16, need, wordCR_ne 15#4 d a (by decide)] using checked_ok h

theorem cAddi (d : GReg) (i : BitVec 6) : Statement (.cAddi d i) := by
  intro h e he
  obtain rfl := Option.some.inj he
  refine ⟨?_, by simp [lengthMarked]⟩
  simpa [decodeEncoding, decode16, need, wordCI_ne] using checked_ok h

theorem cLi (d : GReg) (i : BitVec 6) : Statement (.cLi d i) := by
  intro h e he
  obtain rfl := Option.some.inj he
  refine ⟨?_, by simp [lengthMarked]⟩
  simpa [decodeEncoding, decode16, need, wordCI_ne] using checked_ok h

theorem cShli (d : GReg) (u : BitVec 6) : Statement (.cShli d u) := by
  intro h e he
  obtain rfl := Option.some.inj he
  refine ⟨?_, by simp [lengthMarked]⟩
  simpa [decodeEncoding, decode16, need, wordCI_ne] using checked_ok h

theorem cShri (d : GReg) (u : BitVec 6) : Statement (.cShri d u) := by
  intro h e he
  obtain rfl := Option.some.inj he
  refine ⟨?_, by simp [lengthMarked]⟩
  simpa [decodeEncoding, decode16, need, wordCI_ne] using checked_ok h

theorem cSari (d : GReg) (u : BitVec 6) : Statement (.cSari d u) := by
  intro h e he
  obtain rfl := Option.some.inj he
  refine ⟨?_, by simp [lengthMarked]⟩
  simpa [decodeEncoding, decode16, need, wordCI_ne] using checked_ok h

theorem cAndi (d : GReg) (i : BitVec 6) : Statement (.cAndi d i) := by
  intro h e he
  obtain rfl := Option.some.inj he
  refine ⟨?_, by simp [lengthMarked]⟩
  simpa [decodeEncoding, decode16, need, wordCI_ne] using checked_ok h

theorem cCaddi (d : GReg) (i : BitVec 6) : Statement (.cCaddi d i) := by
  intro h e he
  obtain rfl := Option.some.inj he
  refine ⟨?_, by simp [lengthMarked]⟩
  simpa [decodeEncoding, decode16, need, wordCI_ne] using checked_ok h

theorem cNop : Statement .cNop := by
  intro h e he
  obtain rfl := Option.some.inj he
  refine ⟨?_, by simp [lengthMarked]⟩
  simpa [decodeEncoding, decode16, need, wordCS_ne] using checked_ok h

theorem cRet : Statement .cRet := by
  intro h e he
  obtain rfl := Option.some.inj he
  refine ⟨?_, by simp [lengthMarked]⟩
  simpa [decodeEncoding, decode16, need, wordCS_ne] using checked_ok h

theorem cYield : Statement .cYield := by
  intro h e he
  obtain rfl := Option.some.inj he
  refine ⟨?_, by simp [lengthMarked]⟩
  simpa [decodeEncoding, decode16, need, wordCS_ne] using checked_ok h

theorem cTsync : Statement .cTsync := by
  intro h e he
  obtain rfl := Option.some.inj he
  refine ⟨?_, by simp [lengthMarked]⟩
  simpa [decodeEncoding, decode16, need, wordCS_ne] using checked_ok h

theorem cRetire : Statement .cRetire := by
  intro h e he
  obtain rfl := Option.some.inj he
  refine ⟨?_, by simp [lengthMarked]⟩
  simpa [decodeEncoding, decode16, need, wordCS_ne] using checked_ok h

theorem cUngang : Statement .cUngang := by
  intro h e he
  obtain rfl := Option.some.inj he
  refine ⟨?_, by simp [lengthMarked]⟩
  simpa [decodeEncoding, decode16, need, wordCS_ne] using checked_ok h

theorem cBrk (i : BitVec 10) : Statement (.cBrk i) := by
  intro h e he
  obtain rfl := Option.some.inj he
  refine ⟨?_, by simp [lengthMarked]⟩
  simpa [decodeEncoding, decode16, need, wordCS_ne] using checked_ok h

theorem liW (d : GReg) (imm : BitVec 64) : Statement (.liW d imm) := by
  intro h e he
  obtain rfl := Option.some.inj he
  refine ⟨?_, by rw [lengthMarked, liW_mark]; rfl⟩
  have ho := liW_op d imm
  rw [decodeEncoding, decode80, assemble80, if_neg (by omega), if_neg (by omega), liW_top, if_pos (by decide), liW_d, liW_imm]
  exact checked_ok h

theorem safept (gm vm : BitVec 32) : Statement (.safept gm vm) := by
  intro h e he
  obtain rfl := Option.some.inj he
  refine ⟨?_, by rw [lengthMarked, safept_mark]; rfl⟩
  rw [decodeEncoding, decode80, assemble80, safept_op, if_neg (by decide), if_neg (by decide), safept_top, if_neg (by decide),
    safept_all, if_pos (by decide), safept_gm, safept_vm]
  exact checked_ok h

theorem vadd (f : SForm) : Statement (.vadd f) := by
  intro h e he
  obtain rfl := Option.some.inj he
  refine ⟨?_, by simp [lengthMarked]⟩
  rw [decodeEncoding, decode80_sched _ _ (by decide)]
  exact checked_ok h

theorem vsub (f : SForm) : Statement (.vsub f) := by
  intro h e he
  obtain rfl := Option.some.inj he
  refine ⟨?_, by simp [lengthMarked]⟩
  rw [decodeEncoding, decode80_sched _ _ (by decide)]
  exact checked_ok h

theorem vmul (f : SForm) : Statement (.vmul f) := by
  intro h e he
  obtain rfl := Option.some.inj he
  refine ⟨?_, by simp [lengthMarked]⟩
  rw [decodeEncoding, decode80_sched _ _ (by decide)]
  exact checked_ok h

theorem vfma (f : SForm) : Statement (.vfma f) := by
  intro h e he
  obtain rfl := Option.some.inj he
  refine ⟨?_, by simp [lengthMarked]⟩
  rw [decodeEncoding, decode80_sched _ _ (by decide)]
  exact checked_ok h

theorem vfms (f : SForm) : Statement (.vfms f) := by
  intro h e he
  obtain rfl := Option.some.inj he
  refine ⟨?_, by simp [lengthMarked]⟩
  rw [decodeEncoding, decode80_sched _ _ (by decide)]
  exact checked_ok h

theorem vfnma (f : SForm) : Statement (.vfnma f) := by
  intro h e he
  obtain rfl := Option.some.inj he
  refine ⟨?_, by simp [lengthMarked]⟩
  rw [decodeEncoding, decode80_sched _ _ (by decide)]
  exact checked_ok h

theorem vdiv (f : SForm) : Statement (.vdiv f) := by
  intro h e he
  obtain rfl := Option.some.inj he
  refine ⟨?_, by simp [lengthMarked]⟩
  rw [decodeEncoding, decode80_sched _ _ (by decide)]
  exact checked_ok h

theorem vsqrt (f : SForm) : Statement (.vsqrt f) := by
  intro h e he
  obtain rfl := Option.some.inj he
  refine ⟨?_, by simp [lengthMarked]⟩
  rw [decodeEncoding, decode80_sched _ _ (by decide)]
  exact checked_ok h

theorem vmin (f : SForm) : Statement (.vmin f) := by
  intro h e he
  obtain rfl := Option.some.inj he
  refine ⟨?_, by simp [lengthMarked]⟩
  rw [decodeEncoding, decode80_sched _ _ (by decide)]
  exact checked_ok h

theorem vmax (f : SForm) : Statement (.vmax f) := by
  intro h e he
  obtain rfl := Option.some.inj he
  refine ⟨?_, by simp [lengthMarked]⟩
  rw [decodeEncoding, decode80_sched _ _ (by decide)]
  exact checked_ok h

theorem vabs (f : SForm) : Statement (.vabs f) := by
  intro h e he
  obtain rfl := Option.some.inj he
  refine ⟨?_, by simp [lengthMarked]⟩
  rw [decodeEncoding, decode80_sched _ _ (by decide)]
  exact checked_ok h

theorem vneg (f : SForm) : Statement (.vneg f) := by
  intro h e he
  obtain rfl := Option.some.inj he
  refine ⟨?_, by simp [lengthMarked]⟩
  rw [decodeEncoding, decode80_sched _ _ (by decide)]
  exact checked_ok h

theorem vcmp (f : SForm) : Statement (.vcmp f) := by
  intro h e he
  obtain rfl := Option.some.inj he
  refine ⟨?_, by simp [lengthMarked]⟩
  rw [decodeEncoding, decode80_sched _ _ (by decide)]
  exact checked_ok h

theorem vsel (f : SForm) : Statement (.vsel f) := by
  intro h e he
  obtain rfl := Option.some.inj he
  refine ⟨?_, by simp [lengthMarked]⟩
  rw [decodeEncoding, decode80_sched _ _ (by decide)]
  exact checked_ok h

theorem vand (f : SForm) : Statement (.vand f) := by
  intro h e he
  obtain rfl := Option.some.inj he
  refine ⟨?_, by simp [lengthMarked]⟩
  rw [decodeEncoding, decode80_sched _ _ (by decide)]
  exact checked_ok h

theorem vor (f : SForm) : Statement (.vor f) := by
  intro h e he
  obtain rfl := Option.some.inj he
  refine ⟨?_, by simp [lengthMarked]⟩
  rw [decodeEncoding, decode80_sched _ _ (by decide)]
  exact checked_ok h

theorem vxor (f : SForm) : Statement (.vxor f) := by
  intro h e he
  obtain rfl := Option.some.inj he
  refine ⟨?_, by simp [lengthMarked]⟩
  rw [decodeEncoding, decode80_sched _ _ (by decide)]
  exact checked_ok h

theorem vnot (f : SForm) : Statement (.vnot f) := by
  intro h e he
  obtain rfl := Option.some.inj he
  refine ⟨?_, by simp [lengthMarked]⟩
  rw [decodeEncoding, decode80_sched _ _ (by decide)]
  exact checked_ok h

theorem vshl (f : SForm) : Statement (.vshl f) := by
  intro h e he
  obtain rfl := Option.some.inj he
  refine ⟨?_, by simp [lengthMarked]⟩
  rw [decodeEncoding, decode80_sched _ _ (by decide)]
  exact checked_ok h

theorem vshr (f : SForm) : Statement (.vshr f) := by
  intro h e he
  obtain rfl := Option.some.inj he
  refine ⟨?_, by simp [lengthMarked]⟩
  rw [decodeEncoding, decode80_sched _ _ (by decide)]
  exact checked_ok h

theorem vsar (f : SForm) : Statement (.vsar f) := by
  intro h e he
  obtain rfl := Option.some.inj he
  refine ⟨?_, by simp [lengthMarked]⟩
  rw [decodeEncoding, decode80_sched _ _ (by decide)]
  exact checked_ok h

theorem viadd (f : SForm) : Statement (.viadd f) := by
  intro h e he
  obtain rfl := Option.some.inj he
  refine ⟨?_, by simp [lengthMarked]⟩
  rw [decodeEncoding, decode80_sched _ _ (by decide)]
  exact checked_ok h

theorem visub (f : SForm) : Statement (.visub f) := by
  intro h e he
  obtain rfl := Option.some.inj he
  refine ⟨?_, by simp [lengthMarked]⟩
  rw [decodeEncoding, decode80_sched _ _ (by decide)]
  exact checked_ok h

theorem vimul (f : SForm) : Statement (.vimul f) := by
  intro h e he
  obtain rfl := Option.some.inj he
  refine ⟨?_, by simp [lengthMarked]⟩
  rw [decodeEncoding, decode80_sched _ _ (by decide)]
  exact checked_ok h

theorem vcvt (f : SForm) : Statement (.vcvt f) := by
  intro h e he
  obtain rfl := Option.some.inj he
  refine ⟨?_, by simp [lengthMarked]⟩
  rw [decodeEncoding, decode80_sched _ _ (by decide)]
  exact checked_ok h

theorem vscl (f : SForm) : Statement (.vscl f) := by
  intro h e he
  obtain rfl := Option.some.inj he
  refine ⟨?_, by simp [lengthMarked]⟩
  rw [decodeEncoding, decode80_sched _ _ (by decide)]
  exact checked_ok h

theorem vpack (f : SForm) : Statement (.vpack f) := by
  intro h e he
  obtain rfl := Option.some.inj he
  refine ⟨?_, by simp [lengthMarked]⟩
  rw [decodeEncoding, decode80_sched _ _ (by decide)]
  exact checked_ok h

theorem vunpk (f : SForm) : Statement (.vunpk f) := by
  intro h e he
  obtain rfl := Option.some.inj he
  refine ⟨?_, by simp [lengthMarked]⟩
  rw [decodeEncoding, decode80_sched _ _ (by decide)]
  exact checked_ok h

theorem vred (f : SForm) : Statement (.vred f) := by
  intro h e he
  obtain rfl := Option.some.inj he
  refine ⟨?_, by simp [lengthMarked]⟩
  rw [decodeEncoding, decode80_sched _ _ (by decide)]
  exact checked_ok h

theorem vscan (f : SForm) : Statement (.vscan f) := by
  intro h e he
  obtain rfl := Option.some.inj he
  refine ⟨?_, by simp [lengthMarked]⟩
  rw [decodeEncoding, decode80_sched _ _ (by decide)]
  exact checked_ok h

theorem vperm (f : SForm) : Statement (.vperm f) := by
  intro h e he
  obtain rfl := Option.some.inj he
  refine ⟨?_, by simp [lengthMarked]⟩
  rw [decodeEncoding, decode80_sched _ _ (by decide)]
  exact checked_ok h

theorem vbcast (f : SForm) : Statement (.vbcast f) := by
  intro h e he
  obtain rfl := Option.some.inj he
  refine ⟨?_, by simp [lengthMarked]⟩
  rw [decodeEncoding, decode80_sched _ _ (by decide)]
  have hm : f.md = 0 := md_vbcast h
  simpa [decodeSched, hm] using checked_ok h

theorem vbcastE (f : SForm) : Statement (.vbcastE f) := by
  intro h e he
  obtain rfl := Option.some.inj he
  refine ⟨?_, by simp [lengthMarked]⟩
  rw [decodeEncoding, decode80_sched _ _ (by decide)]
  have hm : ¬ f.md = 0#4 := md_vbcastE h
  simpa [decodeSched, hm] using checked_ok h

theorem vmovgG (f : SForm) : Statement (.vmovgG f) := by
  intro h e he
  obtain rfl := Option.some.inj he
  refine ⟨?_, by simp [lengthMarked]⟩
  rw [decodeEncoding, decode80_sched _ _ (by decide)]
  have hm : f.md = 0 := md_vmovgG h
  simpa [decodeSched, hm] using checked_ok h

theorem vmovgV (f : SForm) : Statement (.vmovgV f) := by
  intro h e he
  obtain rfl := Option.some.inj he
  refine ⟨?_, by simp [lengthMarked]⟩
  rw [decodeEncoding, decode80_sched _ _ (by decide)]
  have hm : ¬ f.md = 0#4 := md_vmovgV h
  simpa [decodeSched, hm] using checked_ok h

theorem vidx (f : SForm) : Statement (.vidx f) := by
  intro h e he
  obtain rfl := Option.some.inj he
  refine ⟨?_, by simp [lengthMarked]⟩
  rw [decodeEncoding, decode80_sched _ _ (by decide)]
  exact checked_ok h

theorem vcomp (f : SForm) : Statement (.vcomp f) := by
  intro h e he
  obtain rfl := Option.some.inj he
  refine ⟨?_, by simp [lengthMarked]⟩
  rw [decodeEncoding, decode80_sched _ _ (by decide)]
  exact checked_ok h

theorem vexpd (f : SForm) : Statement (.vexpd f) := by
  intro h e he
  obtain rfl := Option.some.inj he
  refine ⟨?_, by simp [lengthMarked]⟩
  rw [decodeEncoding, decode80_sched _ _ (by decide)]
  exact checked_ok h

theorem vrcp (f : SForm) : Statement (.vrcp f) := by
  intro h e he
  obtain rfl := Option.some.inj he
  refine ⟨?_, by simp [lengthMarked]⟩
  rw [decodeEncoding, decode80_sched _ _ (by decide)]
  exact checked_ok h

theorem vrsq (f : SForm) : Statement (.vrsq f) := by
  intro h e he
  obtain rfl := Option.some.inj he
  refine ⟨?_, by simp [lengthMarked]⟩
  rw [decodeEncoding, decode80_sched _ _ (by decide)]
  exact checked_ok h

theorem vexp2 (f : SForm) : Statement (.vexp2 f) := by
  intro h e he
  obtain rfl := Option.some.inj he
  refine ⟨?_, by simp [lengthMarked]⟩
  rw [decodeEncoding, decode80_sched _ _ (by decide)]
  exact checked_ok h

theorem vlog2 (f : SForm) : Statement (.vlog2 f) := by
  intro h e he
  obtain rfl := Option.some.inj he
  refine ⟨?_, by simp [lengthMarked]⟩
  rw [decodeEncoding, decode80_sched _ _ (by decide)]
  exact checked_ok h

theorem vsin (f : SForm) : Statement (.vsin f) := by
  intro h e he
  obtain rfl := Option.some.inj he
  refine ⟨?_, by simp [lengthMarked]⟩
  rw [decodeEncoding, decode80_sched _ _ (by decide)]
  exact checked_ok h

theorem vcos (f : SForm) : Statement (.vcos f) := by
  intro h e he
  obtain rfl := Option.some.inj he
  refine ⟨?_, by simp [lengthMarked]⟩
  rw [decodeEncoding, decode80_sched _ _ (by decide)]
  exact checked_ok h

theorem vtanh (f : SForm) : Statement (.vtanh f) := by
  intro h e he
  obtain rfl := Option.some.inj he
  refine ⟨?_, by simp [lengthMarked]⟩
  rw [decodeEncoding, decode80_sched _ _ (by decide)]
  exact checked_ok h

theorem vkey (f : SForm) : Statement (.vkey f) := by
  intro h e he
  obtain rfl := Option.some.inj he
  refine ⟨?_, by simp [lengthMarked]⟩
  rw [decodeEncoding, decode80_sched _ _ (by decide)]
  exact checked_ok h

theorem vhash (f : SForm) : Statement (.vhash f) := by
  intro h e he
  obtain rfl := Option.some.inj he
  refine ⟨?_, by simp [lengthMarked]⟩
  rw [decodeEncoding, decode80_sched _ _ (by decide)]
  exact checked_ok h

theorem vbin (f : SForm) : Statement (.vbin f) := by
  intro h e he
  obtain rfl := Option.some.inj he
  refine ⟨?_, by simp [lengthMarked]⟩
  rw [decodeEncoding, decode80_sched _ _ (by decide)]
  exact checked_ok h

theorem vpair (f : SForm) : Statement (.vpair f) := by
  intro h e he
  obtain rfl := Option.some.inj he
  refine ⟨?_, by simp [lengthMarked]⟩
  rw [decodeEncoding, decode80_sched _ _ (by decide)]
  exact checked_ok h

theorem ldv (f : SForm) : Statement (.ldv f) := by
  intro h e he
  obtain rfl := Option.some.inj he
  refine ⟨?_, by simp [lengthMarked]⟩
  rw [decodeEncoding, decode80_sched _ _ (by decide)]
  exact checked_ok h

theorem stv (f : SForm) : Statement (.stv f) := by
  intro h e he
  obtain rfl := Option.some.inj he
  refine ⟨?_, by simp [lengthMarked]⟩
  rw [decodeEncoding, decode80_sched _ _ (by decide)]
  exact checked_ok h

theorem ldvs (f : SForm) : Statement (.ldvs f) := by
  intro h e he
  obtain rfl := Option.some.inj he
  refine ⟨?_, by simp [lengthMarked]⟩
  rw [decodeEncoding, decode80_sched _ _ (by decide)]
  exact checked_ok h

theorem stvs (f : SForm) : Statement (.stvs f) := by
  intro h e he
  obtain rfl := Option.some.inj he
  refine ⟨?_, by simp [lengthMarked]⟩
  rw [decodeEncoding, decode80_sched _ _ (by decide)]
  exact checked_ok h

theorem ldvx (f : SForm) : Statement (.ldvx f) := by
  intro h e he
  obtain rfl := Option.some.inj he
  refine ⟨?_, by simp [lengthMarked]⟩
  rw [decodeEncoding, decode80_sched _ _ (by decide)]
  exact checked_ok h

theorem stvx (f : SForm) : Statement (.stvx f) := by
  intro h e he
  obtain rfl := Option.some.inj he
  refine ⟨?_, by simp [lengthMarked]⟩
  rw [decodeEncoding, decode80_sched _ _ (by decide)]
  exact checked_ok h

theorem mma (f : EForm) : Statement (.mma f) := by
  intro h e he
  obtain rfl := Option.some.inj he
  refine ⟨?_, by simp [lengthMarked]⟩
  rw [decodeEncoding, decode80_engine _ _ (by decide) (by decide)]
  exact checked_ok h

theorem mld (f : EForm) : Statement (.mld f) := by
  intro h e he
  obtain rfl := Option.some.inj he
  refine ⟨?_, by simp [lengthMarked]⟩
  rw [decodeEncoding, decode80_engine _ _ (by decide) (by decide)]
  exact checked_ok h

theorem mst (f : EForm) : Statement (.mst f) := by
  intro h e he
  obtain rfl := Option.some.inj he
  refine ⟨?_, by simp [lengthMarked]⟩
  rw [decodeEncoding, decode80_engine _ _ (by decide) (by decide)]
  exact checked_ok h

theorem mzero (f : EForm) : Statement (.mzero f) := by
  intro h e he
  obtain rfl := Option.some.inj he
  refine ⟨?_, by simp [lengthMarked]⟩
  rw [decodeEncoding, decode80_engine _ _ (by decide) (by decide)]
  exact checked_ok h

theorem mswap (f : EForm) : Statement (.mswap f) := by
  intro h e he
  obtain rfl := Option.some.inj he
  refine ⟨?_, by simp [lengthMarked]⟩
  rw [decodeEncoding, decode80_engine _ _ (by decide) (by decide)]
  exact checked_ok h

theorem mcvt (f : EForm) : Statement (.mcvt f) := by
  intro h e he
  obtain rfl := Option.some.inj he
  refine ⟨?_, by simp [lengthMarked]⟩
  rw [decodeEncoding, decode80_engine _ _ (by decide) (by decide)]
  exact checked_ok h

theorem sigrst (f : EForm) : Statement (.sigrst f) := by
  intro h e he
  obtain rfl := Option.some.inj he
  refine ⟨?_, by simp [lengthMarked]⟩
  rw [decodeEncoding, decode80_engine _ _ (by decide) (by decide)]
  exact checked_ok h

theorem sigadv (f : EForm) : Statement (.sigadv f) := by
  intro h e he
  obtain rfl := Option.some.inj he
  refine ⟨?_, by simp [lengthMarked]⟩
  rw [decodeEncoding, decode80_engine _ _ (by decide) (by decide)]
  exact checked_ok h

theorem sigjoin (f : EForm) : Statement (.sigjoin f) := by
  intro h e he
  obtain rfl := Option.some.inj he
  refine ⟨?_, by simp [lengthMarked]⟩
  rw [decodeEncoding, decode80_engine _ _ (by decide) (by decide)]
  exact checked_ok h

theorem siglog (f : EForm) : Statement (.siglog f) := by
  intro h e he
  obtain rfl := Option.some.inj he
  refine ⟨?_, by simp [lengthMarked]⟩
  rw [decodeEncoding, decode80_engine _ _ (by decide) (by decide)]
  exact checked_ok h

theorem sigld (f : EForm) : Statement (.sigld f) := by
  intro h e he
  obtain rfl := Option.some.inj he
  refine ⟨?_, by simp [lengthMarked]⟩
  rw [decodeEncoding, decode80_engine _ _ (by decide) (by decide)]
  exact checked_ok h

theorem sigst (f : EForm) : Statement (.sigst f) := by
  intro h e he
  obtain rfl := Option.some.inj he
  refine ⟨?_, by simp [lengthMarked]⟩
  rw [decodeEncoding, decode80_engine _ _ (by decide) (by decide)]
  exact checked_ok h

theorem cpy (f : EForm) : Statement (.cpy f) := by
  intro h e he
  obtain rfl := Option.some.inj he
  refine ⟨?_, by simp [lengthMarked]⟩
  rw [decodeEncoding, decode80_engine _ _ (by decide) (by decide)]
  have hf := formAgrees_of h
  simp [Instr.formAgrees] at hf
  simpa [decodeEngine, hf] using checked_ok h

theorem cpyM (f : EForm) : Statement (.cpyM f) := by
  intro h e he
  obtain rfl := Option.some.inj he
  refine ⟨?_, by simp [lengthMarked]⟩
  rw [decodeEncoding, decode80_engine _ _ (by decide) (by decide)]
  have hf := formAgrees_of h
  simp [Instr.formAgrees] at hf
  simpa [decodeEngine, hf] using checked_ok h

theorem cpyS (f : EForm) : Statement (.cpyS f) := by
  intro h e he
  obtain rfl := Option.some.inj he
  refine ⟨?_, by simp [lengthMarked]⟩
  rw [decodeEncoding, decode80_engine _ _ (by decide) (by decide)]
  have hf := formAgrees_of h
  simp [Instr.formAgrees] at hf
  simpa [decodeEngine, hf] using checked_ok h

theorem cgat (f : EForm) : Statement (.cgat f) := by
  intro h e he
  obtain rfl := Option.some.inj he
  refine ⟨?_, by simp [lengthMarked]⟩
  rw [decodeEncoding, decode80_engine _ _ (by decide) (by decide)]
  exact checked_ok h

theorem csct (f : EForm) : Statement (.csct f) := by
  intro h e he
  obtain rfl := Option.some.inj he
  refine ⟨?_, by simp [lengthMarked]⟩
  rw [decodeEncoding, decode80_engine _ _ (by decide) (by decide)]
  exact checked_ok h

theorem cfill (f : EForm) : Statement (.cfill f) := by
  intro h e he
  obtain rfl := Option.some.inj he
  refine ⟨?_, by simp [lengthMarked]⟩
  rw [decodeEncoding, decode80_engine _ _ (by decide) (by decide)]
  exact checked_ok h

theorem coll (f : EForm) : Statement (.coll f) := by
  intro h e he
  obtain rfl := Option.some.inj he
  refine ⟨?_, by simp [lengthMarked]⟩
  rw [decodeEncoding, decode80_engine _ _ (by decide) (by decide)]
  exact checked_ok h

theorem wload (f : EForm) : Statement (.wload f) := by
  intro h e he
  obtain rfl := Option.some.inj he
  refine ⟨?_, by simp [lengthMarked]⟩
  rw [decodeEncoding, decode80_engine _ _ (by decide) (by decide)]
  exact checked_ok h

theorem restrictFine (f : EForm) : Statement (.restrictFine f) := by
  intro h e he
  obtain rfl := Option.some.inj he
  refine ⟨?_, by simp [lengthMarked]⟩
  rw [decodeEncoding, decode80_engine _ _ (by decide) (by decide)]
  have hf := formAgrees_of h
  simp [Instr.formAgrees] at hf
  simpa [decodeEngine, hf] using checked_ok h

theorem restrictCoarse (f : EForm) : Statement (.restrictCoarse f) := by
  intro h e he
  obtain rfl := Option.some.inj he
  refine ⟨?_, by simp [lengthMarked]⟩
  rw [decodeEncoding, decode80_engine _ _ (by decide) (by decide)]
  have hf := formAgrees_of h
  simp [Instr.formAgrees] at hf
  simpa [decodeEngine, hf] using checked_ok h

theorem prolongCoarse (f : EForm) : Statement (.prolongCoarse f) := by
  intro h e he
  obtain rfl := Option.some.inj he
  refine ⟨?_, by simp [lengthMarked]⟩
  rw [decodeEncoding, decode80_engine _ _ (by decide) (by decide)]
  have hf := formAgrees_of h
  simp [Instr.formAgrees] at hf
  simpa [decodeEngine, hf] using checked_ok h

theorem prolongFine (f : EForm) : Statement (.prolongFine f) := by
  intro h e he
  obtain rfl := Option.some.inj he
  refine ⟨?_, by simp [lengthMarked]⟩
  rw [decodeEncoding, decode80_engine _ _ (by decide) (by decide)]
  have hf := formAgrees_of h
  simp [Instr.formAgrees] at hf
  simpa [decodeEngine, hf] using checked_ok h

theorem load (src dst : Coord) : Statement (.load src dst) := by
  intro h e he
  simp [encode] at he

theorem store (src dst : Coord) : Statement (.store src dst) := by
  intro h e he
  simp [encode] at he

theorem loadcap (src dst : Coord) : Statement (.loadcap src dst) := by
  intro h e he
  simp [encode] at he

theorem storecap (src dst : Coord) : Statement (.storecap src dst) := by
  intro h e he
  simp [encode] at he

theorem amo (src dst : Coord) : Statement (.amo src dst) := by
  intro h e he
  simp [encode] at he

theorem cas (src dst : Coord) : Statement (.cas src dst) := by
  intro h e he
  simp [encode] at he

theorem active (src dst : Coord) : Statement (.active src dst) := by
  intro h e he
  simp [encode] at he

theorem portw (src dst : Coord) : Statement (.portw src dst) := by
  intro h e he
  simp [encode] at he

theorem dataRpl (src dst : Coord) : Statement (.dataRpl src dst) := by
  intro h e he
  simp [encode] at he

theorem ackRpl (src dst : Coord) : Statement (.ackRpl src dst) := by
  intro h e he
  simp [encode] at he

theorem faultRpl (src dst : Coord) : Statement (.faultRpl src dst) := by
  intro h e he
  simp [encode] at he

theorem nakRpl (src dst : Coord) : Statement (.nakRpl src dst) := by
  intro h e he
  simp [encode] at he

theorem hreply (src dst : Coord) : Statement (.hreply src dst) := by
  intro h e he
  simp [encode] at he

theorem migack (src dst : Coord) : Statement (.migack src dst) := by
  intro h e he
  simp [encode] at he

theorem wayfarer (src dst : Coord) : Statement (.wayfarer src dst) := by
  intro h e he
  simp [encode] at he

theorem ewrite (src dst : Coord) : Statement (.ewrite src dst) := by
  intro h e he
  simp [encode] at he

theorem eread (src dst : Coord) : Statement (.eread src dst) := by
  intro h e he
  simp [encode] at he

theorem edata (src dst : Coord) : Statement (.edata src dst) := by
  intro h e he
  simp [encode] at he

theorem done (src dst : Coord) : Statement (.done src dst) := by
  intro h e he
  simp [encode] at he

theorem chunk (src dst : Coord) : Statement (.chunk src dst) := by
  intro h e he
  simp [encode] at he

theorem probe (src dst : Coord) : Statement (.probe src dst) := by
  intro h e he
  simp [encode] at he

theorem event (src dst : Coord) : Statement (.event src dst) := by
  intro h e he
  simp [encode] at he

theorem wake (src dst : Coord) : Statement (.wake src dst) := by
  intro h e he
  simp [encode] at he

theorem walk (src dst : Coord) : Statement (.walk src dst) := by
  intro h e he
  simp [encode] at he

theorem walkrpl (src dst : Coord) : Statement (.walkrpl src dst) := by
  intro h e he
  simp [encode] at he

theorem shoot (src dst : Coord) : Statement (.shoot src dst) := by
  intro h e he
  simp [encode] at he

theorem record (src dst : Coord) : Statement (.record src dst) := by
  intro h e he
  simp [encode] at he

theorem handlerStart (c : Coord) : Statement (.handlerStart c) := by
  intro h e he
  simp [encode] at he

theorem builtinAtomicDispatch (c : Coord) : Statement (.builtinAtomicDispatch c) := by
  intro h e he
  simp [encode] at he

theorem mailboxPortwDelivery (c : Coord) : Statement (.mailboxPortwDelivery c) := by
  intro h e he
  simp [encode] at he

theorem heldDoneWritten (c : Coord) : Statement (.heldDoneWritten c) := by
  intro h e he
  simp [encode] at he

theorem queueBlockedTimeout (c : Coord) (q : Nat) : Statement (.queueBlockedTimeout c q) := by
  intro h e he
  simp [encode] at he

theorem threadSendQueueRoom (c : Coord) (t : Nat) : Statement (.threadSendQueueRoom c t) := by
  intro h e he
  simp [encode] at he

theorem waitDeadline (c : Coord) (t : Nat) : Statement (.waitDeadline c t) := by
  intro h e he
  simp [encode] at he

theorem barwaitRetry (c : Coord) (t : Nat) : Statement (.barwaitRetry c t) := by
  intro h e he
  simp [encode] at he

theorem overflowReplay (ev : Nat) : Statement (.overflowReplay ev) := by
  intro h e he
  simp [encode] at he

theorem poolArbitration (c : Coord) : Statement (.poolArbitration c) := by
  intro h e he
  simp [encode] at he

theorem poolRebuildWriteback (c : Coord) (w : Nat) : Statement (.poolRebuildWriteback c w) := by
  intro h e he
  simp [encode] at he

theorem partwChange (c : Coord) : Statement (.partwChange c) := by
  intro h e he
  simp [encode] at he

theorem testerQuiesce (cl : Coord) (bus : Nat) (bad : Bool) : Statement (.testerQuiesce cl bus bad) := by
  intro h e he
  simp [encode] at he

theorem testerAbort (cl : Coord) (bus : Nat) : Statement (.testerAbort cl bus) := by
  intro h e he
  simp [encode] at he

theorem selfTestComplete (kind : Nat) (place : Coord) (idx : Nat) (result : TestResult) : Statement (.selfTestComplete kind place idx result) := by
  intro h e he
  simp [encode] at he

theorem pageMove (job va frame : Nat) : Statement (.pageMove job va frame) := by
  intro h e he
  simp [encode] at he

theorem pageLockRelease (job va : Nat) : Statement (.pageLockRelease job va) := by
  intro h e he
  simp [encode] at he

theorem plannedOffline (d : Nat) : Statement (.plannedOffline d) := by
  intro h e he
  simp [encode] at he

theorem forcedOffline (d : Nat) (left : Readable) : Statement (.forcedOffline d left) := by
  intro h e he
  simp [encode] at he

theorem dieDrain (d : Nat) : Statement (.dieDrain d) := by
  intro h e he
  simp [encode] at he

theorem dieRemap (d phys : Nat) : Statement (.dieRemap d phys) := by
  intro h e he
  simp [encode] at he

theorem routeRecomputation : Statement .routeRecomputation := by
  intro h e he
  simp [encode] at he

theorem routeTableInstall : Statement .routeTableInstall := by
  intro h e he
  simp [encode] at he

theorem linkNarrow (d l : Nat) : Statement (.linkNarrow d l) := by
  intro h e he
  simp [encode] at he

theorem linkSleep (d l : Nat) : Statement (.linkSleep d l) := by
  intro h e he
  simp [encode] at he

theorem linkWakeComplete (d l : Nat) : Statement (.linkWakeComplete d l) := by
  intro h e he
  simp [encode] at he

theorem stealRequest (thief victim : Coord) : Statement (.stealRequest thief victim) := by
  intro h e he
  simp [encode] at he

theorem stealResponse (thief : Coord) : Statement (.stealResponse thief) := by
  intro h e he
  simp [encode] at he

theorem stealPortTimeout (thief victim : Coord) : Statement (.stealPortTimeout thief victim) := by
  intro h e he
  simp [encode] at he

theorem hostCommand (q : Nat) (desc : BitVec 1024) : Statement (.hostCommand q desc) := by
  intro h e he
  simp [encode] at he

theorem jobAccept (q stack : Nat) : Statement (.jobAccept q stack) := by
  intro h e he
  simp [encode] at he

theorem jobCompletion (job : Nat) : Statement (.jobCompletion job) := by
  intro h e he
  simp [encode] at he

theorem idleCoreSearch (c : Coord) : Statement (.idleCoreSearch c) := by
  intro h e he
  simp [encode] at he

theorem idleSearchTimer (c : Coord) : Statement (.idleSearchTimer c) := by
  intro h e he
  simp [encode] at he

theorem recordPassLimit (cl : Coord) : Statement (.recordPassLimit cl) := by
  intro h e he
  simp [encode] at he

theorem teamPlacement (cl : Coord) : Statement (.teamPlacement cl) := by
  intro h e he
  simp [encode] at he

theorem bandPlacement (d : Nat) : Statement (.bandPlacement d) := by
  intro h e he
  simp [encode] at he

theorem bandReservation (d : Nat) : Statement (.bandReservation d) := by
  intro h e he
  simp [encode] at he

theorem preemptionMark (c : Coord) (t : Nat) : Statement (.preemptionMark c t) := by
  intro h e he
  simp [encode] at he

theorem forcedSave (c : Coord) (t : Nat) : Statement (.forcedSave c t) := by
  intro h e he
  simp [encode] at he

theorem unitResume (c : Coord) (n : Nat) : Statement (.unitResume c n) := by
  intro h e he
  simp [encode] at he

theorem matrixJobStart (cl : Coord) : Statement (.matrixJobStart cl) := by
  intro h e he
  simp [encode] at he

theorem matrixJobComplete (cl : Coord) : Statement (.matrixJobComplete cl) := by
  intro h e he
  simp [encode] at he

theorem engineSplitStop (cl : Coord) (kind n : Nat) : Statement (.engineSplitStop cl kind n) := by
  intro h e he
  simp [encode] at he

theorem porterJobStart (cl : Coord) : Statement (.porterJobStart cl) := by
  intro h e he
  simp [encode] at he

theorem porterJobComplete (cl : Coord) (n : Nat) : Statement (.porterJobComplete cl n) := by
  intro h e he
  simp [encode] at he

theorem parkedPieceReplay (cl : Coord) : Statement (.parkedPieceReplay cl) := by
  intro h e he
  simp [encode] at he

theorem streamFifoEntry (cl : Coord) (n : Nat) : Statement (.streamFifoEntry cl n) := by
  intro h e he
  simp [encode] at he

theorem ringJobComplete (port : Nat) : Statement (.ringJobComplete port) := by
  intro h e he
  simp [encode] at he

theorem stairJobStart (c : Coord) : Statement (.stairJobStart c) := by
  intro h e he
  simp [encode] at he

theorem stairJobComplete (c : Coord) : Statement (.stairJobComplete c) := by
  intro h e he
  simp [encode] at he

theorem stairLinkFailure (c : Coord) : Statement (.stairLinkFailure c) := by
  intro h e he
  simp [encode] at he

theorem pageResident (job va frame : Nat) (ok : Bool) : Statement (.pageResident job va frame ok) := by
  intro h e he
  simp [encode] at he

theorem fabricInboundAccess (peer win off : Nat) (op : BitVec 8) (data : BitVec 64) : Statement (.fabricInboundAccess peer win off op data) := by
  intro h e he
  simp [encode] at he

theorem windowWithdraw (imp : Bool) (w : Nat) : Statement (.windowWithdraw imp w) := by
  intro h e he
  simp [encode] at he

theorem windowInvalidate (imp : Bool) (w : Nat) : Statement (.windowInvalidate imp w) := by
  intro h e he
  simp [encode] at he

theorem securityAlarm (lvl : Nat) : Statement (.securityAlarm lvl) := by
  intro h e he
  simp [encode] at he

theorem bringUp : Statement .bringUp := by
  intro h e he
  simp [encode] at he

theorem thermalThrottle (island : Nat) : Statement (.thermalThrottle island) := by
  intro h e he
  simp [encode] at he

theorem thermalShutdown : Statement .thermalShutdown := by
  intro h e he
  simp [encode] at he

theorem mctpRequest (attest : Bool) : Statement (.mctpRequest attest) := by
  intro h e he
  simp [encode] at he

theorem lpqRemoveHead (c : Coord) : Statement (.lpqRemoveHead c) := by
  intro h e he
  simp [encode] at he

theorem lpqClearCnt (c : Coord) : Statement (.lpqClearCnt c) := by
  intro h e he
  simp [encode] at he

theorem runControlResume (c : Coord) : Statement (.runControlResume c) := by
  intro h e he
  simp [encode] at he

theorem memoryRequest (job cls : Nat) (places : Places) (pages : PageCount) (frame : Nat) : Statement (.memoryRequest job cls places pages frame) := by
  intro h e he
  simp [encode] at he

theorem pageRelease (job va : Nat) : Statement (.pageRelease job va) := by
  intro h e he
  simp [encode] at he

theorem pageNonResident (job va : Nat) : Statement (.pageNonResident job va) := by
  intro h e he
  simp [encode] at he

theorem windowImport (imp : Bool) (w : Nat) (e : BitVec 128) : Statement (.windowImport imp w e) := by
  intro h e he
  simp [encode] at he

theorem ringInstall (port idx job rank size : Nat) : Statement (.ringInstall port idx job rank size) := by
  intro h e he
  simp [encode] at he

theorem ringMemberLoss (port idx : Nat) : Statement (.ringMemberLoss port idx) := by
  intro h e he
  simp [encode] at he

theorem overflowQueueExtend (ev : Nat) : Statement (.overflowQueueExtend ev) := by
  intro h e he
  simp [encode] at he

end RoundTrip

end Sys2Proof.Laws
end

