-- ==== Sys2Proof/Tests/Slice0.lean ====
section
/-! SUPPORT. Sys2Proof/Tests/Slice0.lean: ill-formed terms that WellFormed refuses, words written out from the encodings of the spec, results of single steps worked out by hand from the rules, and states that meet the hypotheses of the statements. -/

namespace Sys2Proof.Tests

open Sys2Proof.Machine

set_option Elab.async false

/-! ### Ill-formed terms, one for each check -/

/-- A scheduled form with every field zero but the type. -/
def sf (t : BitVec 4) : SForm :=
  { t, vd := 0, va := 0, vb := 0, vc := 0, pred := 0, la := 0, pk := 0, fr := 0, keep := 0, md := 0, ps := 0, fs := 0 }

/-- An engine form with every field zero but the type. -/
def ef (t : BitVec 4) : EForm := { t, gj := 0, ga := 0, gb := 0, gc := 0, sg := 0, la := 0, gd := 0, es := 0 }

theorem test_vadd_well_formed : (Instr.vadd (sf 1)).wellFormed = true := rfl
theorem test_refuses_type : illForm (.vadd (sf 8)) = some .badType := rfl
theorem test_refuses_mod : illForm (.vadd { sf 1 with md := 1 }) = some .badFunction := rfl
theorem test_refuses_fs : illForm (.vadd { sf 1 with fs := 1 }) = some .badFunction := rfl
theorem test_refuses_unused_register : illForm (.vsqrt { sf 1 with vb := 1 }) = some .reserved := rfl
theorem test_refuses_unused_predicate : illForm (.vpack { sf 7 with md := 4, pred := 1 }) = some .reserved := rfl
theorem test_refuses_fresh_destination : illForm (.vadd { sf 1 with fr := 8 }) = some .reserved := rfl
theorem test_refuses_port_select : illForm (.vsqrt { sf 1 with ps := 1 }) = some .portSelect := rfl
theorem test_refuses_port_of_a_group : illForm (.vpair { sf 1 with md := 1, ps := 4 }) = some .portSelect := rfl
theorem test_refuses_engine_type : illForm (.mma (ef 1 )) = none ∧ illForm (.mma (ef 0)) = some .badType := by decide
theorem test_refuses_es : illForm (.mzero { ef 1 with es := 1 }) = some .badFunction := rfl
theorem test_refuses_engine_register : illForm (.mzero { ef 1 with ga := 1 }) = some .reserved := rfl
theorem test_refuses_split_granule : illForm (.mld { ef 1 with sg := 1 }) = some .reserved := rfl
theorem test_refuses_prefetch_hint : illForm (.pref 3 0 0) = some .badFunction := rfl
theorem test_refuses_reply_length : illForm (.hret 0 1 9) = some .badFunction ∧ illForm (.hret 0 1 8) = none := by decide
theorem test_refuses_fence_kind : illForm (.fence 0 0) = some .badFunction := rfl
theorem test_refuses_invalidation_kind : illForm (.tlbinv 0 0 3) = some .badFunction := rfl
theorem test_refuses_scope_without_order : illForm (.amoAddN32 0 0 0 1 0) = some .reserved := rfl
theorem test_refuses_form_bit : (Instr.cpy { ef 0 with es := 0x200 }).wellFormed = false ∧
    (Instr.cpyS { ef 0 with es := 0x200 }).wellFormed = true := by decide
theorem test_refuses_side_bit : (Instr.restrictFine { ef 1 with es := 0x10000000 }).wellFormed = false := rfl

/-! ### Words written out from the encodings of the spec -/

/-- The bytes of parcels as they are stored (R211). -/
def parcels (l : List Nat) : List Byte := l.flatMap (leBytes 2)

theorem test_decode_zero_parcel : decodeBytes [0x00, 0x00] = .error .zeroParcel := rfl
theorem test_decode_truncated : decodeBytes [0x58, 0xD5, 0x00] = .error .truncated := rfl

-- the examples after R212, and those of the hand-assembled programs
theorem test_decode_add : decodeBytes [0x06, 0xC0, 0x80, 0x42] = .ok (.add 3 4 5 0, []) := rfl
theorem test_decode_compact_add : decodeBytes [0x65, 0x04] = .ok (.cAdd 3 5, []) := rfl
theorem test_decode_compact_li : decodeBytes [0x85, 0x48] = .ok (.cLi 2 5, []) := rfl
theorem test_decode_compact_addi : decodeBytes [0x10, 0x41] = .ok (.cAddi 4 16, []) := rfl
theorem test_decode_safept :
    decodeBytes (parcels [0xFFE0, 0x0000, 0x001C, 0x0000, 0x0000]) = .ok (.safept 0x1C 0, []) := rfl
theorem test_decode_bcc_lt : decodeBytes [0x08, 0xCF, 0xF9, 0x2F] = .ok (.bccLt 4 2 0xFF9, []) := rfl
theorem test_decode_bcc_eq : decodeBytes (parcels [0xCE91, 0x2005]) = .ok (.bccEq 8 18 5, []) := rfl
theorem test_decode_compact_retire : decodeBytes [0x00, 0x90] = .ok (.cRetire, []) := rfl
theorem test_decode_li : decodeBytes [0xC6, 0xC9, 0x20, 0x00] = .ok (.li 3 32, []) := rfl
theorem test_decode_li_w :
    decodeBytes (parcels [0xFFC5, 0x0231, 0x4900, 0x0002, 0x0000]) = .ok (.liW 5 0x0231490000020000, []) := rfl
theorem test_decode_nop : decodeBytes (parcels [0xE180, 0x0000]) = .ok (.nop, []) := rfl
-- memory and messages
theorem test_decode_amo : decodeBytes [0x48, 0xD6, 0x9F, 0x22] = .ok (.amoAddN64 4 2 5 7 3, []) := rfl
theorem test_decode_amo_release : decodeBytes (parcels [0xD63C, 0xDFD2]) = .ok (.amoAddN32 30 13 31 20 2, []) := rfl
theorem test_decode_send : decodeBytes (parcels [0xD558, 0x7400]) = .ok (.send 12 7 8, []) := rfl
theorem test_decode_hret : decodeBytes (parcels [0xD5C0, 0x4001]) = .ok (.hret 4 0 1, []) := rfl
theorem test_decode_pget : decodeBytes (parcels [0xDBE0, 0x0000]) = .ok (.pget 16, []) := rfl
theorem test_decode_bind : decodeBytes (parcels [0xDB40, 0x0000]) = .ok (.bindMbx 0, []) := rfl
theorem test_decode_putreg : decodeBytes (parcels [0xDB00, 0x7180]) = .ok (.putreg 7 3 0, []) := rfl
-- synchronisation and tasks
theorem test_decode_barinit : decodeBytes (parcels [0xDCC0, 0xBF80]) = .ok (.barinit 11 31, []) := rfl
theorem test_decode_bararr : decodeBytes (parcels [0xDD08, 0x2180]) = .ok (.bararr 4 2 3, []) := rfl
theorem test_decode_barwait : decodeBytes (parcels [0xDDAE, 0xB000]) = .ok (.barwait 23 11 0, []) := rfl
theorem test_decode_barexp : decodeBytes (parcels [0xDDC0, 0xBB80]) = .ok (.barexp 11 23, []) := rfl
theorem test_decode_postv : decodeBytes (parcels [0xDF4A, 0x2301]) = .ok (.postv 5 2 6 1, []) := rfl
theorem test_decode_cplsig : decodeBytes (parcels [0xE300, 0x8001]) = .ok (.cplsigTask 8, []) := rfl
theorem test_decode_mwait : decodeBytes (parcels [0xE34A, 0x3000]) = .ok (.mwait 5 3, []) := rfl
theorem test_decode_cstat : decodeBytes (parcels [0xE3CA, 0x3000]) = .ok (.cstat 5 3, []) := rfl
theorem test_decode_lvlmap : decodeBytes (parcels [0xE400, 0x6001]) = .ok (.lvlmap 6 1, []) := rfl
theorem test_decode_trap : decodeBytes (parcels [0xE480, 0x0015]) = .ok (.trap 21, []) := rfl
theorem test_decode_srr : decodeBytes (parcels [0xE508, 0x0011]) = .ok (.srr 4 0x11, []) := rfl
-- vectors
theorem test_decode_vmul : decodeBytes (parcels [0xF021, 0x2044, 0x0050, 0x0000, 0x0000]) =
    .ok (.vmul { sf 1 with vd := 4, va := 1, vb := 2, la := 2, pk := 1 }, []) := rfl
theorem test_decode_vbcast :
    decodeBytes [0xB1, 0xF2, 0x40, 0x00, 0, 0, 0, 0, 0, 0] = .ok (.vbcast { sf 1 with va := 1 }, []) := rfl
theorem test_decode_ldv : decodeBytes [0x01, 0xF4, 0x88, 0x10, 0x10, 0x00, 0x00, 0x00, 0x20, 0x00] =
    .ok (.ldv { sf 1 with vd := 2, va := 2, vb := 4, pk := 1, fs := 32 }, []) := rfl
theorem test_decode_vfma : decodeBytes [0x31, 0xF0, 0x02, 0x18, 0x33, 0x20, 0x00, 0x00, 0x00, 0x00] =
    .ok (.vfma { sf 1 with vd := 3, vb := 1, vc := 2, la := 1, pk := 1, fr := 3 }, []) := rfl
theorem test_decode_stv : decodeBytes [0x11, 0xF4, 0x88, 0x18, 0x08, 0x00, 0x00, 0x00, 0x10, 0x00] =
    .ok (.stv { sf 1 with vd := 3, va := 2, vb := 4, fr := 8, fs := 16 }, []) := rfl
theorem test_decode_vcvt : decodeBytes [0x04, 0xF2, 0x00, 0x41, 0x00, 0x00, 0x10, 0x00, 0x02, 0x00] =
    .ok (.vcvt { sf 4 with vd := 8, va := 4, md := 1, fs := 2 }, []) := rfl
theorem test_decode_vkey : decodeBytes [0x8D, 0xF3, 0x08, 0x40, 0x00, 0x02, 0x20, 0x00, 0x0D, 0x00] =
    .ok (.vkey { sf 13 with vd := 8, va := 0, vb := 4, pred := 1, md := 2, fs := 13 }, []) := rfl
theorem test_decode_vmovg_port : decodeBytes (parcels [0xF2CD, 0x5000, 0x0000, 0x0008, 0x0000]) =
    .ok (.vmovgG { sf 13 with vd := 10, ps := 4 }, []) := rfl
-- engines
theorem test_decode_mma : decodeBytes [0x04, 0xF8, 0x86, 0x48, 0x05, 0x42, 0xFF, 0x0B, 0x00, 0xC1] =
    .ok (.mma { ef 4 with gj := 9, ga := 2, gb := 3, gc := 4, sg := 1, gd := 5, es := 0x0BFFC100 }, []) := rfl
theorem test_decode_cpy : decodeBytes [0x00, 0xF9, 0x86, 0x50, 0x05, 0x40, 0x1F, 0x00, 0x00, 0xF0] =
    .ok (.cpy { ef 0 with gj := 10, ga := 2, gb := 3, gc := 4, gd := 5, es := 0x001FF000 }, []) := rfl
theorem test_decode_cpy_multicast : decodeBytes (parcels [0xF900, 0xF620, 0xF010, 0x0000, 0xFC00]) =
    .ok (.cpyM { ef 0 with gj := 30, ga := 24, gb := 16, gc := 15, gd := 16, es := 0xFC00 }, []) := rfl
theorem test_decode_wload : decodeBytes (parcels [0xF981, 0x8380, 0x0000, 0x0000, 0x0001]) =
    .ok (.wload { ef 1 with gj := 16, ga := 14, es := 1 }, []) := rfl
theorem test_decode_restrict_fine : decodeBytes (parcels [0xF991, 0x4886, 0x0000, 0x0200, 0x0000]) =
    .ok (.restrictFine { ef 1 with gj := 9, ga := 2, gb := 3, es := 0x02000000 }, []) := rfl
theorem test_decode_restrict_coarse : decodeBytes (parcels [0xF991, 0x816A, 0x0000, 0x1000, 0x0000]) =
    .ok (.restrictCoarse { ef 1 with gj := 16, ga := 5, gb := 21, es := 0x10000000 }, []) := rfl
theorem test_decode_prolong_fine : decodeBytes (parcels [0xF9A1, 0x8168, 0x0000, 0x0A00, 0x0000]) =
    .ok (.prolongFine { ef 1 with gj := 16, ga := 5, gb := 20, es := 0x0A000000 }, []) := rfl
theorem test_decode_prolong_coarse : decodeBytes (parcels [0xF9A1, 0x8168, 0x0000, 0x3000, 0x0000]) =
    .ok (.prolongCoarse { ef 1 with gj := 16, ga := 5, gb := 20, es := 0x30000000 }, []) := rfl


/-! ### A small machine -/

/-- The state from which the effect of an instruction with the uses `u` starts. -/
def start (s : State) (u : Uses) : State :=
  match issueCheck u s.sl.haz with
  | some (l, k) => (s.landAll l).modSl fun x => { x with haz := k }
  | none => s

/-- The checks of issue pass, and `p` holds of the state from which the effect starts. -/
def meets (s : State) (u : Uses) (p : State → Bool) : Bool :=
  (!u.sysOnly || s.sl.priv) && !u.bad && !misaligned u && !outOfBounds s.sl u &&
  ((issueCheck u s.sl.haz).any fun (l, _) => (s.leaseOn u l).isNone) && p (start s u)

theorem meets_ok {s : State} {u : Uses} {p : State → Bool} (h : meets s u p = true) : ∃ t, Issues s u t ∧ p t = true := by
  simp only [meets, Bool.and_eq_true, Bool.or_eq_true, Bool.not_eq_true'] at h
  obtain ⟨⟨⟨⟨⟨h1, h2⟩, h3⟩, h4⟩, h5⟩, h7⟩ := h
  cases e : issueCheck u s.sl.haz with
  | none => simp [e] at h5
  | some q => exact ⟨_, ⟨fun e => by simp_all, h2, h3, h4, ⟨q.1, q.2, e, by simpa [e] using h5, by simp [start, e]⟩⟩, h7⟩

/-- The answer is a next state of which `p` holds. -/
def next (o : Answer) (p : State → Bool) : Bool := match o with | .next n => p n | _ => false

/-- The answer is this next state. -/
def is (o : Answer) (n : State) : Bool := match o with | .next m => decide (m = n) | _ => false

/-- The trap that the answer took: ECAUSE, EPC and EADDR, by a handler that the job has at user level. -/
def trapped (o : Answer) (cause epc eaddr : Nat) : Bool :=
  next o fun n => n.sl.inUser && n.sl.sys.ecause == word cause && n.sl.sys.epc == word epc && n.sl.sys.eaddr == word eaddr

/-- Core (0, 0, 0), its neighbour in the cluster and its parent. -/
def c0 : Coord := Coord.mk 0 0 0
def c1 : Coord := Coord.mk 0 0 1

/-- Capabilities: the whole scratchpad of the core, code, and DRAM. -/
def localCap : Cap := makeCap 0xDF0 0 0 0 0x1000 0x100
def codeCap : Cap := makeCap 0xA00 0 0 0x0400000000010000 0x1000 0x0400000000010100

/-- A thread of job 1 in slot 1 with integers in g2 and g3, the scratchpad in g1, code in g4 and a handle in g6. -/
def thread : Slot :=
  { st := .ready, gen := 3, pc := codeCap, quota := 32, mem := { job := 1, ctr := 9 }
    sys := { evec := 0x0000002000000040 }
    g := [(1, localCap), (2, Cap.ofWord 7), (3, Cap.ofWord 5), (4, codeCap), (5, Cap.ofWord (-2)), (8, Cap.ofWord 0x118)] }

/-- The machine with that thread on core (0, 0, 0): a partition of 16 stripes of vector registers and 64 of scratchpad. -/
def one : State :=
  { State.reset with
      core := c0
      pkg := { bringUp := 7 }
      cores := [(c0.toNat, { slots := [(1, thread)], owner := some 1, resident := some 1, partw := 0x80000000040 })]
      jobs := [(1, { live := true, code := codeCap, counter := 9, evec := 0x0000002000000040 })]
      counters := [(9, { count := 2, job := 1 })] }

/-- The same with another thread. -/
def withThread (f : Slot → Slot) : State := one.modSl f

theorem test_small_machine_is_sound : one.sl = thread ∧ scratchSize one.cr.partw = 31744 ∧ partwValid c0 one.cr.partw = true := by
  decide

/-! ### Integer instructions -/

theorem meets_IntegerResults : ∃ t, Issues one (usesG [1] [2, 3]) t ∧
    (next (exec (.sub 1 2 3 0) one) fun n => n.g 1 == Cap.ofWord 2 && n.g 2 == Cap.ofWord 7 &&
      n.sl.pc.addr == 0x0400000000010104) = true := meets_ok (by decide)

theorem test_mulh_sign : next (exec (.mulh 1 5 2 2) one) (fun n => n.ga 1 == (-1 : Word)) = true := by decide
theorem test_div_by_zero : next (exec (.div 2 2 7 0) one) (fun n => n.ga 2 == (-1 : Word)) = true := by decide
theorem test_rem_sign : next (exec (.rem 1 5 3 0) one) (fun n => n.ga 1 == (-2 : Word)) = true := by decide
theorem test_add_wraps_at_its_width : next (exec (.add 1 5 3 7) one) (fun n => n.ga 1 == 3) = true := by decide
theorem test_sub_sign_extends : next (exec (.sub 1 3 2 3) one) (fun n => n.ga 1 == (-2 : Word)) = true := by decide
theorem test_shift_takes_its_count_modulo_the_width :
    next (exec (.shl 1 3 5 0) one) (fun n => n.ga 1 == 0x4000000000000000) = true := by decide

theorem meets_IntegerCounts : ∃ t, Issues one (usesG [1] [3]) t ∧
    (next (exec (.clz 1 3 0) one) (fun n => n.ga 1 == 61) && next (exec (.ctz 1 7 3) one) (fun n => n.ga 1 == 8) &&
      next (exec (.popc 1 5 1) one) fun n => n.ga 1 == 31) = true := meets_ok (by decide)

theorem meets_IntegerComparisons : ∃ t, Issues one (usesG [1] [5, 3]) t ∧
    (next (exec (.slt 1 5 3 0) one) (fun n => n.ga 1 == 1) && next (exec (.sltu 1 5 3 0) one) fun n => n.ga 1 == 0) = true :=
  meets_ok (by decide)

theorem meets_BitFields : ∃ t, Issues one (usesG [1] [5, 3]) t ∧
    (next (exec (.extN64 1 5 3 3) one) (fun n => n.ga 1 == 15) && next (exec (.extI64 1 2 7 2) one) fun n => n.ga 1 == -1) = true :=
  meets_ok (by decide)

theorem meets_insert : ∃ t, Issues one (usesG [2] [3, 3, 2]) t ∧
    (next (exec (.ins 2 3 3 3) one) fun n => n.ga 2 == 0xA7) = true := meets_ok (by decide)

theorem meets_SelectAndMove : ∃ t, Issues one (usesG [3] [2, 5, 7]) t ∧
    (decide (t.ga 7 = 0) && next (exec (.sel 3 2 5 7) one) (fun n => n.ga 3 == -2) &&
      next (exec (.sel 3 2 5 2) one) (fun n => n.ga 3 == 7) && next (exec (.mov 3 1) one) fun n => n.g 3 == localCap) = true :=
  meets_ok (by decide)

theorem meets_ImmediateResults : ∃ t, Issues one (usesG [1] [2]) t ∧
    (next (exec (.addi 1 2 0xFFF) one) (fun n => n.ga 1 == 6) && next (exec (.li 1 0x800) one) (fun n => n.ga 1 == -2048) &&
      next (exec (.lih 1 2 0x123) one) fun n => n.ga 1 == 0x1230000000000007) = true := meets_ok (by decide)

/-- The machine after LI.W g2, #99 (R265). -/
def loading : State :=
  withThread fun x => { x with haz := [{ rem := 0, pk := false, gs := [(2, Cap.ofWord 99)] }] }

theorem meets_LongImmediateLandsNext : ∃ t, Issues one { gw := [2], prod := some (0, false) } t ∧
    (decide (t.sl.haz = []) && next (exec (.liW 2 99) one) fun n => n.ga 2 == 7 && n.sl.haz == loading.sl.haz &&
      n.sl.pc.addr == 0x040000000001010A) = true := meets_ok (by decide)

theorem meets_landing : ∃ v, Issues loading (usesG [3] [2]) v ∧ (decide (v.ga 2 = 99 ∧ v.sl.haz = [])) = true :=
  meets_ok (by decide)

theorem meets_CompactAliases : ∃ t, Issues one (usesG [2] [2, 3]) t ∧
    (next (exec (.cSub 2 3) one) fun n => n.ga 2 == 2 && n.sl.pc.addr == 0x0400000000010102) = true := meets_ok (by decide)

theorem meets_CompactAliases_one_register : ∃ t, Issues one (usesG [2] [2]) t ∧
    (next (exec (.cAddi 2 0x3F) one) (fun n => n.ga 2 == 6) && next (exec (.cCaddi 1 0x20) one) fun n =>
      n.g 1 == { localCap with addr := 0xE0 }) = true := meets_ok (by decide)

/-! ### Capabilities -/

theorem meets_CapabilityMoves : ∃ t, Issues one (usesG [3] [1, 2]) t ∧
    (next (exec (.cadd 3 1 2) one) (fun n => n.g 3 == { localCap with addr := 0x107 }) &&
      next (exec (.csub 3 1 8) one) (fun n => (n.g 3).tag == false && n.ga 3 == -24) &&
      next (exec (.caddi 3 1 0x800) one) fun n => (n.g 3).tag == false) = true := meets_ok (by decide)

theorem meets_BoundsNeverWiden : ∃ t, Issues one (usesG [3] [1, 2]) t ∧
    (next (exec (.csetb 3 1 2) one) (fun n => (n.g 3).tag && (n.g 3).bounds == (0x100, 0x107)) &&
      next (exec (.csetb 3 1 5) one) fun n => !(n.g 3).tag) = true := meets_ok (by decide)

theorem meets_PermissionAndFormat : ∃ t, Issues one (usesG [3] [1, 8]) t ∧
    (next (exec (.csetp 3 1 8) one) (fun n => (n.g 3).tag && (n.g 3).perm == 0x110) &&
      next (exec (.csetf 3 1 8) one) (fun n => !(n.g 3).tag && (n.g 3).fmt == 1 && (n.g 3).blk == 1) &&
      next (exec (.csetf 3 1 3) one) fun n => (n.g 3).tag && (n.g 3).cls == 1) = true := meets_ok (by decide)

/-- A thread at system privilege. -/
def system : State := withThread fun x => { x with priv := true }

theorem meets_CapabilityConstruction : ∃ t, Issues system { usesG [3] [8, 3] with sysOnly := true } t ∧
    (next (exec (.csetc 3 8 7) system) (fun n => (n.g 3).tag && (n.g 3).addr == 0x118) &&
      next (exec (.csetc 3 5 7) system) fun n => !(n.g 3).tag) = true := meets_ok (by decide)

theorem test_csetc_at_user_privilege :
    trapped (exec (.csetc 3 8 3) one) 0x01 0x0400000000010100 0 = true := by decide

theorem meets_CapabilityInspection : ∃ t, Issues one (usesG [3] [1]) t ∧
    (next (exec (.cgett 3 1) one) (fun n => n.ga 3 == 0x1000) && next (exec (.cgetp 3 1) one) (fun n => n.ga 3 == 0xDF0) &&
      next (exec (.ctag 3 1) one) (fun n => n.ga 3 == 1) && next (exec (.cclr 3 1) one) fun n => !(n.g 3).tag) = true :=
  meets_ok (by decide)

/-! ### Transfers of control and the life of a thread -/

theorem meets_RelativeTransfers : ∃ t, Issues one (usesG [] [5, 3]) t ∧
    (decide (targetFault t (evenTarget (t.sl.pc.move (t.sl.pc.addr + 2 * (-7)))) = none) &&
      next (exec (.bccLt 5 3 0xFF9) one) (fun n => n.sl.pc.addr == 0x04000000000100F2) &&
      next (exec (.bccLtu 5 3 0xFF9) one) fun n => n.sl.pc.addr == 0x0400000000010104) = true := meets_ok (by decide)

theorem meets_branch_and_link : ∃ t, Issues one (usesG [3] []) t ∧
    (next (exec (.br 8) one) (fun n => n.sl.pc.addr == 0x0400000000010110) &&
      next (exec (.jal 3 8) one) fun n => n.sl.pc.addr == 0x0400000000010110 && n.g 3 == { codeCap with addr := 0x0400000000010104 })
      = true := meets_ok (by decide)

theorem meets_RegisterTransfers : ∃ t, Issues one (usesG [4] [4]) t ∧
    (decide (targetFault t (evenTarget ((t.g 4).move (t.ga 4 + 9))) = none) &&
      next (exec (.jalr 4 4 9) one) fun n => n.sl.pc.addr == 0x0400000000010108 && n.ga 4 == 0x0400000000010104) = true :=
  meets_ok (by decide)

theorem meets_return : ∃ t, Issues one (usesG [] [4]) t ∧
    (decide (t.g 4 ≠ { tag := false, hi := 0, addr := 0 } ∧ targetFault t (evenTarget (t.g 4)) = none) &&
      next (exec (.ret 4) one) fun n => n.sl.pc == codeCap) = true := meets_ok (by decide)

theorem meets_BadTargetsTrap : ∃ t, Issues one (usesG [3] [2]) t ∧
    (decide ((evenTarget ((t.g 2).move (t.ga 2))).tag = false) &&
      trapped (exec (.jalr 3 2 0) one) 0x05 0x0400000000010100 6) = true := meets_ok (by decide)

theorem meets_BadTargetsTrap_permission : ∃ t, Issues one (usesG [3] [1]) t ∧
    (decide ((evenTarget ((t.g 1).move (t.ga 1))).tag = true ∧ (evenTarget ((t.g 1).move (t.ga 1))).canExecute = false) &&
      trapped (exec (.jalr 3 1 0) one) 0x07 0x0400000000010100 0x100) = true := meets_ok (by decide)

/-- A thread that reserves two slots, with a result that has not landed. -/
def pair : State :=
  withThread fun x => { x with gang := { reserved := 2 }, haz := [{ rem := 3, pk := false, gs := [(2, Cap.ofWord 99)] }] }

theorem meets_GangsAndLanding : ∃ t, Issues pair { sync := true } t ∧
    (decide (t.slot ≠ 0 ∧ t.sl.wayfarer = false ∧ (2 : Nat) ≤ t.sl.gang.reserved ∧ t.sl.gang.size = 1) &&
      next (exec (.gang 2) pair) (fun n => n.sl.gang.size == 2 && n.sl.haz == [] && n.ga 2 == 99) &&
      next (exec .cUngang pair) (fun n => n.sl.gang.size == 1 && n.sl.pc.addr == 0x0400000000010102) &&
      next (exec .tsync pair) fun n => n.sl.haz == [] && n.ga 2 == 99) = true := meets_ok (by decide)

theorem meets_nop : ∃ t, Issues one {} t ∧ (next (exec .cNop one) fun n => n.sl.pc.addr == 0x0400000000010102) = true :=
  meets_ok (by decide)

theorem meets_YieldGoesLast : ∃ t, Issues one {} t ∧
    (decide (t.slot ≠ 0) && next (exec .yield one) fun n => n.sl.st == .ready && n.sl.stamp == 1 && n.cr.stampCounter == 1)
      = true := meets_ok (by decide)

/-- The same thread in the handler slot. -/
def handler : State := { one with slot := 0 }.setSlot c0 0 thread

theorem meets_YieldGoesLast_handler : ∃ t, Issues handler {} t ∧
    (decide (t.slot = 0) && trapped (exec .yield handler) 0x0E 0x0400000000010100 0) = true := meets_ok (by decide)

theorem meets_WaitReportsItsReasons : ∃ t, Issues one (usesG [3] [7]) t ∧
    (decide (t.slot ≠ 0 ∧ (t.ga 7).toNat ≤ t.ts.toNat) && next (exec (.wait 3 7 0) one) fun n => n.ga 3 == 1) = true :=
  meets_ok (by decide)

theorem meets_WaitReportsItsReasons_none : ∃ t, Issues one (usesG [3] [2]) t ∧
    (decide (t.ts.toNat < (t.ga 2).toNat ∧ t.cr.msg.pigeonhole = []) &&
      next (exec (.wait 3 2 3) one) fun n => n.sl.st == .waiting && n.sl.pc == codeCap) = true := meets_ok (by decide)

theorem meets_RetireEndsTheThread : ∃ t, Issues one {} t ∧
    (decide (t.slot ≠ 0 ∧ t.unleased = true ∧ (t.counterAt 9).closed = false ∧ 1 < (t.counterAt 9).count) &&
      next (exec .retire one) fun n => n.slotAt c0 1 == { gen := 4 } && (n.counterAt 9).count == 1) = true := meets_ok (by decide)

theorem meets_RetireEndsTheThread_last :
    ∃ t, Issues { one with counters := [(9, { count := 1, job := 1 })] } (usesG [] [7]) t ∧
    (decide (t.g 7 = { tag := false, hi := 0, addr := 0 } ∧ (t.counterAt 9).parent = none) &&
      next (exec (.ret 7) { one with counters := [(9, { count := 1, job := 1 })] }) fun n =>
        n.slotAt c0 1 == { gen := 4 } && n.counterAt 9 == { count := 0, job := 1 }) = true := meets_ok (by decide)

theorem meets_RetireEndsTheThread_handler : ∃ t, Issues handler {} t ∧
    (trapped (exec .retire handler) 0x02 0x0400000000010100 0) = true := meets_ok (by decide)

/-! ### Loads and stores -/

/-- `Reaches`, decided. -/
def reaches (t : State) (c : Cap) (need : Need) (x n k : Nat) : Bool :=
  match partsOf t.core x n 0 with
  | [p] => p.x == x && p.n == n && p.off == 0 &&
      checkPart t { core := p.core, priv := t.sl.priv, job := t.jobNo } c need p.x0 p.n0 p.x p.n == .ok (.key k)
  | _ => false

theorem reaches_ok {t : State} {c : Cap} {need : Need} {x n k : Nat} (h : reaches t c need x n k = true) :
    Reaches t c need x n k := by
  unfold reaches at h
  split at h
  · rename_i p hp
    simp only [Bool.and_eq_true, beq_iff_eq] at h
    exact ⟨p, hp, h.1.1.1, h.1.1.2, h.1.2, h.2⟩
  · cases h

/-- `ReachesTwo`, decided. -/
def reachesTwo (t : State) (c : Cap) (need : Need) (x n m k1 k2 : Nat) : Bool :=
  match partsOf t.core x n 0 with
  | [p, q] => p.n == m && q.n == n - m &&
      checkPart t { core := p.core, priv := t.sl.priv, job := t.jobNo } c need p.x0 p.n0 p.x p.n == .ok (.key k1) &&
      checkPart t { core := q.core, priv := t.sl.priv, job := t.jobNo } c need q.x0 q.n0 q.x q.n == .ok (.key k2)
  | _ => false

theorem reachesTwo_ok {t : State} {c : Cap} {need : Need} {x n m k1 k2 : Nat} (h : reachesTwo t c need x n m k1 k2 = true) :
    ReachesTwo t c need x n m k1 k2 := by
  unfold reachesTwo at h
  split at h
  · rename_i p q hp
    simp only [Bool.and_eq_true, beq_iff_eq] at h
    exact ⟨p, q, hp, h.1.1.1, h.1.1.2, h.1.2, h.2⟩
  · cases h

/-- `Covers`, decided. -/
def covers (t : State) (c : Cap) (need : Need) (x n k : Nat) : Bool :=
  match checkParts t t.sl.priv t.jobNo c need (partsOf t.core x n 0) with
  | (.ok _, l) => l.all fun e => e.2 == .key (k + e.1.off)
  | _ => false

theorem covers_ok {t : State} {c : Cap} {need : Need} {x n k : Nat} (h : covers t c need x n k = true) :
    Covers t c need x n k := by
  unfold covers at h
  split at h
  · rename_i q l e
    exact ⟨q, l, e, by simpa using h⟩
  · cases h

/-- `ReachesFar`, decided. -/
def reachesFar (t : State) (c : Cap) (need : Need) (x n : Nat) (dst : Coord) (addr : Nat) : Bool :=
  match partsOf t.core x n 0 with
  | [p] => p.n == n &&
      checkPart t { core := p.core, priv := t.sl.priv, job := t.jobNo } c need p.x0 p.n0 p.x p.n == .ok (.msg dst addr)
  | _ => false

theorem reachesFar_ok {t : State} {c : Cap} {need : Need} {x n : Nat} {dst : Coord} {addr : Nat}
    (h : reachesFar t c need x n dst addr = true) : ReachesFar t c need x n dst addr := by
  unfold reachesFar at h
  split at h
  · rename_i p hp
    simp only [Bool.and_eq_true, beq_iff_eq] at h
    exact ⟨p, hp, h.1, h.2⟩
  · cases h

/-- The key of byte `o` of the core's scratchpad. -/
def key (o : Nat) : Nat := scratchKey c0 0x80000000040 o

/-- The bytes FE 80 stand at scratchpad address 0x100, and a tagged capability at 0x110. -/
def filled : State := (one.writeBytes (key 0x100) [0xFE, 0x80]).writeCap (key 0x110) codeCap

theorem meets_LoadsReadTheirBytes : ∃ t, Issues filled (usesG [3] [1]) t ∧
    (decide (t.migrationTarget (t.g 1) loadNeed 0x100 2 = none) && reaches t (t.g 1) loadNeed 0x100 2 (key 0x100) &&
      next (exec (.ldI16 3 1 0) filled) (fun n => n.ga 3 == 0xFFFFFFFFFFFF80FE) &&
      next (exec (.ldN16 3 1 0) filled) (fun n => n.ga 3 == 0x80FE) &&
      next (exec (.ldI8 3 1 1) filled) fun n => n.ga 3 == 0xFFFFFFFFFFFFFF80) = true := meets_ok (by decide)

theorem meets_StoresWriteTheirBytes : ∃ t, Issues filled (usesG [] [5, 1]) t ∧
    (decide (t.migrationTarget (t.g 1) storeNeed 0x110 4 = none) && reaches t (t.g 1) storeNeed 0x110 4 (key 0x110) &&
      next (exec (.st32 5 1 0x10) filled) fun n => n.readNat (key 0x110) 8 == 0x04000000FFFFFFFE && n.tags == [] &&
        filled.tags == [key 0x110 / 16]) = true := meets_ok (by decide)

theorem test_store_at_the_last_byte : next (exec (.st8 2 1 0) (withThread fun x => { x with
    g := [(1, makeCap 0xDF0 0 0 0 31744 31743), (2, Cap.ofWord 7)] })) (fun n => n.byteAt (key 31743) == 7) = true := by
  decide
theorem test_store_beyond_the_partition : trapped (exec (.st8 2 1 0) (withThread fun x => { x with
    g := [(1, makeCap 0xDF0 0 0 0 0x10000 31744), (2, Cap.ofWord 7)] })) 0x09 0x0400000000010100 31744 = true := by decide

/-- An integer with two nonzero ends, to be stored across a granule boundary. -/
def wide : State := withThread fun x => { x with g := [(1, localCap), (5, Cap.ofWord 0x1122334455667788)] }

theorem meets_StraddlingAccesses : ∃ t, Issues wide (usesG [] [5, 1]) t ∧
    (decide (t.sl.wayfarer = false) && reachesTwo t (t.g 1) storeNeed 0x13D 8 3 (key 0x13D) (key 0x140) &&
      next (exec (.st64 5 1 0x3D) wide) fun n => n.readNat (key 0x13D) 8 == 0x1122334455667788) = true := meets_ok (by decide)

theorem meets_StraddlingAccesses_load : ∃ t, Issues filled (usesG [3] [1]) t ∧
    (decide (t.sl.wayfarer = false) && reachesTwo t (t.g 1) loadNeed 0xFE 8 2 (key 0xFE) (key 0x100) &&
      next (exec (.ldN64 3 1 0xFFE) filled) fun n => n.ga 3 == 0x80FE0000) = true := meets_ok (by decide)

theorem meets_AcquireAndRelease : ∃ t, Issues filled (usesG [3] [1, 7]) t ∧
    (decide (scopeBad (t.ga 7) = false) && reaches t (t.g 1) { l := true, oneGranule := true } 0x100 2 (key 0x100) &&
      next (exec (.ldAcq 3 1 7 2) filled) fun n => n.ga 3 == 0xFFFFFFFFFFFF80FE) = true := meets_ok (by decide)

theorem meets_AcquireAndRelease_store : ∃ t, Issues filled (usesG [] [5, 1, 7]) t ∧
    (decide (scopeBad (t.ga 7) = false) && reaches t (t.g 1) { s := true, oneGranule := true } 0x100 2 (key 0x100) &&
      next (exec (.stRel 5 1 7 2) filled) fun n => n.readNat (key 0x100) 4 == 0xFFFE) = true := meets_ok (by decide)

theorem meets_CapabilitiesInMemory : ∃ t, Issues filled (usesG [3] [1]) t ∧
    (decide (key 0x110 % 16 = 0) && reaches t (t.g 1) { l := true, align := 16 } 0x110 16 (key 0x110) &&
      next (exec (.ldc 3 1 0x10) filled) fun n => n.g 3 == codeCap) = true := meets_ok (by decide)

theorem meets_CapabilitiesInMemory_store : ∃ t, Issues filled (usesG [] [4, 1]) t ∧
    (decide ((t.g 4).tag = true) && reaches t (t.g 1) { s := true, align := 16, storesCap := some false } 0x120 16 (key 0x120) &&
      next (exec (.stc 4 1 0x20) filled) fun n => n.readCap (key 0x120) == codeCap) = true := meets_ok (by decide)

theorem meets_AccessesNeedTheirCapability : ∃ t, Issues one (usesG [3] [2]) t ∧
    (decide ((t.g 2).tag = false) && trapped (exec (.ldN64 3 2 1) one) 0x05 0x0400000000010100 8) = true := meets_ok (by decide)

theorem meets_AccessesNeedTheirCapability_permission : ∃ t, Issues one (usesG [] [3, 4]) t ∧
    (decide ((t.g 4).tag = true ∧ (t.g 4).canStore = false) &&
      trapped (exec (.st64 3 4 0) one) 0x07 0x0400000000010100 0x0400000000010100) = true := meets_ok (by decide)

/-- The scratchpad of the core (0, 0, 1) through a REMOTE capability in g1. -/
def remote : State := (withThread fun x => { x with
  g := [(1, makeCap 0xDF0 0 0 0x0300010000000000 0x1000 0x0300010000000100), (2, Cap.ofWord 7), (3, Cap.ofWord 0x0001)] }).modCore c1
    fun x => { x with partw := 0x80000000040 }

theorem meets_RemoteLoads : ∃ t, Issues remote (usesG [3] [1]) t ∧
    (decide (t.slot ≠ 0 ∧ t.sl.wayfarer = false ∧ freeTag t.cr.msg = some 0 ∧ (t.sendQueue t.core false).length < 16) &&
      reachesFar t (t.g 1) loadNeed 0x0300010000000100 8 c1 0xF00000000100 &&
      next (exec (.ldN64 3 1 0) remote) fun n => n.sl.st == .stalled && n.net.map (·.addr) == [0xF00000000100] &&
        n.net.map (·.dst) == [c1]) = true := meets_ok (by decide)

theorem meets_FencesAndPrefetch : ∃ t, Issues one (usesG [] [7]) t ∧
    (decide (scopeBad (t.ga 7) = false) && next (exec (.fence 7 3) one) (fun n => n.sl.pc.addr == 0x0400000000010104) &&
      next (exec .ifence one) (fun n => n.sl.pc.addr == 0x0400000000010104) &&
      next (exec (.pref 0 7 0) one) fun n => n.sl.pc.addr == 0x0400000000010104) = true := meets_ok (by decide)

/-! ### Atomics -/

theorem meets_AtomicsReadModifyWrite : ∃ t, Issues filled (atomicUses 3 [1, 2] 7 3) t ∧
    (decide (scopeBad (t.ga 7) = false ∧ t.migrationTarget (t.g 1) (atomicNeed 4) 0x100 4 = none) &&
      reaches t (t.g 1) (atomicNeed 4) 0x100 4 (key 0x100) &&
      next (exec (.amoAddN32 3 1 2 7 3) filled) (fun n => n.ga 3 == 0x80FE && n.readNat (key 0x100) 4 == 0x8105) &&
      next (exec (.amoMinI32 3 1 5 7 0) filled) (fun n => n.readNat (key 0x100) 4 == 0xFFFFFFFE) &&
      next (exec (.amoMinuN32 3 1 5 7 0) filled) (fun n => n.readNat (key 0x100) 4 == 0x80FE) &&
      next (exec (.amoFaddF32 3 1 7 7 0) filled) fun n => n.readNat (key 0x100) 4 == 0x80FE) = true := meets_ok (by decide)

theorem test_atomic_alignment : trapped (exec (.amoAddN32 3 1 2 0 0) (withThread fun x => { x with
    g := [(1, { localCap with addr := 0x102 })] })) 0x0B 0x0400000000010100 0x102 = true := by decide

theorem meets_CompareAndSwap : ∃ t, Issues filled (atomicUses 3 [1, 2, 3] 0 0) t ∧
    (reaches t (t.g 1) (atomicNeed 8) 0x108 8 (key 0x108) && reaches t (t.g 1) (atomicNeed 8) 0x100 8 (key 0x100) &&
      next (exec (.casN64 3 1 2 0 0) filled) fun n => n.ga 3 == 0x80FE && n.readNat (key 0x100) 8 == 0x80FE) = true :=
  meets_ok (by decide)

theorem test_cas_swaps : next (exec (.casN64 3 1 2 0 0) (withThread fun x => { x with g := [(1, localCap), (2, Cap.ofWord 7)] }))
    (fun n => n.readNat (key 0x100) 8 == 7 && n.ga 3 == 0) = true := by decide

/-! ### Messages -/

/-- A message word in g1 for core (0, 0, 1), handler 5, without and with a reply, arguments in g4 to g7. -/
def sender (w : Nat) : State := withThread fun x => { x with
  g := [(1, Cap.ofWord (word w)), (2, localCap), (4, Cap.ofWord 7), (7, Cap.ofWord 9)] }

theorem meets_SendsWithoutReply : ∃ t, Issues (sender 0x50001) (usesG [3] (1 :: four 4)) t ∧
    (decide (bit (t.ga 1).toNat 23 = false ∧ bit ((sender 0x50001).landedG 1).toNat 23 = false ∧ destFault t c1 = none ∧
        t.sendRoom false = true ∧ wordBad 0x50001 false = false) &&
      next (exec (.send 3 1 4) (sender 0x50001)) fun n => n.ga 3 == 0 && n.net.map (·.op) == [0x06] && n.net.map (·.dst) == [c1] &&
        n.net.map (·.pay) == [.bytes (leBytes 8 0x100000005 ++ leBytes 8 7 ++ leBytes 8 0 ++ leBytes 8 0 ++ leBytes 8 9)]) = true :=
  meets_ok (by decide +kernel)

theorem meets_SendsWithoutReply_buffer : ∃ t, Issues (sender 0x30000050001) (usesG [3] [1, 2]) t ∧
    (decide (wordBad 0x30000050001 true = false ∧ destFault t c1 = none ∧ t.sendRoom false = true) &&
      covers t (t.g 2) (sendxNeed t 2 false) 0x100 4 (key 0x100) &&
      next (exec (.sendx 3 1 2) (sender 0x30000050001)) fun n => n.net.map (·.pay) ==
        [.bytes (leBytes 8 0x100030105 ++ [0, 0, 0, 0])]) = true := meets_ok (by decide +kernel)

theorem meets_SendsWithReply : ∃ t, Issues (sender 0x850001) (usesG (3 :: four 4) (1 :: four 4)) t ∧
    (decide (bit ((sender 0x850001).landedG 1).toNat 23 = true ∧ destFault t c1 = none ∧ t.slot ≠ 0 ∧ freeTag t.cr.msg = some 0 ∧
        wordBad 0x850001 false = false) &&
      next (exec (.send 3 1 4) (sender 0x850001)) fun n => n.sl.st == .stalled && n.net.map (·.rq) == [true]) = true :=
  meets_ok (by decide +kernel)

theorem meets_SendsWithReply_buffer : ∃ t, Issues (sender 0x850001) (usesG [3] [1, 2]) t ∧
    (covers t (t.g 2) (sendxNeed t 2 false) 0x100 1 (key 0x100) && covers t (t.g 2) (sendxNeed t 2 true) 0x100 256 (key 0x100) &&
      next (exec (.sendx 3 1 2) (sender 0x850001)) fun n => n.sl.st == .stalled) = true := meets_ok (by decide +kernel)

theorem test_send_checks_its_destination : next (exec (.send 3 1 4) (sender 0x5F000)) (fun n =>
    n.sl.sys.ecause == 9 && n.sl.sys.epc == 0x0400000000010100 && n.net == []) = true := by decide +kernel

/-- A handler that serves a request of core (0, 0, 1). -/
def serving : State := handler.modCr fun x => { x with
  msg := { x.msg with handling := some { dst := c0, src := c1, op := 0x06, rq := true, tag := 4 } } }

theorem meets_HandlersReturn : ∃ t, Issues serving { usesG [] (four 4) with vr := hretRegs 4 0 1 } t ∧
    (decide (serving.slot = 0 ∧ t.slot = 0 ∧ t.sendRoom true = true) &&
      next (exec (.hret 4 0 1) serving) fun n => n.net.map (·.op) == [0x44] && n.net.map (·.bc) == [31] && n.net.map (·.dst) == [c1] &&
        n.slotAt c0 0 == { gen := 3 } && decide (n.cr.msg.handling = none)) = true := meets_ok (by decide +kernel)

theorem meets_HandlersReturn_acknowledgement : ∃ t, Issues serving { usesG [] [4] with vr := hretRegs 4 0 0 } t ∧
    (next (exec (.hret 4 0 0) serving) fun n => n.net.map (·.op) == [0x41] && n.net.map (·.tag) == [4]) = true :=
  meets_ok (by decide +kernel)

theorem meets_HandlersReturn_vectors : ∃ t, Issues serving { usesG [] [] with vr := hretRegs 4 1 2 } t ∧
    (next (exec (.hret 4 1 2) serving) fun n => n.net.map (·.bc) == [63]) = true := meets_ok (by decide +kernel)

/-- A mailbox at port 2 of core (0, 0, 0), and the names of both cores in g7 and g3. -/
def mailbox : State := (withThread fun x => { x with g := [(1, localCap), (2, Cap.ofWord 7), (3, Cap.ofWord 1)] }).modCr fun x =>
  { x with ports := [(2, { bind := .mailbox })] }

theorem meets_PortValues : ∃ t, Issues mailbox (usesG [] [3, 2]) t ∧
    (decide ((t.ga 3).toNat < 2 ^ 16 ∧ destFault t c1 = none ∧ c1 ≠ t.core ∧ t.sendRoom false = true) &&
      next (exec (.putreg 3 2 2) mailbox) fun n => n.net.map (·.pay) == [.port 2 7] && n.net.map (·.op) == [0x07]) = true :=
  meets_ok (by decide +kernel)

theorem meets_PortValues_own : ∃ t, Issues mailbox { usesG [] [7] with vr := [(5, 1)] } t ∧
    (decide (BitVec.ofNat 16 (t.ga 7).toNat = t.core ∧ destFault t c0 = none ∧ t.cr.portUse 2 = 0) &&
      next (exec (.putregV 7 5 2) mailbox) fun n => (n.cr.port 2).q == [0]) = true := meets_ok (by decide +kernel)

theorem meets_PortBindings : ∃ t, Issues mailbox { ownOnly := true } t ∧
    (decide ((t.cr.port 3).bind = .unbound ∧ (t.cr.port 2).bind ≠ .unbound) &&
      next (exec (.bindMbx 3) mailbox) (fun n => (n.cr.port 3).bind == .mailbox) &&
      next (exec (.unbind 2) mailbox) (fun n => (n.cr.port 2).bind == .unbound) &&
      trapped (exec (.bindMbx 2) mailbox) 0x02 0x0400000000010100 0) = true := meets_ok (by decide +kernel)

theorem meets_PortBindings_stream : ∃ t, Issues mailbox { usesG [] [2] with ownOnly := true } t ∧
    (decide ((t.ga 2).toNat < 16 ∧ ∀ e ∈ t.cr.ports, e.2.bind ≠ .stream 7) &&
      next (exec (.bindStr 3 2) mailbox) fun n => (n.cr.port 3).bind == .stream 7) = true := meets_ok (by decide +kernel)

/-- Two entries in the pigeonhole: a good one of the porter with DONEC 4, and one with cause 0x10. -/
def done : State := one.modCr fun x => { x with
  msg := { x.msg with pigeonhole := [BitVec.ofNat 512 (2 ^ 504 + 2 ^ 496 * 6 + 2 ^ 320 * 4), BitVec.ofNat 512 (2 ^ 488 * 16 + 2 ^ 352 * 77)] } }

theorem meets_PigeonholeReads : ∃ t, Issues done (usesG [3] []) t ∧
    (decide ((t.cr.msg.pigeonhole.headD 0).extractLsb' 488 8 = 0) &&
      next (exec (.pget 3) done) (fun n => n.ga 3 == 0x0106000000000004 && n.cr.msg.pigeonhole.length == 1) &&
      next (exec (.ppeek 3) done) fun n => n.ga 3 == 0x0106000000000004 && n.cr.msg.pigeonhole.length == 2) = true :=
  meets_ok (by decide +kernel)

theorem meets_PigeonholeReads_whole : ∃ t, Issues done { vw := [(3, 1)] } t ∧
    (next (exec (.pgetV 3) done) (fun n => look 0 n.sl.v 3 == t.cr.msg.pigeonhole.headD 0) &&
      next (exec (.ppeekV 3) one) fun n => look 0 n.sl.v 3 == 0) = true := meets_ok (by decide +kernel)

theorem meets_PigeonholeReads_fault :
    ∃ t, Issues (done.modCr fun x => { x with msg := { x.msg with pigeonhole := x.msg.pigeonhole.drop 1 } }) (usesG [3] []) t ∧
    (decide ((t.cr.msg.pigeonhole.headD 0).extractLsb' 488 8 ≠ 0) &&
      trapped (exec (.pget 3) (done.modCr fun x => { x with msg := { x.msg with pigeonhole := x.msg.pigeonhole.drop 1 } }))
        0x112 0x0400000000010104 77) = true := meets_ok (by decide +kernel)

theorem meets_PigeonholeReads_empty : ∃ t, Issues one (usesG [3] []) t ∧
    (decide (t.cr.msg.pigeonhole = [] ∧ t.slot ≠ 0) && next (exec (.pget 3) one) fun n => n.sl.st == .waiting) = true :=
  meets_ok (by decide +kernel)

/-- A wayfarer that may migrate. -/
def wayfarer : State := withThread fun x => { x with wayfarer := true, mpol := 1, quota := 0, g := [(3, Cap.ofWord 1)] }

theorem meets_MigrateMovesAWayfarer : ∃ t, Issues wayfarer (usesG [5] [3]) t ∧
    (decide (t.sl.wayfarer = true ∧ (t.ga 3).toNat < 2 ^ 16 ∧ destFault t c1 = none ∧ c1 ≠ t.core ∧ t.sl.mpol ≠ 0 ∧
        t.sl.inUser = false ∧ t.sl.inSystem = false ∧ t.mayDepart = true) &&
      next (exec (.migrate 5 3) wayfarer) fun n => n.sl.st == .transit && n.net.map (·.op) == [0x60]) = true := meets_ok (by decide +kernel)

theorem meets_MigrateMovesAWayfarer_home : ∃ t, Issues wayfarer (usesG [5] [7]) t ∧
    (decide (BitVec.ofNat 16 (t.ga 7).toNat = t.core ∧ destFault t c0 = none) &&
      next (exec (.migrate 5 7) wayfarer) fun n => n.ga 5 == 2) = true := meets_ok (by decide +kernel)

theorem meets_MigrateMovesAWayfarer_policy : ∃ t, Issues (wayfarer.modSl fun x => { x with mpol := 0 }) (usesG [5] [3]) t ∧
    (decide (t.sl.mpol = 0) && next (exec (.migrate 5 3) (wayfarer.modSl fun x => { x with mpol := 0 })) fun n => n.ga 5 == 0) = true :=
  meets_ok (by decide +kernel)

theorem meets_LinksWake : ∃ t, Issues remote (usesG [] [3]) t ∧
    (decide ((t.ga 3).toNat < 2 ^ 16 ∧ coreExists c1 = true) &&
      next (exec (.lwake 3 1) remote) fun n => n.sl.pc.addr == 0x0400000000010104) = true := meets_ok (by decide +kernel)

/-! ### Barriers, named events, notice boards -/

/-- A barrier object of 3 members at scratchpad address 0x100: phase `p`, `e` expected, members of `m` arrived. -/
def barrier (p e m : Nat) : State :=
  (((one.writeNat (key 0x100) 4 p).writeNat (key 0x104) 2 3).writeNat (key 0x106) 2 e).writeNat (key 0x140) 8 m

theorem test_barrier_fields : (barrier 4 2 1).barAt (key 0x100) =
    { phase := 4, n := 3, exp := 2, btot := 0, bytes := 0, unit := 0, spent := false, amask := 1, dmask := 0 } := by decide +kernel

theorem meets_BarriersStart : ∃ t, Issues one (usesG [] [1, 3]) t ∧
    (covers t (t.g 1) objectNeed 0x100 192 (key 0x100) && decide (t.sl.mem.unit < 2 ^ 32 ∧ 1 ≤ (t.ga 3).toNat ∧ (t.ga 3).toNat ≤ 512) &&
      next (exec (.barinit 1 3) one) fun n => (n.barAt (key 0x100)).n == 5 && (n.barAt (key 0x100)).exp == 5) = true :=
  meets_ok (by decide +kernel)

/-- The barrier machine with the operands 1 in g10, 2 in g11 and 4 in g12. -/
def atBarrier (p e m : Nat) : State := (barrier p e m).modSl fun x => { x with
  g := [(1, localCap), (10, Cap.ofWord 1), (11, Cap.ofWord 2), (12, Cap.ofWord 4)] }

theorem meets_BarrierArrivals : ∃ t, Issues (atBarrier 4 2 1) (usesG [2] [1, 10]) t ∧
    (covers t (t.g 1) objectNeed 0x100 192 (key 0x100) &&
      decide ((t.barAt (key 0x100)).unit = t.sl.mem.unit ∧ (t.barAt (key 0x100)).amask.getLsbD 1 = false) &&
      next (exec (.bararr 2 1 10) (atBarrier 4 2 1)) fun n => n.ga 2 == 4 && (n.barAt (key 0x100)).phase == 4 &&
        (n.barAt (key 0x100)).exp == 1 && (n.barAt (key 0x100)).amask == 3) = true := meets_ok (by decide +kernel)

theorem meets_BarrierArrivals_last : ∃ t, Issues (atBarrier 0xFFFFFFFF 1 3) (usesG [2] [1, 11]) t ∧
    (decide ((t.barAt (key 0x100)).exp = 1 ∧ (t.barAt (key 0x100)).bytes = (t.barAt (key 0x100)).btot) &&
      next (exec (.bardrop 2 1 11) (atBarrier 0xFFFFFFFF 1 3)) fun n => n.ga 2 == 0xFFFFFFFF && n.barAt (key 0x100) ==
        { phase := 0, n := 3, exp := 2, btot := 0, bytes := 0, unit := 0, spent := false, amask := 4, dmask := 4 }) = true :=
  meets_ok (by decide +kernel)

theorem meets_BarrierArrivals_traps : ∃ t, Issues (atBarrier 4 2 2) (usesG [2] [1, 10]) t ∧
    (decide ((t.barAt (key 0x100)).amask.getLsbD 1 = true ∧ (t.barAt (key 0x100)).n ≤ (t.ga 12).toNat) &&
      trapped (exec (.bararr 2 1 10) (atBarrier 4 2 2)) 0x0C 0x0400000000010100 0x100 &&
      trapped (exec (.bararr 2 1 12) (atBarrier 4 2 2)) 0x02 0x0400000000010100 0) = true := meets_ok (by decide +kernel)

theorem meets_BarrierWaitsAndBytes : ∃ t, Issues (atBarrier 4 2 1) (usesG [2] [1, 12]) t ∧
    (decide ((t.barAt (key 0x100)).phase = (t.ga 12).toNat % 2 ^ 32 ∧ (t.coreAt (homeOf t.core (key 0x100))).watch.length < 64 ∧ (freeTag t.cr.msg).isSome = true) &&
      next (exec (.barwait 2 1 12) (atBarrier 4 2 1)) (fun n => n.sl.st == .waiting && n.cr.watch.map (·.obj) == [key 0x100]) &&
      next (exec (.barwait 2 1 11) (atBarrier 4 2 1)) fun n => n.ga 2 == 4 && n.sl.st == .ready) = true := meets_ok (by decide +kernel)

theorem meets_BarrierWaitsAndBytes_bytes : ∃ t, Issues (atBarrier 4 0 7) (usesG [] [1, 7]) t ∧
    (decide ((t.barAt (key 0x100)).exp = 0 ∧ (t.barAt (key 0x100)).bytes = (t.ga 7).toNat) &&
      next (exec (.barexp 1 7) (atBarrier 4 0 7)) (fun n => (n.barAt (key 0x100)).phase == 5) &&
      next (exec (.barexp 1 11) (atBarrier 4 2 1)) fun n => (n.barAt (key 0x100)).btot == 2) = true := meets_ok (by decide +kernel)

/-- Job 1 has event 0x3005, whose name g3 holds. -/
def ringing : State := { (withThread fun x => { x with g := [(3, Cap.ofWord 0x3005)] }) with
  jobs := [(1, { live := true, code := codeCap, counter := 9, evec := 0x0000002000000040, events := [0x3005] })] }

theorem meets_EventRequests : ∃ t, Issues ringing (usesG [5] [3]) t ∧
    (decide ((t.ga 3).toNat < 2 ^ 16 ∧ t.job.events.contains 0x3005 = true ∧ t.dieLive 3 = true ∧ freeTag t.cr.msg = some 0 ∧
        t.sendRoom false = true ∧ t.slot ≠ 0) &&
      next (exec (.evwait 5 3) ringing) (fun n => n.sl.st == .waiting && n.net.map (·.dst) == [dieScheduler 3]) &&
      next (exec (.evqry 5 3) ringing) fun n => n.sl.st == .stalled && n.net.map (·.pay) == [.event .qry 0x3005]) = true :=
  meets_ok (by decide +kernel)

/-- A request for event 0x3005 on its way to its home. -/
def asking (op : EventOp) (e : EventState) : State :=
  ({ ringing with net := [{ dst := dieScheduler 3, src := c0, op := 0xC1, rq := true, slot := 1, gen := 3, tag := 6
                            pay := .event op 0x3005 }] } : State).setEvent 0x3005 e

theorem meets_EventsAtTheirHome : next (exec (.event c0 (dieScheduler 3)) (asking .wait {})) (fun n =>
      ((asking .wait {}).arriving c0 (dieScheduler 3) 0xC1).isSome && (n.eventAt 0x3005).waiters.length == 1 && n.net == []) = true ∧
    next (exec (.event c0 (dieScheduler 3)) (asking .sig { waiters := (asking .wait {}).net })) (fun n =>
      (n.eventAt 0x3005).set && (n.eventAt 0x3005).nsig == 1 && n.net.map (·.op) == [0xC2, 0x41] && n.net.map (·.dst) == [c0, c0]) = true ∧
    next (exec (.event c0 (dieScheduler 3)) (asking .wait { set := true, nsig := 7 })) (fun n =>
      n.net.map (·.op) == [0x40] && (n.eventAt 0x3005).waiters == []) = true ∧
    next (exec (.event c0 (dieScheduler 3)) (asking .clr { set := true, nsig := 7 })) (fun n =>
      n.eventAt 0x3005 == { nsig := 7 }) = true := by decide +kernel

/-- The thread waits in EVWAIT for event 0x3005, and its WAKE with state word 0x100000001 is on its way. -/
def waking : State := { (ringing.modSl fun x => { x with
    st := .waiting, await := .event 0x3005, pend := some { pieces := [{ tag := 6, addr := 0, runs := [(0, 0, 8)] }], len := 4, fin := .word 5 } }) with
  net := [{ dst := c0, src := dieScheduler 3, op := 0xC2, slot := 1, gen := 3, pay := .woken 0x3005 0x100000001 }] }

theorem meets_WakesAndOverflow : next (exec (.wake (dieScheduler 3) c0) waking) (fun n =>
      (waking.arriving (dieScheduler 3) c0 0xC2).isSome && n.ga 5 == 0x100000001 && n.sl.st == .ready &&
      n.sl.pc.addr == 0x0400000000010104) = true := by decide +kernel

theorem meets_WakesAndOverflow_replay :
    next (exec (.overflowReplay 0x3005) (ringing.setEvent 0x3005 { set := true, overflow := (asking .wait {}).net, covered := 1 }))
      (fun n => (n.eventAt 0x3005).overflow == [] && (n.eventAt 0x3005).covered == 0 && n.net.map (·.op) == [0xC2]) = true ∧
    next (exec (.overflowQueueExtend 0x3005) (ringing.setEvent 0x3005 { extending := (asking .wait {}).net }))
      (fun n => (n.eventAt 0x3005).overflow.length == 1 && (n.eventAt 0x3005).extending == [] && n.net == []) = true := by decide +kernel

/-- A board of 3 slots for handle 5 at scratchpad address 0x100, slot 1 owned by core (0, 0, 0) and the others by (0, 0, 1). -/
def board : State := ((one.writeNat (key 0x100) 6 0x000100000001).writeNat (key 0x548) 4 0x50003).modSl fun x => { x with
  g := [(1, makeCap 0xDF0 0 0 0 0x4000 0x100), (10, Cap.ofWord 1), (11, Cap.ofWord 0x30005), (12, Cap.ofWord 4)] }

theorem meets_NoticeBoards : ∃ t, Issues board { usesG [] [10, 1, 12] with ownOnly := true } t ∧
    (covers t (t.g 1) boardNeed 0x100 5248 (key 0x100) &&
      decide ((t.ga 10).toNat < 512 ∧ t.readNat (key 0x102) 2 = t.core.toNat ∧ t.readNat (key 0x100) 2 ≠ t.core.toNat) &&
      next (exec (.postv 10 1 12 2) board) (fun n => n.readNat (key 0x588) 8 == 4 && n.readNat (key 0x500) 8 == 2 &&
        n.readNat (key 0x540) 4 == 1 && n.view 2 == BitVec.ofNat 576 (n.boardView (key 0x100))) &&
      trapped (exec (.postv 7 1 12 2) board) 0x11 0x0400000000010100 0x100) = true := meets_ok (by decide +kernel)

theorem meets_NoticeBoards_init : ∃ t, Issues board (usesG [] [1, 11]) t ∧
    (decide ((t.ga 11).toNat < 2 ^ 26 ∧ 1 ≤ (t.ga 11).toNat / 2 ^ 16) &&
      next (exec (.brdinit 1 11) board) (fun n => n.sl.pc.addr == 0x0400000000010104) &&
      next (exec (.brdclr 1) board) fun n => n.sl.pc.addr == 0x0400000000010104) = true := meets_ok (by decide +kernel)

theorem meets_NoticeBoards_read : ∃ t, Issues board { usesG [3] [1, 10] with ownOnly := true } t ∧
    (decide ((t.ga 10).toNat < t.readNat (key 0x548) 2) && next (exec (.brdread 3 1 10 0) board) fun n => n.ga 3 == 0) = true :=
  meets_ok (by decide +kernel)

/-! ### Traps and the system instructions -/

theorem meets_TrapEntry_user : (decide (one.sl.priv = false ∧ one.evec.toNat % 2 ^ 32 ≠ 0 ∧ one.sl.inUser = false) &&
    (let n := one.takeTrap 0x0B 0x40 0x99; n.sl.inUser && n.sl.pc == { codeCap with addr := 0x0400000000010040 } &&
      n.sl.sys.ecause == 0x0B && n.sl.sys.epc == 0x40 && n.sl.sys.eaddr == 0x99 && n.sl.trapUser.hi == codeCap.hi)) = true := by
  decide +kernel

theorem meets_TrapEntry_system : (decide (one.evec.toNat / 2 ^ 32 ≠ 0 ∧ one.sl.inSystem = false) &&
    (let n := one.takeTrap 0x15 0x40 0x99; n.sl.inSystem && n.sl.priv && n.sl.pc.addr == 0x0400000000010020) &&
    (let n := (one.takeTrap 0x0B 0x40 0x99).takeTrap 0x0B 0x44 0; n.sl.inSystem && n.sl.inUser && n.sl.sys.epc == 0x44)) = true := by
  decide +kernel

theorem meets_TrapEntry_unhandled : (let s := withThread fun x => { x with sys := { x.sys with evec := 0 } }
    decide (s.evec = 0 ∧ s.slot ≠ 0) && (let n := s.takeTrap 0x0B 0x40 0x99; n.sl.st == .frozen && n.net.map (·.dst) == [firmware])) =
    true := by decide +kernel

theorem meets_BreakpointsAndCalls : ∃ t, Issues one {} t ∧
    (trapped (exec (.brk 0x123) one) 0x14 0x0400000000010100 0x123 &&
      next (exec (.trap 0x15) one) fun n => n.sl.inSystem && n.sl.sys.ecause == 0x15 && n.sl.sys.epc == 0x0400000000010104 &&
        n.sl.sys.eaddr == 0x15) = true := meets_ok (by decide +kernel)

/-- The thread in its user routine. -/
def inTrap : State := one.takeTrap 0x14 one.sl.pc.addr 0x99

theorem meets_TrapReturn : ∃ t, Issues inTrap { sync := true } t ∧
    (decide (inRoutine inTrap.sl = true ∧ targetFault t (eretTarget t.sl) = none ∧ trapLevel one.sl one.evec 0x14 = some false ∧
        one.sl.pc.addr.getLsbD 0 = false) &&
      next (exec .eret inTrap) (fun n => n.sl == one.sl) &&
      trapped (exec .eret one) 0x01 0x0400000000010100 0) = true := meets_ok (by decide +kernel)

/-- An engine job of the thread that leases v3. -/
def leased : State := one.modCr fun x => { x with eng := { x.eng with
  jobs := [{ kind := 2, op := 0x81, f := ef 1, core := c0, slot := 1, gen := 3, id := 6, job := 1, priv := false, ops := [], leasedV := [3] }] } }

theorem meets_IssueChecksInOrder : trapped (issue one 4 { sysOnly := true, bad := true } fun t => .done t) 0x01 0x0400000000010100 0 &&
    trapped (issue one 4 { bad := true, vr := [(40, 1)] } fun t => .done t) 0x02 0x0400000000010100 0 &&
    trapped (issue one 4 { vr := [(1, 2)] } fun t => .done t) 0x02 0x0400000000010100 0 &&
    trapped (issue one 4 { vr := [(32, 1)] } fun t => .done t) 0x03 0x0400000000010100 0 &&
    trapped (issue leased 4 { vw := [(2, 2)] } fun t => .done t) 0x04 0x0400000000010100 0x206 = true := by decide +kernel

/-- An instruction may not write a result whose window is open (R220). -/
theorem meets_IssueChecksInOrder_window : trapped (issue (withThread fun x => { x with haz := [{ rem := 3, pk := false, vs := [(2, [9])] }] })
    10 { vw := [(2, 1)] } fun t => .done t) 0x02 0x0400000000010100 0 = true := by decide +kernel

theorem meets_SystemRegisters : ∃ t, Issues one (usesG [3] []) t ∧
    (next (exec (.srr 3 0x03) one) (fun n => n.ga 3 == 1) && next (exec (.srr 3 0x43) one) (fun n => n.ga 3 == 0x0000002000000040) &&
      next (exec (.srw 5 0x11) one) (fun n => n.sl.sys.fpstat == 0x3E) && next (exec (.srw 5 0x03) one) (fun n => n.slot == 1) &&
      next (exec (.srs 3 2 0x10) one) (fun n => n.sl.sys.fpctl == 3 && n.ga 3 == 0) &&
      next (exec (.srw 3 0x18) one) (fun n => n.sl.sys.sigdepth == 5)) = true := meets_ok (by decide +kernel)

theorem meets_SystemRegisters_refused : (decide (listedRegister 0x60 = false ∧ one.sl.priv = false) &&
    trapped (exec (.srr 3 0x60) one) 0x01 0x0400000000010100 0 && trapped (exec (.srw 3 0x44) one) 0x01 0x0400000000010100 0 &&
    trapped (exec (.srw 7 0x18) one) 0x02 0x0400000000010100 0) = true := by decide +kernel

/-- The thread at system privilege in the handler slot. -/
def systemHandler : State := handler.modSl fun x => { x with priv := true, g := [(2, Cap.ofWord 0x80000000080), (1, localCap)] }

theorem meets_CoreControl : ∃ t, Issues system { sysOnly := true } t ∧
    (next (exec .halt system) (fun n => n.cr.halted && decide (issueChoice n.core n.cr [] = none)) &&
      next (exec (.tsread 3) { one with ts := 99 }) fun n => n.ga 3 == 99) = true := meets_ok (by decide +kernel)

theorem meets_CoreControl_partition : ∃ t, Issues (systemHandler.modCr fun x => { x with slots := x.slots.filter (·.1 == 0) })
      { usesG [] [2] with sysOnly := true } t ∧
    (decide (t.slot = 0 ∧ partwValid t.core (t.ga 2) = true ∧ t.quiet t.core = true)) = true := meets_ok (by decide +kernel)

theorem meets_CoreControl_partition_waits : ∃ t, Issues systemHandler { usesG [] [2] with sysOnly := true } t ∧
    (decide (t.quiet t.core = false) && next (exec (.partset 2) systemHandler) fun n =>
      n.sl.st == .stalled && decide (n.cr.partPending = some 0x80000000080)) = true := meets_ok (by decide +kernel)

theorem meets_CoreControl_curve : ∃ t, Issues one (usesG [] [1]) t ∧
    (covers t (t.g 1) loadNeed 0x100 192 (key 0x100) && curveValid (BitVec.ofNat 1536 (t.readNat (key 0x100) 192)) &&
      next (exec (.curve 1 2) one) (fun n => look identityCurve n.cr.eng.curves 2 == 0) &&
      trapped (exec (.curve 1 2) filled) 0x02 0x0400000000010100 0) = true := meets_ok (by decide +kernel)

theorem meets_CoreControl_invalidation : ∃ t, Issues system { usesG [] [7, 8] with sysOnly := true } t ∧
    (decide (t.cr.msg.tags = [] ∧ t.sendQueue t.core false = []) && next (exec (.tlbinv 7 8 1) system) fun n =>
      n.sl.st == .stalled && n.net.length == 17) = true := meets_ok (by decide +kernel)

/-- A thread at system privilege with a system capability of its scratchpad in g1. -/
def saver : State := withThread fun x => { x with priv := true, quota := 0, g := [(1, makeCap 0xDF4 0 0 0 0x4000 0x400), (2, Cap.ofWord 7)] }

theorem splitBits_length (w n x : Nat) : (splitBits w n x).length = n := by
  induction n generalizing x with
  | zero => rfl
  | succ n ih => simp [splitBits, ih]

theorem leBytes_length (n x : Nat) : (leBytes n x).length = n := by
  induction n generalizing x with
  | zero => rfl
  | succ n ih => simp [leBytes, ih]

theorem sum_const {α : Type} (n : Nat) (l : List α) : (l.map fun _ => n).sum = n * l.length := by
  induction l with
  | nil => rfl
  | cons a l ih => rw [List.map_cons, List.sum_cons, ih, List.length_cons, Nat.mul_succ, Nat.add_comm]

/-- The image of a thread without vector registers and without results that have not landed takes 1,328 bytes (R431). -/
theorem image_length (t : State) (d : GReg) (hq : t.sl.quota = 0) (hw : t.sl.wayfarer = false) (h : t.sl.haz = [])
    (hu : t.sl.trapUser.haz = []) (hs : t.sl.trapSystem.haz = []) : (dwordBytes (imageDwords t d)).length = 1328 := by
  have e : (imageDwords t d).length = 166 := by
    simp only [imageDwords, ImageOf.words, hq, hw, h, hu, hs]
    simp [hazardLevel, trapDwords, capDwords, splitBits_length, Function.comp_def, sum_const]
  rw [dwordBytes, List.length_flatMap]
  simp only [leBytes_length]
  rw [sum_const, e]

theorem meets_Contexts : ∃ t, Issues saver { usesG [3] [1] with sysOnly := true } t ∧
    (decide (t.unleased = true ∧ (t.g 1).isSystem = true ∧ t.sl.quota = 0 ∧ t.sl.wayfarer = false ∧ t.sl.haz = [] ∧
        t.sl.trapUser.haz = [] ∧ t.sl.trapSystem.haz = []) &&
      covers t (t.g 1) { s := true, align := 16 } 0x400 1328 (key 0x400)) = true := meets_ok (by decide +kernel)

/-- The image of a thread of job 1 without vector registers that is zero but for its length, its job and its check word. -/
def loader : State := { saver with mem := [(key 0x404, 0x30), (key 0x405, 0x05), (key 0x408, 0x01), (key 0x478, 0x01),
  (key 0x47C, 0x30), (key 0x47D, 0x05)] }

/-- The hypotheses of the CTXLOAD statement hold of `t`. -/
def restores (t : State) : Bool :=
  let m : Image := { d := (List.range 166).map fun i => t.readNat (key 0x400 + 8 * i) 8 }
  decide ((t.g 1).isSystem = true ∧ t.readNat (key 0x404) 4 = 8 * 166 ∧ (0x400 + 8 * 166 : Int) ≤ (t.g 1).bounds.2) &&
  covers t (t.g 1) imageNeed 0x400 16 (key 0x400) && covers t (t.g 1) imageNeed 0x400 (8 * 166) (key 0x400) && m.good t (8 * 166)

theorem meets_Contexts_load : ∃ t, Issues loader (ctxloadUses loader.sl 1) t ∧ restores t = true :=
  meets_ok (p := restores) (by decide +kernel)

theorem meets_Contexts_load_refused : ∃ t, Issues saver (ctxloadUses saver.sl 1) t ∧
    (trapped (exec (.ctxload 1) { saver with mem := [(key 0x404, 0x31), (key 0x405, 0x05)] }) 0x02 0x0400000000010100 0 ||
      next (exec (.ctxload 1) { saver with mem := [(key 0x404, 0x31), (key 0x405, 0x05)] }) fun n => n.sl.sys.ecause == 2) = true :=
  meets_ok (by decide +kernel)

theorem meets_Contexts_safe_point : ∃ t, Issues pair { sync := true } t ∧
    (decide (t.sl.mark = none ∧ pair.sl.wayfarer = false) &&
      next (exec (.safept 0x1C 0) pair) fun n => n.sl.pc.addr == 0x040000000001010A && n.ga 2 == 99) = true := meets_ok (by decide +kernel)

/-- The thread under a pre-emption mark, a result of its message still out. -/
def marked : State := (withThread fun x => { x with mark := some 0 }).modCr fun x => { x with
  slots := [(1, { thread with mark := some 0 })]
  eng := { x.eng with jobs := [{ kind := 1, op := 0x90, f := ef 0, core := c0, slot := 1, gen := 3, id := 6, job := 1, priv := false, ops := [] }] } }

theorem meets_Contexts_stands : ∃ t, Issues marked { sync := true } t ∧
    (decide (t.sl.mark ≠ none ∧ t.unitSlots t.core.die t.jobNo t.sl.mem.unit = [(t.core, t.slot)] ∧ t.cr.settled t.slot = false) &&
      next (exec (.safept 0x1C 0) marked) fun n => n.sl.st == .stalled && n.sl.await == .safePoint 0x1C 0) = true :=
  meets_ok (by decide +kernel)

/-! ### Tasks -/

/-- Job 1 with one kernel, a thread record for it in g4 to g7, and a level map of the T0 cores of two rows of die 0. -/
def worker : State := { (withThread fun x => { x with g := [(1, localCap), (4, Cap.ofWord 11), (5, Cap.ofWord 22), (2, Cap.ofWord 5)] }) with
  jobs := [(1, { live := true, code := codeCap, counter := 9, evec := 0x0000002000000040, events := [5]
                 kernels := [{ entry := 0x40, quota := 8, wayfarer := false }] })] }

theorem meets_TaskQueues : ∃ t, Issues worker (usesG [3] (four 4)) t ∧
    (decide (recordValid t.job (tier t.core) (t.recordAt 4) = true ∧ t.cr.dequeRoom = true ∧ recShape (t.recordAt 4) ≠ 2 ∧
        (t.clusterAt t.core).queue.length < 64 ∧ ((t.dieAt t.core.die).queueOf (tier t.core)).length < 4096) &&
      next (exec (.qpush 3 4) worker) (fun n => n.ga 3 == 1 && n.cr.deque.map recParent == [9] && (n.counterAt 9).count == 3) &&
      next (exec (.spawn 3 4 1) worker) (fun n => n.ga 3 == 1 && (n.dieAt 0).queue.length == 1) &&
      next (exec (.spawn 3 4 0) worker) fun n => n.ga 3 == 1 && (n.clusterAt c0).queue.length == 1) = true :=
  meets_ok (by decide +kernel)

theorem meets_TaskQueues_pop : ∃ t, Issues (worker.modCr fun x => { x with deque := [77, 88] }) (usesG (3 :: four 8) []) t ∧
    (next (exec (.qpop 3 8) (worker.modCr fun x => { x with deque := [77, 88] })) (fun n => n.ga 3 == 1 && n.recordAt 8 == 77 &&
        n.cr.deque == [88]) &&
      next (exec (.qpop 3 8) worker) fun n => n.ga 3 == 0) = true := meets_ok (by decide +kernel)

theorem meets_TaskCompletion : ∃ t, Issues one {} t ∧
    (decide (one.slot ≠ 0 ∧ (t.counterAt t.sl.mem.ctr).closed = false ∧ (t.counterAt t.sl.mem.ctr).parent = none) &&
      next (exec .cplsig one) fun n => n.counterAt 9 == { count := 0, closed := true, job := 1 } && n.sl.st == .ready) = true :=
  meets_ok (by decide +kernel)

/-- A record whose parent is counter 9, in g4 to g7. -/
def child : State := withThread fun x => { x with g := [(6, Cap.ofWord (word (9 * 2 ^ 48)))] }

theorem meets_TaskCompletion_task : ∃ t, Issues child (usesG [] (four 4)) t ∧
    (decide (recParent (t.recordAt 4) = 0 ∨ recParent (t.recordAt 4) = 9) &&
      decide ((t.counterAt (recParent (t.recordAt 4))).closed = false ∧ 1 < (t.counterAt (recParent (t.recordAt 4))).count) &&
      next (exec (.cplsigTask 4) child) fun n => (n.counterAt 9).count == 1) = true := meets_ok (by decide +kernel)

theorem meets_TaskCompletion_launch : ∃ t, Issues filled (usesG [3] [1]) t ∧
    (decide (t.slot ≠ 0 ∧ (look [] t.pkg.commands launchQueue).length < 64) && covers t (t.g 1) { l := true } 0x100 128 (key 0x100) &&
      next (exec (.launch 3 1) filled) fun n => n.sl.st == .stalled && (look [] n.pkg.commands launchQueue).length == 1) = true :=
  meets_ok (by decide +kernel)

/-- A level entry for tier 0, dimension 2, rows 0 to 1 and columns 0 to 3 of die 0 in g9, and level 1 mapped to it. -/
def leveled : State := (worker.modSl fun x => { x with g := x.g ++ [(9, Cap.ofWord 0x2000000430000000)] }).setJob 1 { worker.job with
  levels := [(1, 0x2000000430000000)] }

theorem meets_Levels : ∃ t, Issues leveled (usesG [] [9]) t ∧
    (decide (levelValid (t.ga 9).toNat = true ∧ t.levelBusy 2 = false) &&
      next (exec (.lvlmap 9 2) leveled) fun n => look 0 n.job.levels 2 == 0x2000000430000000) = true := meets_ok (by decide +kernel)

theorem meets_Levels_run : ∃ t, Issues leveled (usesG [] [7, 2]) t ∧
    (decide (lvlrunCheck 7 2 1 t = none ∧ t.job.events.contains 5 = true ∧ t.levelBusy 1 = false ∧
        t.job.counter ≠ 2 ^ 20 * t.core.die + t.pkg.nextCounter % 2 ^ 20) &&
      next (exec (.lvlrun 7 2 0 1) leveled) fun n => (n.dieAt 0).queue.length == 1 && (n.counterAt 9).count == 3 &&
        (n.counterAt 1).count == 8) = true := meets_ok (by decide +kernel)

/-- The thread waits for matrix job 6, whose number is in g2. -/
def matrix : State := leased.modSl fun x => { x with g := [(2, Cap.ofWord 6), (3, Cap.ofWord 256)] }

theorem meets_JobStatus : ∃ t, Issues matrix (usesG [5] [2]) t ∧
    (decide ((t.ga 2).toNat < 256 ∧ t.slot ≠ 0 ∧ t.cr.outstanding kindMatrix 6 = true) &&
      next (exec (.mstat 5 2) matrix) (fun n => n.ga 5 == 0xFF06000000000000) && next (exec (.cstat 5 2) matrix) (fun n => n.ga 5 == 0) &&
      next (exec (.mwait 5 2) matrix) (fun n => n.sl.st == .waiting) &&
      trapped (exec (.mstat 5 3) matrix) 0x02 0x0400000000010100 0) = true := meets_ok (by decide +kernel)

/-- Both entries of a core's pigeonhole, the second the matrix engine's. -/
def matrixDone : State := one.modCr fun x => { x with msg := { x.msg with
  pigeonhole := [BitVec.ofNat 512 (2 ^ 504 + 2 ^ 496 * 6 + 2 ^ 320 * 4), BitVec.ofNat 512 (2 ^ 504 * 2 + 2 ^ 320 * 9)] } }

theorem meets_JobStatus_done : ∃ t, Issues matrixDone (usesG [5] [7]) t ∧
    (decide (t.cr.outstanding kindMatrix 0 = false ∧ t.cr.msg.pigeonhole.map (entryIs kindMatrix 0) = [false, true]) &&
      next (exec (.mwait 5 7) matrixDone) (fun n => n.ga 5 == 0x0200000000000009 && n.cr.msg.pigeonhole.length == 1) &&
      next (exec (.mwait 5 7) one) fun n => n.ga 5 == 0) = true := meets_ok (by decide +kernel)

/-! ### Vector instructions -/

/-- A scheduled instruction of the form passes the checks of issue, and `p` holds of the state from which its effect starts. -/
noncomputable def vmeets (i : Instr) (f : SForm) (sp : SchedSpec) (s : State) (p : State → Bool) : Bool :=
  decide (schedSpec i = some (f, sp)) && meets s (vecUses f sp) fun t =>
    (f.ps == 0 || t.sl.gang.size == 1) && (t.portsFail (portsNamed f sp)).isNone &&
      (t.lostMember ((reachFor i (vecUses f sp) (t.operands f sp)).pool t.sl.gang.size t.sl.keep)).isNone && p t

theorem vmeets_ok {i : Instr} {f : SForm} {sp : SchedSpec} {s : State} {p : State → Bool} (h : vmeets i f sp s p = true) :
    ∃ t, VecIssues i f sp s t ∧ p t = true := by
  simp only [vmeets, Bool.and_eq_true, decide_eq_true_eq] at h
  obtain ⟨t, ht, hp⟩ := meets_ok h.2
  simp only [Bool.and_eq_true, Bool.or_eq_true, beq_iff_eq, Option.isNone_iff_eq_none] at hp
  exact ⟨t, ⟨h.1, ht, hp.1.1.1, hp.1.1.2, hp.1.2⟩, hp.2⟩

/-- Elements of `w` bits of a v register once everything has landed. -/
def lanesOf (n : State) (r w count : Nat) : List Nat :=
  (List.range count).map (elem w (look 0 (n.landAll n.sl.haz).sl.v r).toNat)

/-- A v register whose low elements of `w` bits are listed. -/
def vreg (w : Nat) (l : List Nat) : VReg := BitVec.ofNat 512 (joinBits w l)

/-- A thread with vectors: v1 and v2 hold small F32 numbers, v3 and v4 bytes, and k1 the even lanes, k0 being all ones. -/
def vectors : State := withThread fun x => { x with
  g := [(1, localCap), (2, Cap.ofWord 1), (3, Cap.ofWord 2)]
  k := [(0, 0xFFFF), (1, 0x5555)]
  v := [(1, vreg 32 [0x3F800000, 0x40000000, 0x40400000, 0x7FC00000]), (2, vreg 32 [0x40000000, 0xC0000000, 0x3F800000, 0]),
        (3, vreg 8 [0x7F, 0x80, 0xFF, 0x01]), (4, vreg 8 [0x01, 0xFF, 0x02, 0x05]), (5, vreg 32 [9, 9, 9, 9])] }

/-- Types I8 and F32, destination v5, sources v3 and v4 or v1 and v2. -/
def i8 : SForm := { sf 8 with vd := 5, va := 3, vb := 4 }
def f32 : SForm := { sf 1 with vd := 5, va := 1, vb := 2 }

theorem meets_VectorIntegerLanes : ∃ t, VecIssues (.viadd { i8 with md := 1 }) { i8 with md := 1 }
      (spec3 TypeSet.ints true true) vectors t ∧
    (isIntType (t.operands { i8 with md := 1 } (spec3 TypeSet.ints true true)).t &&
      next (exec (.viadd { i8 with md := 1 }) vectors) (fun n => lanesOf n 5 8 4 == [0x7F, 0x80, 0x01, 0x06] && n.sl.sys.fpstat == 0x20) &&
      next (exec (.viadd i8) vectors) (fun n => lanesOf n 5 8 4 == [0x80, 0x7F, 0x01, 0x06] && n.sl.sys.fpstat == 0) &&
      next (exec (.vimul { i8 with md := 2 }) vectors) fun n => lanesOf n 5 8 4 == [0, 0, 0xFF, 0]) = true := vmeets_ok (by decide +kernel)

theorem test_vmin_and_vmax : next (exec (.vmin i8) vectors) (fun n => lanesOf n 5 8 4 == [0x01, 0x80, 0xFF, 0x01]) = true ∧
    next (exec (.vmax { i8 with t := 9 }) vectors) (fun n => lanesOf n 5 8 4 == [0x7F, 0xFF, 0xFF, 0x05]) = true := by decide +kernel
theorem test_predicate_keeps_the_old_element :
    next (exec (.vxor { i8 with t := 12, pred := 1 }) vectors) (fun n => lanesOf n 5 32 2 == [0x04FD7F7E, 9]) = true := by decide +kernel
theorem test_shift_counts_modulo_the_width :
    next (exec (.vsar { i8 with vb := 0, md := 1, fs := 1 }) vectors) (fun n => lanesOf n 5 8 4 == [0x3F, 0xC0, 0xFF, 0x00]) = true ∧
    next (exec (.vshl i8) vectors) (fun n => lanesOf n 5 8 4 == [0xFE, 0x00, 0xFC, 0x20]) = true := by decide +kernel

theorem meets_VectorFloatLanes : ∃ t, VecIssues (.vadd f32) f32 (spec3 TypeSet.float4 true true) vectors t ∧
    (isFloat4 (t.operands f32 (spec3 TypeSet.float4 true true)).t &&
      next (exec (.vadd f32) vectors) (fun n => lanesOf n 5 32 4 == [0x40400000, 0, 0x40800000, 0x7FC00000]) &&
      next (exec (.vmul f32) vectors) (fun n => lanesOf n 5 32 3 == [0x40000000, 0xC0800000, 0x40400000]) &&
      next (exec (.vdiv f32) vectors) (fun n => lanesOf n 5 32 3 == [0x3F000000, 0xBF800000, 0x40400000]) &&
      next (exec (.vfma { f32 with vc := 2 }) vectors) (fun n => lanesOf n 5 32 3 == [0x40800000, 0xC0C00000, 0x40800000])) = true :=
  vmeets_ok (by decide +kernel)

theorem test_vdiv_by_zero_sets_its_flag : next (exec (.vdiv { f32 with va := 2, vb := 6 }) vectors)
    (fun n => lanesOf n 5 32 4 == [0x7F800000, 0xFF800000, 0x7F800000, 0x7FC00000] && n.sl.sys.fpstat == 0x18) = true := by decide +kernel
theorem test_vsqrt : next (exec (.vsqrt { f32 with va := 2, vb := 0 }) vectors)
    (fun n => lanesOf n 5 32 2 == [0x3FB504F3, 0x7FC00000] && n.sl.sys.fpstat == 0x11) = true := by decide +kernel

theorem meets_compare : ∃ t, VecIssues (.vcmp { f32 with vd := 2, md := 2 }) { f32 with vd := 2, md := 2 }
      { vd := .dst .k 1, va := .src .v 1, vb := .src .v 1, types := 0xF003, mdOk := true, fsOk := true } vectors t ∧
    (next (exec (.vcmp { f32 with vd := 2, md := 2 }) vectors) fun n => look 0 (n.landAll n.sl.haz).sl.k 2 == 0x0001) = true :=
  vmeets_ok (by decide +kernel)

theorem meets_special_functions : ∃ t, VecIssues (.vrcp { f32 with va := 2, vb := 0 }) { f32 with va := 2, vb := 0 }
      (spec2 0x000E true true) vectors t ∧
    (next (exec (.vrcp { f32 with va := 2, vb := 0 }) vectors) (fun n => lanesOf n 5 32 3 == [0x3F000000, 0xBF000000, 0x3F800000]) &&
      next (exec (.vexp2 { f32 with va := 1, vb := 0 }) vectors) fun n => lanesOf n 5 32 2 == [0x40000000, 0x40800000]) = true :=
  vmeets_ok (by decide +kernel)

theorem meets_VectorMovement : ∃ t, VecIssues (.vred { i8 with vb := 0, pred := 1 }) { i8 with vb := 0, pred := 1 }
      (spec2 (TypeSet.float4 + TypeSet.ints) true true) vectors t ∧
    (decide ((t.operands { i8 with vb := 0, pred := 1 } (spec2 (TypeSet.float4 + TypeSet.ints) true true)).n ≤ 1024) &&
      next (exec (.vred { i8 with vb := 0 }) vectors) (fun n => lanesOf n 5 8 2 == [0xFF, 0xFF]) &&
      next (exec (.vscan { i8 with vb := 0 }) vectors) (fun n => lanesOf n 5 8 4 == [0x7F, 0xFF, 0xFE, 0xFF]) &&
      next (exec (.vperm i8) vectors) (fun n => lanesOf n 5 8 4 == [0x80, 0, 0xFF, 0]) &&
      next (exec (.vperm { i8 with md := 1 }) vectors) (fun n => lanesOf n 5 8 4 == [0x80, 0, 0xFF, 0])) = true :=
  vmeets_ok (by decide +kernel)

theorem meets_broadcast : ∃ t, VecIssues (.vbcastE { i8 with vb := 0, md := 1, fs := 2 }) { i8 with vb := 0, md := 1, fs := 2 }
      { vd := .dst .v 1, va := .src .v 1, types := TypeSet.allButCb8, mdOk := true, fsOk := true } vectors t ∧
    (next (exec (.vbcastE { i8 with vb := 0, md := 1, fs := 2 }) vectors) (fun n => lanesOf n 5 8 2 == [0xFF, 0xFF]) &&
      next (exec (.vbcast { i8 with va := 3, vb := 0 }) vectors) fun n => lanesOf n 5 8 2 == [2, 2]) = true := vmeets_ok (by decide +kernel)

theorem meets_element_moves : ∃ t, VecIssues (.vmovgG { i8 with vd := 6, vb := 0, fs := 1 }) { i8 with vd := 6, vb := 0, fs := 1 }
      { vd := .dst .g 1, va := .src .v 1, types := 0xFF3F, pred := false, mdOk := true, fsOk := true } vectors t ∧
    (next (exec (.vmovgG { i8 with vd := 6, vb := 0, fs := 1 }) vectors) (fun n => (n.landAll n.sl.haz).ga 6 == 0xFFFFFFFFFFFFFF80) &&
      next (exec (.vmovgV { i8 with va := 3, vb := 0, md := 1, fs := 1 }) vectors) (fun n => lanesOf n 5 8 3 == [9, 2, 0]) &&
      next (exec (.vidx { i8 with va := 0, vb := 0, fs := 0x1FFFF }) vectors) fun n => lanesOf n 5 8 3 == [0xFF, 0, 1]) = true :=
  vmeets_ok (by decide +kernel)

theorem meets_compress : ∃ t, VecIssues (.vcomp { f32 with vb := 1, vc := 6 }) { f32 with vb := 1, vc := 6 }
      { vd := .dst .v 1, va := .src .v 1, vb := .src .k 1, vc := .dst .g 1, types := TypeSet.allButCb8, mdOk := true, fsOk := true } vectors t ∧
    (next (exec (.vcomp { f32 with vb := 1, vc := 6 }) vectors) (fun n => lanesOf n 5 32 3 == [0x3F800000, 0x40400000, 0] &&
        (n.landAll n.sl.haz).ga 6 == 8) &&
      next (exec (.vexpd { f32 with vb := 1 }) vectors) fun n => lanesOf n 5 32 4 == [0x3F800000, 9, 0x40000000, 9]) = true :=
  vmeets_ok (by decide +kernel)

/-- VCVT.F8A.F32 v5, v1, #2 (R337). -/
def toF8 : SForm := { sf 4 with vd := 5, va := 1, md := 1, fs := 2 }

theorem meets_VectorConversions : ∃ t, VecIssues (.vcvt toF8) toF8 (spec2 TypeSet.allButCb8 true true) vectors t ∧
    (decide (∀ e < (sidesOf toF8).n 1, (sidesOf toF8).index 1 4 e < 128 / typeHalves 4) &&
      next (exec (.vcvt toF8) vectors) fun n => (lanesOf n 5 8 64).drop 32 |>.take 4 |> (· == [0x38, 0x40, 0x44, 0x80])) = true :=
  vmeets_ok (by decide +kernel)

/-- VSCL.F8A.F32 that chooses its scale, part 0: destination v5, scales to v6. -/
def toScaled : SForm := { sf 4 with vd := 5, va := 2, vb := 6, md := 1 }

theorem meets_scaling : ∃ t, VecIssues (.vscl toScaled) toScaled
      { vd := .dst .v 1, va := .src .v 1, vb := .dst .v 1, types := 0x007F, mdOk := true, fsOk := true } vectors t ∧
    (decide (∀ e < (sidesOf toScaled).n 1, (sidesOf toScaled).index 1 4 e < 128 / typeHalves 4) && (vsclCheck toScaled t).isNone &&
      !sclGiven toScaled) = true := vmeets_ok (by decide +kernel)

theorem meets_packing : ∃ t, VecIssues (.vpack { sf 7 with vd := 6, va := 2, vc := 6, md := 4 }) { sf 7 with vd := 6, va := 2, vc := 6, md := 4 }
      { vd := .dst .v 2, va := .src .v 2, vc := .dst .g 1, types := 0x0080, pred := false, mdOk := true, fsOk := true } vectors t ∧
    (decide (t.sl.gang.size = 1)) = true := vmeets_ok (by decide +kernel)

theorem meets_PackedBlocksDecode : decodeBlock (encodeBlock 127 (List.replicate 31 0 ++ [255])) =
    .block (List.replicate 31 0 ++ [255]) 127 false ∧ (List.replicate 31 0 ++ [255]).length = 32 := by decide +kernel

/-- The capability of block data at LOCAL address 0, and of the offset table at 0x400. -/
def blockCap : Cap := let c := makeCap 0x800 0x13 0 0 0x400 0; { c with hi := setField c.hi 46 44 2 }
def tableCap : Cap := makeCap 0x800 0 0 0x400 0x100 0x400

/-- A packed block of 32 zeros with scale 127 at LOCAL address 0; both entries of the table are 0. -/
def packed : State := { vectors with mem := [(key 1, 0x7F)] }.modSl fun x => { x with g := [(1, blockCap), (2, tableCap)] }

def unpacking : SForm := { sf 4 with vd := 6, va := 1, vb := 2, vc := 7, md := 7 }

theorem meets_VectorUnpacking : ∃ t, VecIssues (.vunpk unpacking) unpacking
      { vd := .dst .v 2, va := .src .g 1, vb := .src .g 1, vc := .src .g 1, types := 0x0010, pred := false, mdOk := true, fsOk := true } packed t ∧
    (decide (t.sl.gang.size = 1 ∧ (t.g 1).bounds.1 = 0) &&
      (List.range 2).all (fun h => unpackEntry t unpacking h == (0x400 + 4 * h : Nat) &&
        covers t (t.g 2) (entryNeed t unpacking) (0x400 + 4 * h) 4 (key (0x400 + 4 * h)) && t.readNat (key (0x400 + 4 * h)) 4 == 0) &&
      (List.range 11).all (fun i => covers t (t.g 1) (blockNeed t unpacking) (2 * i) 2 (key (2 * i)) &&
        decide (decodeBlock ((List.range i).map fun j => t.readNat (key (2 * j)) 2) = .more)) &&
      decide (decodeBlock ((List.range 11).map fun j => t.readNat (key (2 * j)) 2) = .block (List.replicate 32 0) 127 false)) = true :=
  vmeets_ok (by decide +kernel)

/-- The eight particles of the example of R348. -/
def particles : State := withThread fun x => { x with
  g := [(1, Cap.ofWord 0x3F800000)]
  k := [(0, 0xFFFF), (1, 0x00FF)]
  v := [(0, vreg 32 [0x3F000000, 0x400CCCCD, 0x3F666666, 0x40600000, 0x4039999A, 0xBECCCCCD, 0, 0x40000000]),
        (1, vreg 32 [0x3F000000, 0x3FD9999A, 0x3DCCCCCD, 0x40600000, 0x3F800000, 0x40200000, 0x3F7D70A4, 0x3F99999A]),
        (4, vreg 32 [0, 0, 0, 0x3F800000, 0x3F800000, 0x3F800000, 4, 4, 1]),
        (8, vreg 32 [0, 6, 0, 15, 6, 8, 0, 6])] }

/-- VKEY.LIN.N32 v8, v0, v4, #2, #13 and #14 of the example. -/
def keyForm (o : BitVec 17) : SForm := { sf 13 with vd := 8, vb := 4, pred := 1, md := 2, fs := o }

theorem meets_NeighbourSearch : ∃ t, VecIssues (.vkey (keyForm 14)) (keyForm 14)
      { vd := .dst .v 1, va := .src .v 4, vb := .src .v 1, types := 0x2000, mdOk := true, fsOk := true } particles t ∧
    ((List.range 2).all (fun a => !axisBad (look 0 t.sl.v 4).toNat a) &&
      next (exec (.vkey (keyForm 13)) particles) (fun n => lanesOf n 8 32 9 == [0, 6, 0, 15, 6, 8, 0, 6, 0]) &&
      next (exec (.vkey (keyForm 14)) particles) fun n => lanesOf n 8 32 8 == [1, 7, 1, 0xFFFFFFFF, 7, 9, 1, 7]) = true :=
  vmeets_ok (by decide +kernel)

theorem meets_NeighbourSearch_bad_axis : ∃ t, VecIssues (.vkey { keyForm 13 with vb := 5 }) { keyForm 13 with vb := 5 }
      { vd := .dst .v 1, va := .src .v 4, vb := .src .v 1, types := 0x2000, mdOk := true, fsOk := true } particles t ∧
    (axisBad (look 0 t.sl.v 5).toNat 0 &&
      next (exec (.vkey { keyForm 13 with vb := 5 }) particles) fun n => lanesOf n 8 32 2 == [0xFFFFFFFF, 0xFFFFFFFF] && n.sl.sys.fpstat == 0x10)
      = true := vmeets_ok (by decide +kernel)

theorem meets_hash : ∃ t, VecIssues (.vhash { sf 13 with vd := 11, va := 8, pred := 1, fs := 4 }) { sf 13 with vd := 11, va := 8, pred := 1, fs := 4 }
      { vd := .dst .v 1, va := .src .v 1, types := 0x2000, mdOk := true, fsOk := true } particles t ∧
    (next (exec (.vhash { sf 13 with vd := 11, va := 8, pred := 1, fs := 4 }) particles) fun n =>
      lanesOf n 11 32 8 == [0, 7, 0, 3, 7, 5, 0, 7]) = true := vmeets_ok (by decide +kernel)

theorem meets_binning : ∃ t, VecIssues (.vbin { sf 13 with vd := 10, va := 8, vc := 2, pred := 1 }) { sf 13 with vd := 10, va := 8, vc := 2, pred := 1 }
      { vd := .dst .v 1, va := .src .v 1, vc := .dst .k 1, types := 0x2000, mdOk := true, fsOk := true } particles t ∧
    (next (exec (.vbin { sf 13 with vd := 10, va := 8, vc := 2, pred := 1 }) particles) fun n =>
      lanesOf n 10 32 8 == [0, 0, 1, 0, 1, 0, 2, 2] && look 0 (n.landAll n.sl.haz).sl.k 2 == 0x00E8) = true := vmeets_ok (by decide +kernel)

/-- VPAIR of the particles with themselves within distance 1 in the plane. -/
def pairForm : SForm := { sf 1 with vd := 3, va := 0, vb := 0, vc := 1, pred := 1, md := 2 }

theorem meets_pairs : ∃ t, VecIssues (.vpair pairForm) pairForm (specPair pairForm) particles t ∧
    (next (exec (.vpair pairForm) particles) fun n => look 0 (n.landAll n.sl.haz).sl.k 3 == 0x00FF) = true := vmeets_ok (by decide +kernel)

/-- A thread over untyped data: F32 elements from LOCAL address 0 on, element 2 and 3 listed. -/
def data : State := (vectors.writeNat (key 8) 8 0x4080000040400000).modSl fun x => { x with
  g := [(1, makeCap 0xC00 0 0 0 0x1000 0), (2, Cap.ofWord 2), (3, Cap.ofWord 0)] }

def loading1 : SForm := { sf 1 with vd := 5, va := 1, vb := 2, pred := 1 }

theorem meets_VectorMemory : ∃ t, VecIssues (.ldv loading1) loading1 (specLdv loading1) data t ∧
    ((t.operands loading1 (specLdv loading1)).actives.all (fun e =>
        match partsOf t.core (elementPlace (t.g 1) 1 (2 + e) / 2) 4 (4 * e) with
        | [p] => checkPart t { core := p.core, priv := t.sl.priv, job := t.jobNo } (t.g 1)
            { l := true, element := true, badFormat := formatBad (t.g 1) 1 } p.x0 p.n0 p.x p.n == .ok (.key (key (8 + 4 * e)))
        | _ => false) &&
      next (exec (.ldv loading1) data) fun n => lanesOf n 5 32 3 == [0x40400000, 9, 0]) = true := vmeets_ok (by decide +kernel)

theorem meets_VectorMemory_store : ∃ t, VecIssues (.stv { loading1 with vd := 1 }) { loading1 with vd := 1 }
      (specStv { loading1 with vd := 1 }) data t ∧
    (next (exec (.stv { loading1 with vd := 1 }) data) fun n => n.readNat (key 8) 8 == 0x408000003F800000 &&
      n.readNat (key 16) 8 == 0x40400000 && n.sl.pc.addr == 0x040000000001010A) = true := vmeets_ok (by decide +kernel)

theorem meets_VectorMemory_strided : ∃ t, VecIssues (.ldvs { loading1 with vc := 3 }) { loading1 with vc := 3 }
      (specLdvs { loading1 with vc := 3 }) data t ∧
    (next (exec (.ldvs { loading1 with vc := 3 }) data) fun n => lanesOf n 5 32 3 == [0x40400000, 9, 0x40400000]) = true :=
  vmeets_ok (by decide +kernel)

theorem meets_VectorMemory_indexed : ∃ t, VecIssues (.ldvx { loading1 with vb := 9, vc := 2, fs := 1 }) { loading1 with vb := 9, vc := 2, fs := 1 }
      (specLdvx { loading1 with vb := 9, vc := 2, fs := 1 }) data t ∧
    (next (exec (.ldvx { loading1 with vb := 9, vc := 2, fs := 1 }) data) fun n => lanesOf n 5 32 3 == [0x40800000, 9, 0x40800000]) = true :=
  vmeets_ok (by decide +kernel)

theorem meets_VectorMemory_nibbles : ∃ t, VecIssues (.stv { loading1 with t := 6, vd := 3 }) { loading1 with t := 6, vd := 3 }
      (specStv { loading1 with t := 6, vd := 3 }) data t ∧
    (next (exec (.stv { loading1 with t := 6, vd := 3 }) data) fun n => n.readNat (key 1) 4 == 0x01FF807F) = true :=
  vmeets_ok (by decide +kernel)

/-! ### The step -/

theorem meets_EncodeThenDecode : (Instr.vadd (sf 1)).wellFormed = true ∧ encode (.vadd (sf 1)) = some (.w80 (wordSched 0 (sf 1))) ∧
    decodeBytes ((Encoding.w80 (wordSched 0 (sf 1))).bytes ++ [0xAA]) = .ok (.vadd (sf 1), [0xAA]) := ⟨rfl, rfl, rfl⟩

theorem meets_DecodeThenEncode : decodeBytes [0x65, 0x04, 0x12] = .ok (.cAdd 3 5, [0x12]) ∧
    encode (.cAdd 3 5) = some (.w16 0x0465) := ⟨rfl, rfl⟩

/-- ADD g3, g4, g5 placed where the next step fetches it. -/
def placed : State := State.reset.withFetchWord 32 0xC0064280

theorem meets_StepRunsTheDecodedInstruction : placed.agenda = [.cycle 0 ((List.range 32).filter (· != 1))] ∧
    coreExists 0 = true ∧ placed.running 0 = true ∧
    issueChoice 0 (placed.coreAt 0) ((List.range 32).filter (· != 1)) = some 1 ∧
    (let t := ({ placed with agenda := [] } : State).issuing 0 ((List.range 32).filter (· != 1)) 1
     (t.slotAt 0 1).mark = none ∧ t.fetchParcels 1 0 = (.ok (.key 0), [0x06, 0xC0]) ∧ parcelLength (parcel 0x06 0xC0) = 4 ∧
     t.fetchParcels 2 0 = (.ok (.key 0), [0x06, 0xC0, 0x80, 0x42])) := by decide +kernel

theorem meets_StepTakesTheAgenda : encode (.event c0 c1) = none ∧ ({ one with agenda := [.event (.event c0 c1)] } : State).agenda.length = 1 ∧
    ({ one with agenda := [.move (.inject c0)] } : State).agenda.head? = some (.move (.inject c0)) := ⟨rfl, rfl, rfl⟩
theorem test_tick : (match step { State.reset with agenda := [.tick 5] } with | .next n => n.ts == 5 | _ => false) = true := rfl

theorem meets_EveryStepKeepsTheMemoryCanonical : State.reset.memoryCanonical ∧ filled.memoryCanonical := by
  constructor <;> (show _ = true; decide +kernel)

theorem meets_ACapabilityReadsBackWithItsTag : key 0x110 % 16 = 0 ∧ (one.writeCap (key 0x110) codeCap).readCap (key 0x110) = codeCap := by
  decide +kernel

/-! ### Engine commands -/

/-- The checks of issue and of the command pass, an id is free and there is room, and the command is accepted. -/
def accepts (i : Instr) (kind : Nat) (checks : State → List (Option Ret)) (s t : State) : Bool :=
  (checks t).all (·.isNone) && (t.cr.nextId kind).isSome && !t.engineFull kind &&
  next (exec i s) fun n => n.cr.eng.jobs.map (·.kind) == [kind] && n.sl.haz.length == 1

/-- A thread with descriptors, streams, a ring, levels and three pairs of accumulator tiles. -/
def engineer : State := { (one.modSl fun x => { x with
    g := [(1, makeCap 0xDF0 0 0 0 0x4000 0x100), (2, Cap.ofWord 0x10000103000), (3, Cap.ofWord 1), (4, Cap.ofWord 0x10000103000),
          (5, Cap.ofWord 1), (8, makeCap 0xDF0 0 0 0 0x4000 0x800), (9, makeCap 0xDF0 0 0 0x0300000000000000 0x4000 0x0300000000000000)] }).modCr
  fun x => { x with partw := BitVec.ofNat 64 (16 * 2 ^ 39 + 133 * 2 ^ 26 + 133 * 2 ^ 13 + 64) } with
  jobs := [(1, { live := true, code := codeCap, counter := 9, levels := [(0, 0x1000000000100000), (1, 0x1000000000100000)] })]
  pkg := { bringUp := 7, rings := [(0, { job := 1, rank := 0, size := 2 })] } }

def es (t : BitVec 4) (x : Nat) : EForm := { ef t with gj := 10, es := BitVec.ofNat 32 x }

theorem meets_MMA (f : EForm) (h : f = { es 1 0 with ga := 1, gb := 2, gc := 8, gd := 4 }) :
    ∃ t, Issues engineer { engineUses f (mmaFields f) with vr := mmaGroups f, leaseV := spread (mmaGroups f), leaseT := [tileNo f] } t ∧
      accepts (.mma f) 2 (mmaChecks f) engineer t = true := by
  subst h; exact meets_ok (by decide +kernel)

theorem meets_MLD (f : EForm) (h : f = { es 1 0 with ga := 1, gb := 2 }) :
    ∃ t, Issues engineer { engineUses f (specTile f) with leaseT := [tileNo f] } t ∧
      accepts (.mld f) 2 (moveChecks f 1 { l := true } false false) engineer t = true := by
  subst h; exact meets_ok (by decide +kernel)

theorem meets_MST (f : EForm) (h : f = { es 1 (3 * 2 ^ 14) with ga := 1, gb := 2 }) :
    ∃ t, Issues engineer { engineUses f (specTile f) with leaseT := [tileNo f] } t ∧
      accepts (.mst f) 2 (moveChecks f 1 { s := true } true false) engineer t = true := by
  subst h; exact meets_ok (by decide +kernel)

theorem meets_MZERO (f : EForm) (h : f = es 1 (1 * 2 ^ 20)) :
    ∃ t, Issues engineer { engineUses f (specMzero f) with leaseT := zeroTiles f } t ∧
      accepts (.mzero f) 2 (fun t => [operandIf t (!(zeroTiles f).all (tileExists t.cr.partw))]) engineer t = true := by
  subst h; exact meets_ok (by decide +kernel)

theorem meets_MCVT (f : EForm) (h : f = { es 2 (7 * 2 ^ 14) with ga := 1, gb := 2 }) :
    ∃ t, Issues engineer { engineUses f (specMcvt f) with leaseT := [tileNo f] } t ∧
      accepts (.mcvt f) 2 (moveChecks f f.t.toNat { s := true } true (mcvtScale f == 255)) engineer t = true := by
  subst h; exact meets_ok (by decide +kernel)

theorem meets_SIGRST (f : EForm) (h : f = es 1 (2 * 2 ^ 26)) :
    ∃ t, Issues engineer { engineUses f (specSigrst f) with leaseT := pairTiles f false } t ∧
      accepts (.sigrst f) 2 (fun t => [operandIf t (pairsBad f false t)]) engineer t = true := by
  subst h; exact meets_ok (by decide +kernel)

theorem meets_SIGADV (f : EForm) (h : f = { es 1 0 with ga := 1, gb := 7, gc := 3 }) :
    ∃ t, Issues engineer { engineUses f (specSigadv f) with leaseT := pairTiles f false } t ∧
      accepts (.sigadv f) 2 (fun t => [sigadvCheck f t, formatIf t (t.g f.ga) (t.sl.sys.sigdim.toNat * (t.ga f.gb).toInt),
        operandIf t (decide (65536 < (t.ga f.gc).toNat)), operandIf t (pairsBad f false t)]) engineer t = true := by
  subst h; exact meets_ok (by decide +kernel)

theorem meets_SIGJOIN_and_SIGLOG (f : EForm) (h : f = es 1 (2 * 2 ^ 20)) :
    ∃ t, Issues engineer { engineUses f (specSigPair f) with leaseT := pairTiles f true } t ∧
      (accepts (.sigjoin f) 2 (fun t => [operandIf t (pairsBad f true t)]) engineer t &&
       accepts (.siglog f) 2 (fun t => [operandIf t (pairsBad f true t)]) engineer t) = true := by
  subst h; exact meets_ok (by decide +kernel)

theorem meets_SIGLD_and_SIGST (f : EForm) (h : f = { es 1 0 with ga := 1, gb := 7 }) :
    ∃ t, Issues engineer { engineUses f (specSigMove f) with leaseT := pairTiles f false } t ∧
      (accepts (.sigld f) 2 (fun t => [elementCheck t (t.g f.ga) { l := true } (t.ga f.gb).toInt (entryCount t),
          operandIf t (pairsBad f false t)]) engineer t &&
       accepts (.sigst f) 2 (fun t => [elementCheck t (t.g f.ga) { s := true } (t.ga f.gb).toInt (entryCount t),
          operandIf t (pairsBad f false t)]) engineer t) = true := by
  subst h; exact meets_ok (by decide +kernel)

theorem meets_CPY (f : EForm) (h : f = { es 0 (15 * 2 ^ 12) with ga := 1, gb := 2, gc := 8, gd := 4 }) :
    ∃ t, Issues engineer { engineUses f (specCpy f) (cpyBc f) with leaseT := [] } t ∧ accepts (.cpy f) 1 (cpyChecks f) engineer t = true := by
  subst h; exact meets_ok (by decide +kernel)

theorem meets_CPY_multicast (f : EForm) (h : f = { es 0 (15 * 2 ^ 12 + 2 ^ 11) with ga := 1, gb := 2, gc := 9, gd := 4 }) :
    ∃ t, Issues engineer { engineUses f (specCpy f) true with leaseT := [] } t ∧ accepts (.cpyM f) 1 (cpyChecks f) engineer t = true := by
  subst h; exact meets_ok (by decide +kernel)

theorem meets_CPY_stream (f : EForm) (h : f = { es 0 (15 * 2 ^ 12 + 2 ^ 9) with ga := 1, gb := 2, gc := 7 }) :
    ∃ t, Issues engineer { engineUses f (specCpyS f) with leaseT := [] } t ∧ accepts (.cpyS f) 1 (fun t =>
      [sideCheck t (t.g f.ga) (t.g f.gb).addr (cpyTiles f) (cpyRow f) { l := true },
       operandIf t (cpyMc f || cpyBc f || rotBad (t.g f.ga) (t.g f.gb).addr ||
         decide (16 * shapeWords (t.g f.gb).addr < cpyRow f) || streamBad t.core (t.ga f.gc))]) engineer t = true := by
  subst h; exact meets_ok (by decide +kernel)

theorem meets_CGAT_and_CSCT (f : EForm) (h : f = { es 0 (3 * 2 ^ 4) with ga := 1, gb := 8, gc := 1 }) :
    ∃ t, Issues engineer { engineUses f (specGather f) with leaseT := [] } t ∧
      (accepts (.cgat f) 1 (fun t => [operandIf t (gatherBc f && (!poolSide (t.g f.gc) || barrierOffsetBad (t.ga f.gd)))]) engineer t &&
       accepts (.csct f) 1 (fun t => [operandIf t (gatherBc f && (!poolSide (t.g f.gc) || barrierOffsetBad (t.ga f.gd)))]) engineer t) = true := by
  subst h; exact meets_ok (by decide +kernel)

theorem meets_CFILL (f : EForm) (h : f = { es 0 (15 * 2 ^ 12) with ga := 1, gb := 2, gc := 3 }) :
    ∃ t, Issues engineer { engineUses f (specFill f) with leaseT := [] } t ∧ accepts (.cfill f) 1 (fun t =>
      [sideCheck t (t.g f.ga) (t.g f.gb).addr (cpyTiles f) (cpyRow f) { s := true },
       operandIf t (rotBad (t.g f.ga) (t.g f.gb).addr || decide (16 * shapeWords (t.g f.gb).addr < cpyRow f))]) engineer t = true := by
  subst h; exact meets_ok (by decide +kernel)

theorem meets_COLL (f : EForm) (h : f = { es 1 0 with ga := 1, gb := 8, gc := 7, gd := 3 }) :
    ∃ t, Issues engineer { engineUses f (specColl f) with leaseT := [] } t ∧ accepts (.coll f) 3 (collChecks f) engineer t = true := by
  subst h; exact meets_ok (by decide +kernel)

theorem meets_WLOAD (f : EForm) (h : f = { es 1 2 with ga := 1 }) :
    ∃ t, Issues engineer { engineUses f (specWload f) with leaseT := [] } t ∧
      accepts (.wload f) 4 (fun t => [elementCheck t (t.g f.ga) { l := true } 0 27]) engineer t = true := by
  subst h; exact meets_ok (by decide +kernel)

theorem meets_StairCommandsArePaired (f : EForm) (h : f = { es 1 0 with ga := 1, gb := 7 }) :
    ∃ t, Issues engineer (engineUses f (specStair f)) t ∧ (accepts (.restrictFine f) 4 (stairChecks false f) engineer t &&
      accepts (.prolongFine f) 4 (stairChecks true f) engineer t) = true := by
  subst h; exact meets_ok (by decide +kernel)

theorem meets_StairCommandsArePaired_coarse (f : EForm) (h : f = { es 1 (2 ^ 28) with ga := 1, gb := 7 }) :
    ∃ t, Issues engineer (engineUses f (specStair f)) t ∧ (accepts (.restrictCoarse f) 4 (stairChecks false f) engineer t &&
      accepts (.prolongCoarse f) 4 (stairChecks true f) engineer t) = true := by
  subst h; exact meets_ok (by decide +kernel)

/-- The engineer at system privilege. -/
def swapper : State := engineer.modSl fun x => { x with priv := true }

theorem meets_MatrixBanksSwap : ∃ t, Issues swapper { engineUses (es 0 0) (specMswap (es 0 0)) with sysOnly := true } t ∧
    (decide (shs t.cr.partw = acs t.cr.partw ∧ acs t.cr.partw ≠ 0) && !t.cr.eng.jobs.any (·.kind == 2) &&
      next (exec (.mswap (es 0 0)) swapper) fun n => n.cr.eng.bank && n.cr.eng.jobs.length == 1) = true := meets_ok (by decide +kernel)

theorem meets_MatrixBanksSwap_refused : ∃ t, Issues system { engineUses (es 0 0) (specMswap (es 0 0)) with sysOnly := true } t ∧
    (decide (acs t.cr.partw = 0) && next (exec (.mswap (es 0 0)) system) fun n => n.sl.sys.ecause == 0x02) = true :=
  meets_ok (by decide +kernel)

theorem meets_first_failing_check (f : EForm) (h : f = { es 1 0 with ga := 1, gb := 2 }) :
    ∃ t, Issues one { engineUses f (specTile f) with leaseT := [tileNo f] } t ∧
      (next (exec (.mld f) one) fun n => n.sl.inUser && n.sl.sys.ecause == 0x02 && n.cr.eng.jobs == []) = true := by
  subst h; exact meets_ok (by decide +kernel)

/-! ### Requests at their owner, replies at their requester -/

/-- The machine with one message on its way. -/
def bring (s : State) (f : Flight) : State := { s with net := [f] }

/-- A request of core (0, 0, 1) for scratchpad offset 0x100 of core (0, 0, 0). -/
def request (op : Nat) (pay : Payload) (off : Nat := 0x100) : Flight :=
  { dst := c0, src := c1, op, bc := 7, addr := 0xF00000000000 + off, tag := 4, rq := true, pay }
def asks (op : Nat) (pay : Payload) (off : Nat := 0x100) : State := bring filled (request op pay off)

theorem meets_OwnersServeRequests : (asks 0x00 .none).pkg.injectionHeld = false ∧
    ((asks 0x00 .none).arriving c1 c0 0x00).isSome = true ∧
    (let t := (asks 0x00 .none).takeOut (request 0x00 .none)
     (t.coreAt c0).msg.headWaits = false ∧ t.requestLocked (request 0x00 .none) = false ∧
     t.ownerKey (request 0x00 .none) = some (key 0x100) ∧ key 0x100 % 16 = 0 ∧ t.replyRoom c0 = true ∧
     t.requestPoison (key 0x100) (request 0x00 .none) = none ∧ t.unitRoom c0 = true) ∧
    next (exec (.load c1 c0) (asks 0x00 .none)) (fun n => n.net.map (·.pay) == [.bytes [0xFE, 0x80, 0, 0, 0, 0, 0, 0]]) = true ∧
    next (exec (.loadcap c1 c0) (asks 0x02 .none 0x110)) (fun n => n.net.map (·.tag) == [4] && n.net.map (·.pay) ==
      [.capability (filled.readBytes (key 0x110) 16) true]) = true := by decide +kernel

theorem meets_OwnersServeRequests_stores :
    next (exec (.store c1 c0) (asks 0x01 (.bytes [1, 2]) 0x111)) (fun n => n.net.map (·.op) == [0x41] && n.tags == [] &&
      n.readBytes (key 0x110) 4 == [filled.readBytes (key 0x110) 1 |>.headD 0, 1, 2, nth 0 (filled.readBytes (key 0x110) 4) 3]) = true ∧
    next (exec (.storecap c1 c0) (asks 0x03 (.capability (List.replicate 16 5) true))) (fun n => n.net.map (·.op) == [0x41] &&
      n.tags.contains (key 0x100 / 16) && n.readBytes (key 0x10F) 1 == [5]) = true := by decide +kernel

theorem meets_OwnersServeRequests_atomics :
    next (exec (.amo c1 c0) (asks 0x04 (.atom .add 2 0xFF03))) (fun n => n.net.map (·.pay) == [.bytes [0xFE, 0x80]] &&
      n.net.map (·.via) == [.handler] && n.readNat (key 0x100) 4 == 0x8001) = true ∧
    next (exec (.cas c1 c0) (asks 0x05 (.cas 4 0x80FE 9))) (fun n => n.readNat (key 0x100) 4 == 9) = true ∧
    next (exec (.cas c1 c0) (asks 0x05 (.cas 4 0x80FF 9))) (fun n => n.readNat (key 0x100) 4 == 0x80FE) = true := by decide +kernel

theorem meets_OwnersRefuseOrHold :
    ((asks 0x00 .none 0x7BF9).takeOut (request 0x00 .none 0x7BF9)).ownerKey (request 0x00 .none 0x7BF9) = none ∧
    next (exec (.load c1 c0) (asks 0x00 .none 0x7BF9)) (fun n => n.net.map (·.pay) == [.fault 0x09 0xF00000007C00]) = true ∧
    next (exec (.load c1 c0) (asks 0x00 .none 0x7BF8)) (fun n => n.net.map (·.op) == [0x40]) = true ∧
    next (exec (.load c1 c0) { asks 0x00 .none with poison := [key 0x100 / 16] }) (fun n =>
      n.net.map (·.pay) == [.fault 0x10 0xF00000000100]) = true := by decide +kernel

/-- Eight replies stand in the handler send queue of core (0, 0, 0). -/
def answering (s : State) : State :=
  { s with net := s.net ++ List.replicate 8 { dst := c1, src := c0, op := 0x40, via := .handler } }

theorem meets_OwnersRefuseOrHold_waits : coreExists c0 = true ∧ (answering (asks 0x04 (.atom .add 2 3))).replyRoom c0 = false ∧
    next (exec (.amo c1 c0) (answering (asks 0x04 (.atom .add 2 3)))) (fun n => n.cr.msg.waitingAtomic.length == 1 &&
      n.net.length == 8 && n.readNat (key 0x100) 2 == 0x80FE) = true := by decide +kernel

theorem meets_OwnersRefuseOrHold_performed :
    next (exec (.builtinAtomicDispatch c0) (filled.modCr fun x => { x with msg := { x.msg with waitingAtomic := (asks 0x04 (.atom .add 2 3)).net } }))
      (fun n => n.cr.msg.waitingAtomic == [] && n.readNat (key 0x100) 2 == 0x8101 && n.net.map (·.pay) == [.bytes [0xFE, 0x80]]) = true := by
  decide +kernel

/-- A SEND of job `j` on its way to handler 5 of core (0, 0, 0), whose job has that handler at 0x200. -/
def sent (j : Nat) (th : Bool) (gen : BitVec 10) : Flight :=
  { dst := c0, src := c1, op := 0x06, th, rq := true, slot := 1, gen, tag := 4
    pay := .bytes (leBytes 8 (j * 2 ^ 32 + 5) ++ leBytes 8 7 ++ leBytes 8 0 ++ leBytes 8 0 ++ leBytes 8 9) }
def listening : State := { one with
  jobs := [(1, { live := true, code := codeCap, counter := 9, evec := 0x0000002000000040, handlers := [(5, 0x200)], handlerData := localCap })] }

theorem meets_ActiveMessagesRunHandlers :
    listening.fromOwner c0 (sent 1 true 3) = true ∧ listening.holdsThread c0 1 3 = true ∧ listening.handlerEntry c0 5 = 0x200 ∧
    (sent 1 true 3).handlerIndex = 5 ∧
    next (exec (.active c1 c0) (bring listening (sent 1 true 3))) (fun n => n.cr.msg.waitingActive == [sent 1 true 3] && n.net == []) = true ∧
    next (exec (.active c1 c0) (bring listening (sent 2 true 3))) (fun n => n.net.map (·.op) == [0xC6, 0x43] &&
      (n.net.map (·.pay)).getLast? == some (.reason 2)) = true ∧
    next (exec (.active c1 c0) (bring listening (sent 1 true 4))) (fun n => n.net.map (·.pay) == [.reason 1] && n.cr.msg.lpq.length == 1 &&
      n.cr.msg.lpqCount == 1) = true := by decide +kernel

theorem meets_ActiveMessagesRunHandlers_start : next (exec (.handlerStart c0)
      (listening.modCr fun x => { x with msg := { x.msg with waitingActive := [sent 1 true 3] } })) (fun n =>
    let x := n.slotAt c0 0
    x.st == .ready && x.pc.addr == 0x0400000000010200 && look {} x.g 1 == Cap.ofWord 0xC3850001 && look {} x.g 2 == localCap &&
      look {} x.g 4 == Cap.ofWord 7 && look {} x.g 7 == Cap.ofWord 9 && (look {} x.g 3).bounds == (0, 31744)) = true := by decide +kernel

/-- A PORTW for port 2 with the value 8. -/
def portValue : Flight := { dst := c0, src := c1, op := 0x07, pay := .port 2 8 }
def port (b : Binding) (q : List Entry) : State := bring (one.modCr fun x => { x with ports := [(2, { bind := b, q })] }) portValue

theorem meets_PortValuesArrive :
    next (exec (.portw c1 c0) (port .mailbox [])) (fun n => n.cr.port 2 == { bind := .mailbox, q := [8] }) = true ∧
    next (exec (.portw c1 c0) (port .unbound [])) (fun n => n.cr.port 2 == {} && n.cr.msg.lpq.length == 1) = true ∧
    next (exec (.portw c1 c0) (port .mailbox [4])) (fun n => n.cr.port 2 == { bind := .mailbox, q := [4] } &&
      n.cr.msg.waitingPort == some portValue) = true ∧
    next (exec (.mailboxPortwDelivery c0) ((port .mailbox []).modCr fun x => { x with msg := { x.msg with waitingPort := some portValue } }))
      (fun n => n.cr.port 2 == { bind := .mailbox, q := [8] } && n.cr.msg.waitingPort == none) = true := by decide +kernel

/-- An instruction that awaits the reply of tag 4, and the reply. -/
def awaiting (m : Nat) (fin : Completion) (op : Nat) (pay : Payload) : State :=
  bring ((one.modSl fun x => { x with st := .stalled, pend := some { pieces := [{ tag := 4, addr := 0x118, pa := 0xF00000000118, runs := [(0, 0, m)] }], len := 4, fin } }).modCr
    fun x => { x with msg := { x.msg with tags := [4] } }) { dst := c0, src := c1, op, slot := 1, gen := 3, tag := 4, pay }

theorem meets_RepliesCompleteInstructions :
    (awaiting 1 (.load 3 1 true) 0x40 (.bytes [0xFE])).requester c0 4 =
      some (1, { pieces := [{ tag := 4, addr := 0x118, pa := 0xF00000000118, runs := [(0, 0, 1)] }], len := 4, fin := .load 3 1 true },
        { tag := 4, addr := 0x118, pa := 0xF00000000118, runs := [(0, 0, 1)] }) ∧
    next (exec (.dataRpl c1 c0) (awaiting 1 (.load 3 1 true) 0x40 (.bytes [0xFE]))) (fun n => n.ga 3 == -2 && n.ga 2 == 7 &&
      n.sl.st == .ready && n.sl.pc.addr == 0x0400000000010104 && n.cr.msg.tags == []) = true ∧
    next (exec (.ackRpl c1 c0) (awaiting 8 .store 0x41 .none)) (fun n => n.sl.st == .ready && n.sl.pc.addr == 0x0400000000010104) = true ∧
    next (exec (.ackRpl c1 c0) (awaiting 8 (.barWait 3) 0x41 .none)) (fun n => n.sl.st == .waiting && n.sl.await == .retry 0 &&
      n.sl.pc.addr == 0x0400000000010100) = true := by decide +kernel

theorem meets_RepliesCompleteInstructions_messages :
    next (exec (.hreply c1 c0) (awaiting 32 (.send 8 3) 0x44 (.bytes (leBytes 8 6 ++ leBytes 8 0 ++ leBytes 8 0 ++ leBytes 8 5)))) (fun n =>
      n.ga 3 == 0x2001 && n.ga 8 == 6 && n.ga 11 == 5 && n.ga 2 == 7) = true ∧
    next (exec (.nakRpl c1 c0) (awaiting 32 (.send 8 3) 0x43 (.reason 2))) (fun n => n.ga 3 == 3 && n.ga 8 == 0x118) = true ∧
    next (exec (.faultRpl c1 c0) (awaiting 8 (.load 3 8 true) 0x42 (.fault 0x10 0xF00000000118))) (fun n => n.sl.inUser &&
      n.sl.sys.ecause == 0x10 && n.sl.sys.eaddr == 0x118 && n.sl.sys.epc == 0x0400000000010100 && n.ga 3 == 5) = true := by decide +kernel

/-- A wayfarer of job `j` that has hopped twice, its g1 the scratchpad and its g2 the integer 9. -/
def arrival (j : Nat) : State := bring one { dst := c0, src := c1, op := 0x60, tag := 4
                                             pay := .wayfarer { stat := 0x200000080, pca := 0x0400000000010200, g := [{}, localCap, Cap.ofWord 9], mem := { job := j } } }

theorem meets_WayfarersArrive : ((arrival 1).coreAt c0).emptySlot (slotCount c0) = some 2 ∧
    next (exec (.wayfarer c1 c0) (arrival 1)) (fun n => n.net.map (·.pay) == [.reason 1] && n.net.map (·.tag) == [4] &&
      (let x := n.slotAt c0 2
       x.st == .ready && x.wayfarer && x.hops == 3 && x.mpol == 2 && x.pc.addr == 0x0400000000010200 && look {} x.g 2 == Cap.ofWord 9)) = true ∧
    next (exec (.wayfarer c1 c0) (arrival 2)) (fun n => n.net.map (·.pay) == [.reason 0] && (n.slotAt c0 2).st == .empty) = true := by
  decide +kernel

/-- A MIGRATE to core (0, 0, 1) whose answer is on its way. -/
def answered (r : Nat) : State :=
  bring ((one.modSl fun x => { x with st := .transit, wayfarer := true, pend := some { pieces := [{ tag := 4, addr := 0, runs := [] }], len := 4, fin := .migrate 3 } }).modCr
    fun x => { x with msg := { x.msg with tags := [4] } }) { dst := c0, src := c1, op := 0x45, tag := 4, pay := .reason r }

theorem meets_WayfarersArrive_answers : (answered 1).sl.mark = none ∧ (answered 1).sl.gang = {} ∧
    next (exec (.migack c1 c0) (answered 1)) (fun n => n.slotAt c0 1 == { gen := 4 }) = true ∧
    next (exec (.migack c1 c0) (answered 0)) (fun n => n.sl.st == .ready && n.ga 3 == 0 && n.sl.pc.addr == 0x0400000000010104) = true := by
  decide +kernel

/-! ### The system messages, the queues and the timers of a core -/

/-- The receive queue of core (0, 0, 0) is full behind an atomic that waits for a full handler send queue; 2^20 ticks have passed. -/
def jammed : State := { (answering one).modCr fun x => { x with msg := { x.msg with
    waitingAtomic := [request 0x04 (.atom .add 2 3)], waitingActive := List.replicate 31 (sent 1 true 3), blocked := [(0, 0)] } } with ts := 0x100000 }

/-- The same with a probe to that queue, from queue `q` of core `c`. -/
def probed (c : Coord) (q : Nat) : State := { jammed with net := { dst := c0, src := c1, op := 0xC0, tag := 0, pay := .probe c q 3 } :: jammed.net }

theorem meets_ProbesOpenSpareRoom : jammed.blockedOn c0 0 = some (c0, 5) ∧ jammed.elapsed c0 0 1024 = true ∧
    (((probed c1 2).arriving c1 c0 0xC0).isSome = true ∧ next (exec (.probe c1 c0) (probed c1 2)) (fun n => n.net.getLast?.map (·.pay) ==
      some (.probe c1 2 4) && n.cr.msg.spare == []) = true) ∧
    next (exec (.probe c1 c0) (probed c0 0)) (fun n => n.cr.msg.spare == [0] && n.net == jammed.net) = true ∧
    next (exec (.queueBlockedTimeout c0 0) jammed) (fun n => n.net.getLast?.map (·.pay) == some (.probe c0 0 0)) = true := by decide +kernel

/-- The thread waits for `w` at TSNOW 2^20, and one store of it stands in the send queue. -/
def waits (st : SlotState) (w : Await) : State := { (one.modSl fun x => { x with st, await := w }) with
  ts := 0x100000, net := [{ dst := c1, src := c0, op := 0x01, via := .thread 1 }] }

theorem meets_WaitsEnd : (waits .stalled .room).sendQueue c0 false = (waits .stalled .room).net ∧
    (waits .waiting (.retry 0)).elapsed c0 0 256 = true ∧
    next (exec (.threadSendQueueRoom c0 1) (waits .stalled .room)) (fun n => n.sl.st == .ready && n.net.map (·.via) == [.mesh]) = true ∧
    next (exec (.waitDeadline c0 1) (waits .waiting (.wait 3 0x100000 0))) (fun n => n.sl.st == .ready && n.ga 3 == 1 &&
      n.sl.pc.addr == 0x0400000000010104) = true ∧
    next (exec (.waitDeadline c0 1) (waits .waiting (.wait 3 0x100001 0))) (fun n => n.sl.st == .waiting) = true ∧
    next (exec (.barwaitRetry c0 1) (waits .waiting (.retry 0))) (fun n => n.sl.st == .ready) = true := by decide +kernel

/-- Tables of job 1 whose leaf of 1 GiB for DRAM address 0 is `e`, and the thread that waits for page 0x12345. -/
def walked (e : Nat) : State := { ((((one.modSl fun x => { x with st := .stalled, await := .walk 1 .dram 0x0400000012345678 9 0x12345678 }).writeNat
    0xB00000000 8 0x8000000B00001000).writeNat 0xB00001000 8 0x8000000B00002000).writeNat 0xB00002000 8 e) with
  jobs := [(1, { live := true, code := codeCap, counter := 9, evec := 0x0000002000000040, dramRoot := 0xB00000000 })] }
def walks (e : Nat) : State := bring (walked e) { dst := walkers, src := c0, op := 0xC3, tag := 1, pay := .walk 1 .dram 0x0400000012345678 0 }
def walkEnds (p : Payload) : State := bring (walked 0) { dst := dieScheduler 0, src := walkers, op := 0xC4, pay := p }

theorem meets_WalksAndTheirReplies :
    next (exec (.walk c0 walkers) (walks 0xC020000040000000)) (fun n => n.net.map (·.pay) ==
      [.translation 1 .dram 0x0400000012345678 0xC020000040000000 30 false] && n.net.map (·.dst) == [c0]) = true ∧
    next (exec (.walk c0 walkers) (walks 0x4400000000000000)) (fun n => n.net.map (·.pay) == [.walkAbsent 1 .dram 0x0400000012345678] &&
      n.pkg.residentRequests == [(1, .dram, 0x040000001234)]) = true ∧
    next (exec (.walk c0 walkers) (walks 0x4000000000000000)) (fun n => n.net.map (·.pay) ==
      [.walkFault 1 .dram 0x0400000012345678 2 false]) = true := by decide +kernel

theorem meets_WalksAndTheirReplies_answers :
    next (exec (.walkrpl walkers (dieScheduler 0)) (walkEnds (.translation 1 .dram 0x0400000012345678 0xC020000040000000 30 false))) (fun n =>
      n.sl.st == .ready && n.cr.tlb.map (·.va) == [0x0400000000000000] && (n.dieAt 0).tlb == n.cr.tlb) = true ∧
    next (exec (.walkrpl walkers (dieScheduler 0)) (walkEnds (.walkFault 1 .dram 0x0400000012345678 2 true))) (fun n => n.sl.inUser &&
      n.sl.sys.ecause == 9 && n.sl.sys.eaddr == 0x12345678 && n.cr.pgstat == 0xA400000012340000) = true := by decide +kernel

/-- Two pages in the TLBs of die 0 and of its core. -/
def cached : State :=
  let l : List Translation := [{ job := 1, space := .dram, va := 0x0400000000010000, shift := 16, entry := 5 },
    { job := 2, space := .dram, va := 0x0400000000010000, shift := 16, entry := 6 }]
  (one.modCr fun x => { x with tlb := l }).setDie 0 { one.dieAt 0 with tlb := l }

theorem meets_InvalidationsAndRecords :
    next (exec (.shoot c1 (dieScheduler 0)) (bring cached { dst := dieScheduler 0, src := c1, op := 0xC5, pay := .shoot 1 1 0 0 }))
      (fun n => n.cr.tlb.map (·.job) == [2] && (n.dieAt 0).tlb.map (·.job) == [2] && n.net.map (·.op) == [0x41]) = true ∧
    next (exec (.shoot c1 walkers) { cached with net := [{ dst := walkers, src := c1, op := 0xC5, pay := .shoot 1 1 0 0 },
        { dst := dieScheduler 0, src := walkers, op := 0xC4, pay := .translation 1 .dram 0x0400000000010000 5 16 false }] })
      (fun n => n.net.map (·.op) == [0xC4, 0x41]) = true ∧
    next (exec (.record c0 firmware) (bring one { dst := firmware, src := c0, op := 0xC6, pay := .entry (BitVec.ofNat 512 (0x11 * 2 ^ 504 + 2 ^ 416)) }))
      (fun n => n.pkg.records.length == 1 && (n.jobAt 1).lost) = true ∧
    next (exec (.record c0 firmware) (bring one { dst := firmware, src := c0, op := 0xC6, pay := .entry (BitVec.ofNat 512 (0x12 * 2 ^ 504 + 2 ^ 416)) }))
      (fun n => n.pkg.records.length == 1 && !(n.jobAt 1).lost) = true := by decide +kernel

/-- A DONE entry of matrix job 6. -/
def doneOfSix : Entry := BitVec.ofNat 512 (2 * 2 ^ 504 + 6 * 2 ^ 496)

/-- The core has matrix jobs 6 and 7, its thread waits for 6, and the pigeonhole holds `n` entries. -/
def ending (n : Nat) : State := (one.modCr fun x => { x with
    msg := { x.msg with pigeonhole := List.replicate n 0 }
    eng := { x.eng with jobs := [6, 7].map fun id =>
      { kind := 2, op := 0x83, f := ef 0, core := c0, slot := 1, gen := 3, id, job := 1, priv := false, ops := [] } } }).modSl fun x =>
  { x with st := .waiting, await := .job 6 }
def ended (n : Nat) : State := bring (ending n) { dst := c0, src := c0, op := 0x73, pay := .entry doneOfSix }

theorem meets_DoneEntries : entryPart doneOfSix = false ∧
    next (exec (.done c0 c0) (ended 63)) (fun n => n.cr.msg.pigeonhole.length == 64 && n.cr.eng.jobs.map (·.id) == [7] && n.sl.st == .ready) = true ∧
    next (exec (.done c0 c0) (ended 64)) (fun n => n.cr.msg.held == [doneOfSix] && n.cr.eng.jobs.length == 2 && n.sl.st == .waiting) = true ∧
    next (exec (.heldDoneWritten c0) ((ending 63).modCr fun x => { x with msg := { x.msg with held := [doneOfSix] } })) (fun n =>
      n.cr.msg.held == [] && n.cr.msg.pigeonhole.getLast? == some doneOfSix && n.cr.eng.jobs.map (·.id) == [7]) = true := by decide +kernel

theorem test_core_services :
    next (exec (.lpqRemoveHead c0) (one.modCr fun x => { x with msg := { x.msg with lpq := [4, 5] } })) (fun n => n.cr.msg.lpq == [5]) = true ∧
    next (exec (.mctpRequest true) { one with pkg := { one.pkg with identityErased := true } }) (fun n => n.pkg.sideband == [false]) = true := by
  decide +kernel

/-! ### The steps of the engines -/

theorem meets_EnginePiecesAtTheirOwner :
    next (exec (.ewrite c1 c0) (asks 0x70 (.engine c1 6 0 4 0x77 [1, 2, 3, 4] none))) (fun n =>
      n.readBytes (key 0x100) 5 == [1, 2, 3, 4, 0] && n.net.map (·.pay) == [.engine c1 6 0 0 0 [] none]) = true ∧
    next (exec (.ewrite c1 c0) (asks 0x70 (.engine c1 6 0 4 0x77 [1, 2, 3, 4] none) 0x7BFD)) (fun n =>
      n.net.map (·.pay) == [.engineFault c1 6 0x09 0x77]) = true ∧
    next (exec (.eread c1 c0) (asks 0x71 (.engine c1 6 32 8 0x77 [] none))) (fun n => n.net.map (·.bc) == [7] &&
      n.net.map (·.pay) == [.engine c1 6 32 8 0x77 [0xFE, 0x80, 0, 0, 0, 0, 0, 0] none]) = true := by decide +kernel

/-- The state after a command or a step. -/
def after (o : Answer) : State := match o with | .next n => n | _ => State.reset

/-- A porter's job with two messages out, and the answer to one. -/
def reading : State :=
  let j : EngineJob := { kind := 1, op := 0x91, f := ef 0, core := c0, slot := 1, gen := 3, id := 6, job := 1, priv := false
                         ops := [], stage := 1, outstanding := 2, todo := [{ off := 0, x := 0, n := 1 }] }
  bring (one.setCluster c0 { one.clusterAt c0 with active := [j] })
    { dst := c0, src := c1, op := 0x72, pay := .engine c0 6 8 2 0x77 [5, 6] none }

theorem meets_EnginePiecesAtTheirOwner_data : next (exec (.edata c1 c0) reading) (fun n => match n.activeJob c0 6 with
    | some k => k.outstanding == 1 && k.todo.length == 1 && look 0 k.buf 8 == 5 && look 0 k.buf 9 == 6
    | none => false) = true := by decide +kernel

theorem meets_CompletionRecords : let j : EngineJob := { kind := 2, op := 0x80, f := ef 0, core := c0, slot := 1, gen := 3, id := 6
                                                         job := 1, priv := false, ops := [], done := 9, flags := 16, fault := some (0x07, 0x55) }
    doneEntry 0x123 j false = BitVec.ofNat 512 (2 * 2 ^ 504 + 6 * 2 ^ 496 + 7 * 2 ^ 488 + 0x123 * 2 ^ 416 + 0x55 * 2 ^ 352 + 9 * 2 ^ 320 +
      2 ^ 299 + 3 * 2 ^ 289 + 16) := by decide +kernel

/-- The key of scratchpad offset `x` of the engineer's core. -/
def spot (x : Nat) : Nat := scratchKey c0 engineer.cr.partw x

/-- MLD of one element from `filled`'s bytes, queued and then running. -/
def tileLoad : State := after (execMld { es 1 0 with ga := 1, gb := 2 } (engineer.writeBytes (spot 0x100) [1, 2, 3, 4]))
def tileLoadRuns : State := after (execMatrixJobStart c0 tileLoad)

theorem meets_MatrixJobsRun : isCluster c0 = true ∧ ((rotationPick c0 0 (tileLoad.clusterAt c0).matrixQueue).map (·.2)) = some 1 ∧
    (tileLoadRuns.clusterAt c0).running.isSome = true ∧ (tileLoadRuns.clusterAt c0).matrixQueue = [] ∧
    next (exec (.matrixJobComplete c0) tileLoadRuns) (fun n => (n.clusterAt c0).running == none && n.net.map (·.op) == [0x73] &&
      match (tileLoadRuns.clusterAt c0).running with
      | some j => n.readBytes (tileLoadRuns.jobTile j 0) 4 == [1, 2, 3, 4]
      | none => false) = true := by decide +kernel

/-- MZERO of one tile runs. -/
def zeroing : State := after (execMatrixJobStart c0 (after (execMzero (es 1 0) engineer)))

theorem meets_MatrixJobsRun_zero : (match (zeroing.clusterAt c0).running with
    | some j => j.op == 0x83 && zeroTiles j.f == [0] && decide (zeroing.jobTile j 0 ≠ 0)
    | none => false) = true := by decide +kernel

/-- MMA of one row and one column over four K-tiles of 16 F8A elements, split at every K-tile; its thread is marked. -/
def splitting : State :=
  after (execMatrixJobStart c0 ((after (execMma { es 4 (3 * 2 ^ 8) with ga := 1, gb := 2, gc := 8, gd := 4, sg := 1 } engineer)).modSl fun x => { x with mark := some 0 }))

theorem meets_MatrixJobsRun_split : (match (splitting.clusterAt c0).running with
    | some j => splitting.stopAsked j && j.boundary j.total 1 j.mayStop == some 2 &&
        (match matrixRun splitting j 2 with | .ended t m _ none => m == 2 && decide (t.pkg = splitting.pkg) | _ => false)
    | none => false) = true := by decide +kernel

theorem meets_MatrixJobsRun_stops : next (exec (.engineSplitStop c0 2 0) splitting) (fun n => (n.clusterAt c0).running == none &&
    n.net.map (·.op) == [0x73] && n.cr.eng.jobs.map (·.stopped) == [true] && n.cr.eng.jobs.map (·.done) == [2]) = true := by decide +kernel

/-- CFILL of one row of 16 bytes, queued and then active. -/
def filling : State := after (execCfill { es 0 (15 * 2 ^ 12) with ga := 1, gb := 2, gc := 3 } engineer)
def fillingRuns : State := after (execPorterJobStart c0 filling)

theorem meets_PorterJobsRun : ((rotationPick c0 0 (filling.clusterAt c0).porterQueue).map (·.2)) = some 1 ∧
    (fillingRuns.clusterAt c0).porterQueue = [] ∧ (match (fillingRuns.clusterAt c0).active with
      | [j] => (let (t, k) := fillingRuns.porterRun j.fuel j j.porterUnits; k.porterOver t && !t.pkg.injectionHeld)
      | _ => false) = true ∧
    next (exec (.porterJobComplete c0 0) fillingRuns) (fun n => (n.clusterAt c0).active == [] && n.net.map (·.op) == [0x73] &&
      n.readBytes (spot 0x100) 17 == [1, 0, 0, 0, 0, 0, 0, 0, 1, 0, 0, 0, 0, 0, 0, 0, 1]) = true := by decide +kernel

/-- A piece of that command is parked: its bytes 8 to 9. -/
def parked : State :=
  let cl := filling.clusterAt c0
  let j : Option EngineJob := cl.porterQueue.head?.map fun j => { j with stage := 2 }
  filling.setCluster c0 { cl with porterQueue := [], active := j.toList
                                  parked := (j.map fun j => (c0, j.id, ({ off := 8, x := 0x108, n := 2 } : EnginePiece))).toList }

theorem meets_PorterJobsRun_parked : (match (parked.clusterAt c0).active with
      | [j] => j.stage == 2 && j.barrier == none && (parked.clusterAt c0).parked == [(j.core, j.id, { off := 8, x := 0x108, n := 2 })] &&
          parked.engineCheck j j.stageCap.1 j.stageCap.2 0x108 2 == .ok (.key (spot 0x108))
      | _ => false) = true ∧
    next (exec (.parkedPieceReplay c0) parked) (fun n => (n.clusterAt c0).parked == [] && n.readBytes (spot 0x107) 3 == [0, 1, 0]) = true := by
  decide +kernel

/-- A stream copy with 64 bytes ready for stream 7 of core (0, 0, 0), bound to port 3. -/
def streaming : State :=
  let j : EngineJob := { kind := 1, op := 0x90, f := ef 0, core := c0, slot := 1, gen := 3, id := 6, job := 1, priv := false
                         ops := [{}, {}, Cap.ofWord 0x70000], stage := 3, replay := 9 :: List.replicate 63 0 }
  (one.modCr fun x => { x with ports := [(3, { bind := .stream 7, q := [1, 2, 3] })] }).setCluster c0 { one.clusterAt c0 with active := [j] }

theorem meets_PorterJobsRun_stream : (streaming.coreAt (streamCore 0x70000)).streamPort (streamNo 0x70000) = some 3 ∧
    next (exec (.streamFifoEntry c0 0) streaming) (fun n => (n.cr.port 3).q == [1, 2, 3, 9]) = true := by decide +kernel

/-- COLL of one element of two members runs at rank 0, and another waits for nothing more. -/
def summing (out : Nat) : State :=
  let s := after (execColl { es 1 0 with ga := 1, gb := 8, gc := 7, gd := 3 } engineer)
  (s.setSequencer 0 { run := (s.sequencer 0).queue.head?.map fun j => { j with stage := 1, outstanding := out } }).setRing 0
    { s.ringAt 0 with count := 1 }
def chunkFor (command : Nat) : Flight := { dst := fabricPort 0, src := fabricPort 1, op := 0x74, pay := .chunk 0 1 command true 0 0 0 4 [1, 2, 3, 4] }

theorem meets_RingsRun : engineer.sequencer 0 = {} ∧ (chunkFor 5).malformed = false ∧
    next (exec (.ringInstall 0 3 1 255 256) engineer) (fun n => n.ringAt 3 == { job := 1, rank := 255, size := 256 }) = true ∧
    next (exec (.ringInstall 24 3 1 0 2) engineer) (fun n => n.pkg.rings == engineer.pkg.rings) = true ∧
    next (exec (.chunk (fabricPort 1) (fabricPort 0)) (bring engineer (chunkFor 5))) (fun n => (n.ringAt 0).chunks.length == 1) = true ∧
    next (exec (.chunk (fabricPort 1) (fabricPort 0)) (bring (summing 1) (chunkFor 5))) (fun n =>
      ((n.ringRun 0).map (·.fault)) == some (some (0x02, 0))) = true := by decide +kernel

theorem meets_RingsRun_ends : (summing 1).ringGroup 0 = [0] ∧ ((summing 0).ringRun 0).isSome = true ∧
    next (exec (.ringMemberLoss 0 0) (summing 1)) (fun n => (n.ringAt 0).lost &&
      ((n.ringRun 0).map fun j => j.fault.map (·.1)) == some (some 0x10)) = true ∧
    next (exec (.ringJobComplete 0) (summing 0)) (fun n => n.sequencer 0 == {} && n.net.map (·.op) == [0x73]) = true := by decide +kernel

/-- The same command at rank 1 of two members waits in the queue. -/
def joining : State :=
  after (execColl { es 1 0 with ga := 1, gb := 8, gc := 7, gd := 3 } (engineer.setRing 0 { job := 1, rank := 1, size := 2 }))

theorem meets_RingsRun_begins : (joining.sequencer 0).run = none ∧ (match (joining.sequencer 0).queue with
      | [j] => j.stage == 0 && j.ownChunks (joining.ringAt 0) == [] && (j.arrivals (joining.ringAt 0)).length == 1
      | _ => false) = true ∧
    next (exec (.ringJobComplete 0) joining) (fun n => (n.sequencer 0).queue == [] && (n.ringAt 0).count == 1 &&
      ((n.ringRun 0).map (·.outstanding)) == some 1) = true := by decide +kernel

/-- WLOAD of table 2 from memory that begins with 1.0, queued and running; and RESTRICT of a fine core. -/
def weighing : State := after (execWload { es 1 2 with ga := 1 } (engineer.writeBytes (spot 0) [0, 0, 0x80, 0x3F]))
def weighingRuns : State := after (execStairJobStart c0 weighing)
def restricting : State := after (execStairJobStart c0 (after (execRestrictFine { es 1 0 with ga := 1, gb := 7 } engineer)))

theorem meets_StairUnitsRun : (weighing.cr.eng.stairQueue.map fun j => j.fed weighing.cr.eng.partials) = [true] ∧
    (match weighingRuns.cr.eng.stairRun with
      | some j => j.op == 0x98 && j.seat == c0 && (match weighingRuns.engineRead j (j.operand 0) (j.operand 0).bounds.1 108 with | .ok l => l.length == 108 | _ => false)
      | none => false) = true ∧
    next (exec (.stairJobComplete c0) weighingRuns) (fun n => n.cr.eng.stairRun.isNone && n.cr.weight 2 0 == 0x3F800000 && n.cr.weight 2 26 == 0 &&
      n.net.map (·.op) == [0x73]) = true := by decide +kernel

theorem meets_StairUnitsRun_restrict : (match restricting.cr.eng.stairRun with
      | some j => j.op != 0x98 && j.seat == c0 && (match stairRun restricting j j.items.length with | .ended t _ _ none => decide (t.pkg = restricting.pkg) | _ => false)
      | none => false) = true ∧
    next (exec (.stairJobComplete c0) restricting) (fun n => n.cr.eng.stairRun.isNone && n.net.map (·.op) == [0x73]) = true := by decide +kernel

theorem meets_StairUnitsRun_links : (parentOf c0).isSome = true ∧ next (exec (.stairLinkFailure c0) one) (fun n => match parentOf c0 with
      | some (p, _) => p != c0 && n.cr.eng.stairRetired.contains (linkTo c0 p) && (n.coreAt p).eng.stairRetired.contains (linkTo p c0)
      | none => false) = true := by decide +kernel

/-! ### Scheduling -/

/-- Job 1 has a kernel at 0x200 with the quota 8 and partitions; `k` says what stands on core (0, 0, 0), `l` on (0, 0, 1). -/
def working (k l : Core → Core) : State :=
  let s : State := { one with jobs := [(1, { live := true, code := codeCap, counter := 9, evec := 0x0000002000000040, data := localCap
                                             kernels := [{ entry := 0x200, quota := 8, wayfarer := false }]
                                             pw := [(0, 0x80000000040)] })] }
  (s.modCore c0 k).modCore c1 l

/-- A record for that kernel with ARG0 6 and ARG1 5, whose parent is counter 9: a thread, a team of one or a band of one cluster. -/
def task (shape : Nat) : Record := BitVec.ofNat 256 (shape * 2 ^ 252 + 9 * 2 ^ 176 + 6 * 2 ^ 64 + 5)

theorem meets_StealsTakeTheOldestRecord :
    (let s := working (fun x => { x with deque := [task 0 + 1, task 0], stealPort := [(c1, 0)] }) id
     (s.withJob c1 (s.queuedOf (task 0)).job).isSome &&
     next (exec (.stealRequest c1 c0) s) fun n => n.cr.deque == [task 0 + 1] && (n.coreAt c1).stealReply == [some (task 0)] && n.cr.stealPort == []) = true ∧
    next (exec (.stealRequest c1 c0) (working (fun x => { x with stealPort := [(c1, 0)] }) id)) (fun n => (n.coreAt c1).stealReply == [none]) = true ∧
    next (exec (.stealResponse c1) (working id fun x => { x with stealReply := [none] })) (fun n => (n.coreAt c1).stealReply == [] &&
      (n.coreAt c1).deque == []) = true ∧
    next (exec (.stealResponse c1) (working id fun x => { x with stealReply := [some (task 0)] })) (fun n => (n.coreAt c1).deque == [task 0]) = true := by
  decide +kernel

/-- Core (0, 0, 1) has asked for work, and a record has come. -/
def robbing : State := working id fun x => { x with owner := some 1, partw := 0x80000000040, stealReply := [some (task 0)], stealRound := some 0 }

/-- Two requests stand in the steal port of core (0, 0, 0), the second since TSNOW 0. -/
def crowded (now : Word) : State := { (working (fun x => { x with stealPort := [(Coord.mk 0 1 0, 0), (c1, 0)] }) id) with ts := now }

theorem meets_StealsTakeTheOldestRecord_placed : robbing.open_ c1 = true ∧ robbing.resumesFirst 0 (tier c1) = false ∧
    next (exec (.stealResponse c1) robbing) (fun n => (n.slotAt c1 1).st == .ready && (n.coreAt c1).deque == [] && (n.coreAt c1).stealReply == []) = true ∧
    next (exec (.stealPortTimeout c1 c0) (crowded 0x100000)) (fun n => n.cr.stealPort == [(Coord.mk 0 1 0, 0)] && (n.coreAt c1).stealReply == [none]) = true ∧
    next (exec (.stealPortTimeout c1 c0) (crowded 1)) (fun n => n.cr.stealPort.length == 2) = true := by decide +kernel

theorem meets_AnIdleCoreStartsAThread : (let s := working (fun x => { x with deque := [task 0] }) id
     s.open_ c0 && !(s.clusterAt c0).closed && !s.resumesFirst 0 (tier c0) && s.cr.partPending == none && recShape (task 0) == 0 && recGang (task 0) == 1 && s.cr.owner == some (s.queuedOf (task 0)).job &&
     recKernel (task 0) == 0 && s.findPlace c0 1 { entry := 0x200, quota := 8, wayfarer := false } == some (2, some 32, []) &&
     next (exec (.idleCoreSearch c0) s) fun n => n.cr.deque == [] &&
       let x := n.slotAt c0 2
       x.st == .ready && x.pc.addr == 0x0400000000010200 && look {} x.g 1 == Cap.ofWord 6 && look {} x.g 2 == localCap && look {} x.g 4 == Cap.ofWord 5 &&
         x.mem.ctr == 1 && (n.counterAt 1).count == 1 && (n.counterAt 1).parent == some 9) = true := by decide +kernel

/-- A record waits in the cluster queue and in the die queue since TSNOW 0; it is 2^27 now. -/
def queued (c d : Nat) (passed : Nat) : State :=
  let s := { (working id id) with ts := 0x8000000 }
  (s.setCluster c0 { s.clusterAt c0 with queue := [{ record := task c, job := 1, passed }] }).setDie 0 { s.dieAt 0 with queue := [{ record := task d, job := 1 }] }

theorem meets_TeamsAndBandsArePlaced : isCluster c0 = true ∧ (queued 1 2 0).open_ c0 = true ∧
    ((queued 1 2 0).placeTeams [c0] { record := task 1, job := 1 }).isSome = true ∧
    next (exec (.teamPlacement c0) (queued 1 2 0)) (fun n => (n.clusterAt c0).queue == [] && (n.slotAt c0 2).st == .ready &&
      look {} (n.slotAt c0 2).g 5 == clusterHandle) = true := by decide +kernel

theorem meets_TeamsAndBandsArePlaced_bands : queuePlace 0 = (0, 0) ∧
    ((queued 1 2 0).placeBandSomewhere 0 0 { record := task 2, job := 1 }).isSome = true ∧
    next (exec (.bandPlacement 0) (queued 1 2 0)) (fun n => (n.dieAt 0).queue == [] && (n.slotAt c0 2).st == .ready) = true := by decide +kernel

theorem meets_TeamsAndBandsArePlaced_reservation : (queued 1 2 0).elapsed ((clustersOfDie 0 0).headD 0) 0 65536 = true ∧
    ((queued 1 2 0).dieAt 0).reserved = [] ∧ (corners 0 0 { record := task 2, job := 1 }).length = 128 ∧
    next (exec (.bandReservation 0) (queued 1 2 0)) (fun n => (n.dieAt 0).reserved.map (·.1) != [c0] && (n.dieAt 0).reserved.length == 1) = true ∧
    next (exec (.recordPassLimit c0) (queued 1 2 64)) (fun n => (n.clusterAt c0).closed) = true ∧
    next (exec (.recordPassLimit c0) (queued 1 2 63)) (fun n => !(n.clusterAt c0).closed) = true := by decide +kernel

/-- The thread was marked at TSNOW 0, and the budget has run out. -/
def overdue : State := { (one.modSl fun x => { x with mark := some 0 }) with ts := 0x100000 }

theorem meets_UnitsArePreemptedAndResume : one.unitSlots 0 1 0 = [(c0, 1)] ∧ overdue.elapsed c0 0 20000 = true ∧
    overdue.cr.settled 1 = true ∧ overdue.doneOut c0 1 = false ∧
    next (exec (.preemptionMark c0 1) { one with ts := 7 }) (fun n => n.sl.mark == some 7) = true ∧
    next (exec (.forcedSave c0 1) overdue) (fun n => n.sl == { gen := 4 } && ((n.dieAt 0).saved.map fun u => (u.job, u.unit, u.marked, u.threads.length)) ==
      [(1, 0, true, 1)]) = true := by decide +kernel

/-- The unit has been saved. -/
def saved : State := after (execForcedSave c0 1 overdue)

theorem meets_UnitsArePreemptedAndResume_resume : (match (saved.dieAt 0).saved with
      | [u] => u.marked && u.bound == none && (match u.threads with
        | [y] => y.parked == [] && y.entries == [] && y.slot.gang == {} && y.followers == [] && (saved.findPlace c0 1 (slotKernel y.slot)).isSome
        | _ => false)
      | _ => false) = true ∧ saved.open_ c0 = true ∧ saved.cr.owner = some 1 ∧
    next (exec (.unitResume c0 0) saved) (fun n => (n.dieAt 0).saved == [] && n.sl.st == .ready && n.sl.gen == 4 && n.sl.pc == codeCap &&
      n.ga 5 == -2) = true := by decide +kernel

/-! ### Jobs, memory, pages -/

/-- A launch image: header, one kernel at 0 with the quota 8, eight empty levels, 16 bytes of text and 16 of data. -/
def image : Nat :=
  (0x314C4245 * 2 ^ 608 + 2 ^ 592 + 2 ^ 544 + 16 * 2 ^ 384 + 16 * 2 ^ 352 + 80 * 2 ^ 320 + 96 * 2 ^ 288 + 160 * 2 ^ 256 + 160 * 2 ^ 224 +
    160 * 2 ^ 192 + 160 * 2 ^ 160 + 160 * 2 ^ 128 + 176 * 2 ^ 96) + 2 ^ 640 * (8 * 2 ^ 32) + 2 ^ 1280 * 0x77

/-- A descriptor of that image at VA 0x0400000000000000, with one thread record behind it, and two register stripes on every tier. -/
def descriptor : BitVec 1024 :=
  BitVec.ofNat 1024 (0x0400000000000000 * 2 ^ 960 + 192 * 2 ^ 928 + 0x04000000000000C0 * 2 ^ 832 +
    2 ^ 40 * (2 ^ 448 + 2 ^ 384 + 2 ^ 320 + 2 ^ 256))

/-- The host's address space shows the image, and the descriptor stands in queue 4. -/
def submitted (d : BitVec 1024) : State :=
  let s := ((walked 0xC020000040000000).writeNat 0x40000000 192 image).writeNat 0x400000C0 32 5
  { s with jobs := (0, { dramRoot := 0xB00000000 }) :: s.jobs, pkg := { s.pkg with commands := [(4, [{ desc := d }])], nextJob := 3 } }

theorem meets_JobsAreLaunched : one.inService = true ∧
    next (exec (.hostCommand 62 5) one) (fun n => look [] n.pkg.commands 62 == [{ desc := 5 }]) = true ∧
    next (exec (.hostCommand 63 5) one) (fun n => n.pkg.commands == []) = true ∧
    descWellFormed (BitVec.toNat (5 : BitVec 1024)) true = false ∧
    (submitted 5).commandQueue = some 4 ∧
    next (exec (.hostCommand 4 6) { one with pkg := { one.pkg with commands := [(4, List.replicate 64 { desc := 5 })] } }) (fun n =>
      n.pkg.commandNaks == [4] && (look [] n.pkg.commands 4).length == 64) = true ∧
    next (exec (.jobAccept 3 0) (submitted 5)) (fun n => look [] n.pkg.commands 4 == [{ desc := 5 }]) = true ∧
    next (exec (.jobAccept 4 0) (submitted 5)) (fun n => look [] n.pkg.commands 4 == [] && n.jobs.length == 2 && n.pkg.commandTurn == 5) = true := by decide +kernel

theorem meets_JobsAreLaunched_image : ((submitted descriptor).spaceBytes 0 0x0400000000000000 192).map List.length = some 192 ∧
    ((((submitted descriptor).spaceBytes 0 0x0400000000000000 192).bind parseImage).map fun m => (m.kernels.map (·.quota), m.text.length, m.data.length)) =
      some ([8], 16, 16) := by decide +kernel

theorem meets_JobsAreLaunched_judged : (match (submitted descriptor).judge 9 { desc := descriptor } with
    | .take j text data records => (submitted descriptor).recordsFit j false && text.length == 16 && data.length == 16 && records.length == 1
    | .refuse _ => false) = true := by decide +kernel

theorem meets_JobsEnd : (let s := { (working id id) with counters := [(9, { count := 0, job := 1 })] }
      (s.jobAt 1).live && (s.counterAt (s.jobAt 1).counter).over && next (exec (.jobCompletion 1) s) fun n => !(n.jobAt 1).live) = true ∧
    next (exec (.jobCompletion 1) { (working id id) with jobs := [(1, { live := true, lost := true, reportTo := 0x50, interrupt := true })] }) (fun n =>
      !(n.jobAt 1).live && n.pkg.hostMessages == [(0x50, leBytes 4 1 ++ leBytes 4 0x10 ++ leBytes 8 0)] && n.pkg.interrupts == 1 && n.slotAt c0 1 == { gen := 4 }) = true := by
  decide +kernel

/-- Job 1 has been given a page of class 0 in frame 0x10000. -/
def given : State := after (execMemoryRequest 1 0 {} { n := 1, shift := 16 } 0 one)
def page : Mapped := { job := 1, space := .dram, va := 0x0400001000000000, frame := 0x10000 }

theorem meets_MemoryIsGivenAndReleased : one.tableRoom = true ∧ one.frameFree 0x10000 16 = true ∧ one.frameFree 0 16 = false ∧
    (given.pkg.handles.map fun p => (p.1, p.2.bounds)) = [(1, 0x0400001000000000, 0x0400001000010000)] ∧ given.pkg.pages = [page] ∧
    (namedStacks []).findSome? (one.stackFrame 16) = some 0x10000 ∧
    next (exec (.memoryRequest 1 0 {} { n := 0, shift := 16 } 0) one) (fun n => n.pkg.handles == [(1, {})]) = true := by decide +kernel

theorem meets_MemoryIsGivenAndReleased_release : given.pageOf 1 0x0400001000000010 = some page ∧ given.frameQuiet page = true ∧
    given.pageLocked 1 0x0400001000000010 = false ∧
    next (exec (.pageRelease 1 0x0400001000000010) given) (fun n => n.pkg.pages == [] && n.walk 1 .dram 0x0400001000000010 == .fail 0 false) = true := by
  decide +kernel

theorem meets_PagesComeAndGo : pteValid (given.entryNow page) = true ∧ ptePageable (given.entryNow page) = true ∧
    next (exec (.pageNonResident 1 0x0400001000000010) given) (fun n => (match n.walk 1 .dram 0x0400001000000010 with | .absent _ k => k == 16 | _ => false)) = true ∧
    (let s := { given with pkg := { given.pkg with residentRequests := [(1, .dram, 0x40000100000)] } }
     next (exec (.pageResident 1 0x0400001000000010 0x10000 true) s) (fun n => n.pkg.residentRequests == [] && n.pkg.pages == [page]) &&
     next (exec (.pageResident 1 0x0400001000000010 0x10000 false) s) fun n => n.pkg.residentRequests == [] && n.pkg.pages == []) = true := by
  decide +kernel

theorem meets_PagesMove : given.frameFree 0x20000 16 = true ∧ given.frameFits page 0x20000 = true ∧ given.memoryCanonical ∧
    given.orderly page 0x20000 = true ∧ given.pkg.locks = [] ∧
    next (exec (.pageMove 1 0x0400001000000010 0x20000) (given.writeNat 0x10010 1 9)) (fun n => n.pkg.pages == [{ page with frame := 0x20000 }] &&
      n.pkg.locks == [{ job := 1, va := 0x0400001000000000, old := 0x10000, new := 0x20000 }] && n.readNat 0x20010 1 == 9) = true := by
  refine ⟨?_, ?_, ?_, ?_, ?_, ?_⟩ <;> (try show Memory.wf _ = true) <;> decide +kernel

theorem meets_PagesMove_unlock : next (exec (.pageLockRelease 1 0x0400001000000010)
      { bring given { dst := homeAgent 0, src := c0, op := 0x00, addr := 0x10018 } with
        pkg := { given.pkg with locks := [{ job := 1, va := 0x0400001000000000, old := 0x10000, new := 0x20000 }] } }) (fun n =>
    n.pkg.locks == [] && n.net.map (·.addr) == [0x20018]) = true := by decide +kernel

/-! ### Pools, testers, dies, links, windows, alarms -/

/-- No thread is on the core, and its partition is to change to 17 stripes of vector registers. -/
def repartition : State := one.modCr fun x => { x with slots := [], partPending := some 0x88000000040 }

theorem meets_PoolsAreKept : repartition.quiet c0 = true ∧
    next (exec (.partwChange c0) repartition) (fun n => n.cr.partw == 0x88000000040 && n.cr.partPending == none) = true ∧
    next (exec (.partwChange c0) (one.modCr fun x => { x with partPending := some 0x88000000040 })) (fun n => n.cr.partPending.isSome) = true ∧
    next (exec (.poolArbitration c0) (one.modPool c0 fun x => { x with rotation := 5 })) (fun n => (n.poolAt c0).rotation == 0) = true := by decide +kernel

/-- Two reads of a vector load stand in the pool queue of the core, of the words `v` and `w`. -/
def contending (v w : Nat) (age : Nat := 8) : State :=
  filled.modPool c0 fun x => { x with queue := [v, w].map fun r => { client := 1, reads := [r], age } }

/-- A write of the bytes of `l` of word 40 and 41 stands in it alone. -/
def updating (l : List (Nat × Nat)) : State := filled.modPool c0 fun x => { x with queue := [{ client := 1, updates := rowUpdates l }] }

theorem meets_PoolsAreKept_requests :
    next (exec (.poolArbitration c0) (contending 40 71)) (fun n => (n.poolAt c0).idle) = true ∧
    next (exec (.poolArbitration c0) (filled.modPool c0 fun x => { x with queue := [{ client := 1, reads := [40, 41] }] }))
      (fun n => (n.poolAt c0).idle) = true ∧
    next (exec (.poolArbitration c0) (updating [(40, 1), (41, 0xFFFF)])) (fun n => (n.poolAt c0).queue.map (fun q => (q.age, q.updates.map (·.half))) == [(1, [true])]) = true ∧
    next (exec (.poolArbitration c0) (updating ((List.range 8).map fun i => (31 + i, 0xFFFF)))) (fun n => (n.poolAt c0).idle) = true ∧
    filled.rebuiltWord c0 1 9 = filled.poolWord c0 40 ∧ filled.poolWord c0 512 ≠ 0 := by decide +kernel

/-- Words 40 and `w` of the pool have a double-bit error, and word 40 a tag. -/
def damaged (w : Nat) : State :=
  let g (i : Nat) : Nat := poolKey c0 (16 * i) / 16
  { one with doubleErrors := [g 40, g w], tags := [g 40, g 41] }

theorem meets_PoolsAreKept_rebuild :
    next (exec (.poolRebuildWriteback c0 40) (damaged 46)) (fun n => n.poison == [poolKey c0 640 / 16] && n.tags.length == 1 && n.doubleErrors.length == 1) = true ∧
    next (exec (.poolRebuildWriteback c0 40) (damaged 47)) (fun n => n.poison == [] && n.tags == [poolKey c0 656 / 16] && n.doubleErrors.length == 1) = true := by decide +kernel

/-- The tester has taken bus 3 of the cluster and stands in a phase of its test. -/
def held (p : TestPhase) : State := one.setBus c0 3 { phase := some p }

theorem meets_BusesAreTested : one.busAt c0 3 = {} ∧ one.testing c0 3 = false ∧
    next (exec (.testerQuiesce c0 3 true) one) (fun n => n.busAt c0 3 == { phase := some .quiesced }) = true ∧
    next (exec (.testerQuiesce c0 3 true) (held .quiesced)) (fun n => (n.busAt c0 3).phase == some .pattern) = true ∧
    next (exec (.testerQuiesce c0 3 false) (held .pattern)) (fun n => n.busAt c0 3 == { phase := some .checked } && n.net == []) = true ∧
    next (exec (.testerQuiesce c0 3 true) (held .pattern)) (fun n => n.net.map (·.op) == [0xC6] && n.pkg.selfTests.map (·.kind) == [1]) = true ∧
    next (exec (.testerQuiesce c0 3 true) (held .checked)) (fun n => n.busAt c0 3 == {}) = true ∧
    next (exec (.testerQuiesce c0 2 false) (held .pattern)) (fun n => n.busAt c0 2 == {}) = true := by decide +kernel

/-- The bus has been left at TSNOW 0 for a demand access. -/
def barredBus (now : Word) : State := { one.setBus c0 3 { abortedAt := some 0 } with ts := now }

theorem meets_BusesAreTested_abort : (barredBus 9).elapsed c0 0 4096 = false ∧
    next (exec (.testerAbort c0 3) (one.setBus c0 3 { phase := some .pattern, demand := true })) (fun n => n.busAt c0 3 == { abortedAt := some 0 }) = true ∧
    next (exec (.testerQuiesce c0 3 false) (barredBus 9)) (fun n => (n.busAt c0 3).phase == none) = true ∧
    next (exec (.testerQuiesce c0 3 false) (barredBus 0x100000)) (fun n => (n.busAt c0 3).phase == some .quiesced) = true := by decide +kernel

/-- A self-test of kind `k` is under way. -/
def selfTesting (k : Nat) (place : Coord) (e : Nat := 0) : State := { one with pkg := { one.pkg with selfTests := [{ kind := k, place, idx := 1, errors := e }] } }

theorem meets_BusesAreTested_selftests :
    next (exec (.selfTestComplete 1 c0 1 { fails := 2, readable := true }) (selfTesting 1 c0)) (fun n => (n.busAt c0 1).retired && n.pkg.lasting == [(1, c0, 1)]) = true ∧
    next (exec (.selfTestComplete 1 c0 1 { fails := 1, readable := true }) (selfTesting 1 c0)) (fun n => !(n.busAt c0 1).retired && n.pkg.selfTests == []) = true ∧
    next (exec (.selfTestComplete 1 c0 1 { fails := 1, readable := true }) (selfTesting 1 c0 1)) (fun n => (n.busAt c0 1).retired) = true ∧
    linked 0 1 = true ∧ next (exec (.selfTestComplete 2 0 1 { fails := 16, readable := true }) (selfTesting 2 0)) (fun n => !n.linkUp 0 1) = true := by decide +kernel

/-- Die `d` drains. -/
def draining (d : Nat) : State := one.setDie d { one.dieAt d with draining := true }

theorem meets_DiesLeaveService : one.dieLive 15 = true ∧ next (exec (.plannedOffline 15) (draining 15)) (fun n => n.dieLive 15 && !(n.dieAt 15).draining) = true := by
  decide +kernel

theorem meets_DiesLeaveService_drain : next (exec (.dieDrain 15) one) (fun n => (n.dieAt 15).draining && n.dieLive 15) = true := by decide +kernel

theorem meets_DiesLeaveService_planned : (draining 12).dieEmpty 12 = true ∧ (draining 12).towerPages ((draining 12).physical 12) = [] ∧
    next (exec (.plannedOffline 12) (draining 12)) (fun n => !n.dieLive 12) = true := by decide +kernel

/-- The thread of job 1 is on a core of die 15. -/
def onTop : State := { one with cores := [((Coord.mk 15 0 0).toNat, one.coreAt c0)] }

theorem meets_DiesLeaveService_forced : onTop.dieLive 15 = true ∧ onTop.jobsOn 15 = [1] ∧ onTop.running (Coord.mk 15 0 0) = true := by decide +kernel

/-- Die 13 is out of service and die 12 drains. -/
def spareTower : State := (draining 12).setDie 13 { offline := true }

theorem meets_DiesLeaveService_remap : (queuePlace 13).2 = (queuePlace 12).2 ∧ spareTower.towerLive 13 = false ∧ spareTower.pkg.pages = [] ∧
    next (exec (.dieRemap 12 13) spareTower) (fun n => n.physical 12 == 13 && n.dieLive 12 && !(n.dieAt 12).draining) = true := by decide +kernel

/-- LINKPWR of die 0, and the state of its bridge to die 1. -/
def bridge (w : Word) (x : LinkState) (now : Word := 0x100000) : State :=
  { one.setDie 0 { one.dieAt 0 with linkpwr := w, links := [(1, x)] } with ts := now }

theorem meets_LinksAndRoutes : linkExists 0 1 = true ∧ (bridge 0x10100000002 .full).linkIdle 0 1 = true ∧
    next (exec (.linkNarrow 0 1) (bridge 0x10100000001 .full)) (fun n => look .full (n.dieAt 0).links 1 == .narrow) = true ∧
    next (exec (.linkNarrow 0 1) (bridge 0x10100000000 .full)) (fun n => look .full (n.dieAt 0).links 1 == .full) = true ∧
    next (exec (.linkSleep 0 1) (bridge 0x10100000002 .narrow)) (fun n => look .full (n.dieAt 0).links 1 == .sleep) = true ∧
    next (exec (.linkNarrow 0 1) (bridge 0x10100000001 .full 99)) (fun n => look .full (n.dieAt 0).links 1 == .full) = true ∧
    next (exec (.linkWakeComplete 0 1) ((bridge 0x10100000002 .sleep).setDie 0 { (bridge 0x10100000002 .sleep).dieAt 0 with waking := [1] }))
      (fun n => look .full (n.dieAt 0).links 1 == .full) = true := by decide +kernel

/-- Injection is held for a tree that hangs router 5 under router 1, and the source of a reply keeps it. -/
def recomputed : State := { bring one { dst := c1, src := c0, op := 0x40, via := .source } with
  pkg := { one.pkg with injectionHeld := true, nextTree := some [(5, 1)] } }

theorem meets_LinksAndRoutes_tables : one.spans [(5, 1)] = true ∧ one.spans [(5, 2)] = false ∧
    next (exec .routeRecomputation (one.move (.computeTree [(5, 2)]))) (fun n => !n.pkg.injectionHeld) = true ∧
    next (exec .routeRecomputation (one.move (.computeTree [(5, 1)]))) (fun n => n.pkg.injectionHeld && n.pkg.nextTree == some [(5, 1)]) = true ∧
    recomputed.net.all recomputed.drained = true ∧
    next (exec .routeTableInstall recomputed) (fun n => n.net.map (·.via) == [.source] && n.pkg.tree == [(5, 1)] && !n.pkg.injectionHeld &&
      (n.move (.inject c0)).net.map (·.via) == [.mesh] && (recomputed.move (.inject c0)).net.map (·.via) == [.source]) = true := by
  decide +kernel

/-- An export entry for peer 0x77: port 3, one page at DRAM address 0x10000, writable. -/
def window : BitVec 128 := BitVec.ofNat 128 (0x10000 * 2 ^ 64 + 0x77 * 2 ^ 48 + 3 * 2 ^ 40 + 2 ^ 20 + 5)
def exporting : State := { one with pkg := { one.pkg with exported := [(2, window)], imported := [(2, window - 1)] } }

theorem meets_WindowsAreInstalledAndWithdrawn : windowValid false window.toNat = true ∧
    next (exec (.windowImport false 2 window) one) (fun n => look 0 n.pkg.exported 2 == window && n.pkg.imported == []) = true ∧
    next (exec (.windowImport false 64 window) one) (fun n => n.pkg.exported == []) = true ∧
    next (exec (.windowWithdraw false 2) exporting) (fun n => look 0 n.pkg.exported 2 == window - 1) = true ∧
    next (exec (.windowInvalidate true 2) { exporting with
      pkg := { exporting.pkg with pages := [{ job := 1, space := .fabric, va := 0x0500000000010000, frame := 2 ^ 45 + 2 * 2 ^ 36 }] }
      cores := [(0, { tlb := [{ job := 1, space := .fabric, va := 0x0500000000010000, shift := 16, entry := 5 }] })] }) (fun n => (n.coreAt 0).tlb == []) = true := by
  decide +kernel

theorem meets_PeersAccessExportedWindows : exporting.frameLocked 0x1FFFF = false ∧ exporting.poisonedAt 0x1FFFE 2 = false ∧
    next (exec (.fabricInboundAccess 0x77 2 0xFFFE 0x11 0x4321) exporting) (fun n => n.readNat 0x1FFFE 2 == 0x4321 && n.pkg.answers == [(0x77, some [])]) = true ∧
    next (exec (.fabricInboundAccess 0x77 2 0xFFFE 0x10 0) (exporting.writeNat 0x1FFFE 2 0x4321)) (fun n => n.pkg.answers == [(0x77, some [0x21, 0x43])]) = true ∧
    next (exec (.fabricInboundAccess 0x77 2 0xFFFE 0x21 0x4321) exporting) (fun n => n.pkg.answers == [(0x77, none)]) = true ∧
    next (exec (.fabricInboundAccess 0x78 2 0 0x11 0x4321) exporting) (fun n => n.pkg.answers == [(0x78, none)]) = true := by decide +kernel

theorem meets_BringUpAlarmAndHeat : one.spans [] = true ∧ next (exec .bringUp State.reset) (fun n => n.pkg.bringUp == 1) = true ∧
    next (exec .bringUp { filled with jobs := [], pkg := { one.pkg with shutdown := true } }) (fun n => n.pkg.bringUp == 1 && !n.pkg.shutdown &&
      n.cores == [] && n.mem == []) = true ∧ ({ filled with jobs := [] } : State).noJobs = true ∧
    next (exec (.securityAlarm 2) one) (fun n => n.pkg.identityErased && n.pkg.keysErased && n.pkg.alarm == 2 && (n.jobAt 1).lost) = true ∧
    next (exec (.thermalThrottle 283) one) (fun n => look 0 n.pkg.throttle 283 == 1) = true ∧
    next (exec .thermalShutdown one) (fun n => n.pkg.shutdown && !n.running c0 && (n.jobAt 1).lost) = true := by decide +kernel

/-! ### Further clauses of the statements -/

theorem meets_WaitReportsItsReasons_waits : ∃ t, Issues (one.modSl fun x => { x with st := .waiting, await := .wait 3 0 0 }) (usesG [3] [7]) t ∧
    (decide (t.sl.st = .waiting ∧ t.sl.await = .wait 3 (t.ga 7).toNat 0 ∧ (t.sl.endWait t.cr t.ts.toNat).st = .ready) &&
      (t.modSl (Slot.endWait t.cr t.ts.toNat)).ga 3 == 1) = true := meets_ok (by decide)

/-- RETIRE of a thread whose v3 is leased, and of one that belongs to a team with the counter 12. -/
def teamed : State := { (one.modSl fun x => { x with mem := { x.mem with team := some 12 } }) with
  counters := [(9, { count := 2, job := 1 }), (12, { count := 2, parent := some 9, job := 1 })] }

theorem meets_RetireEndsTheThread_leased : ∃ t, Issues leased {} t ∧
    (decide (t.slot ≠ 0 ∧ t.unleased = false) && next (exec .retire leased) fun n => n.sl.st == .stalled && n.sl.await == .room) = true :=
  meets_ok (by decide +kernel)

theorem meets_RetireEndsTheThread_team : ∃ t, Issues teamed {} t ∧
    (decide (t.unleased = true ∧ (t.counterAt 12).closed = false ∧ 1 < (t.counterAt 12).count) &&
      next (exec .retire teamed) fun n => (n.counterAt 12).count == 1 && (n.counterAt 9).count == 2) = true := meets_ok (by decide +kernel)

/-- Another thread waits for a value at port 2. -/
def reader : State := mailbox.setSlot c0 2 { thread with st := .waiting, await := .port 2 }

theorem meets_PortBindings_reader : ∃ t, Issues reader { ownOnly := true } t ∧
    (decide (trapLevel (t.slotAt c0 2) ({ t with slot := 2 } : State).evec 0x02 = some false) &&
      next (exec (.unbind 2) reader) fun n => (n.cr.port 2).bind == .unbound && (n.slotAt c0 2).st == .ready &&
        (n.slotAt c0 2).sys.ecause == 0x02 && (n.slotAt c0 2).sys.epc == 0x0400000000010100) = true := meets_ok (by decide +kernel)

/-- The first word of v3 in the leader or in the follower of a gang of two is poisoned. -/
def spoiled (lost : Coord) : State := { ((vectors.modSl fun x => { x with frame := some 0, gang := { size := 2, reserved := 2 } }).modSlot c1 1
    fun x => { x with quota := 32, frame := some 0, gang := { leader := some c0 } }) with poison := [poolGranule lost 12] }

/-- The words that VIADD reads there, and the lowest member that cannot read its own. -/
noncomputable def lostIn (s : State) : Option Nat :=
  s.lostMember ((reachFor (.viadd i8) (vecUses i8 (spec3 TypeSet.ints true true)) (s.operands i8 (spec3 TypeSet.ints true true))).pool
    s.sl.gang.size s.sl.keep)

theorem meets_IssueChecksInOrder_lost : ∃ t, Issues (spoiled c0) (vecUses i8 (spec3 TypeSet.ints true true)) t ∧
    (decide (schedSpec (.viadd i8) = some (i8, spec3 TypeSet.ints true true) ∧ lostIn t = some 0) &&
      trapped (exec (.viadd i8) (spoiled c0)) 0x10 0x0400000000010100 0) = true := meets_ok (by decide +kernel)

theorem meets_IssueChecksInOrder_lost_follower : ∃ t, Issues (spoiled c1) (vecUses i8 (spec3 TypeSet.ints true true)) t ∧
    (decide (lostIn t = some 1) && trapped (exec (.viadd i8) (spoiled c1)) 0x0F 0x0400000000010100 0x1001) = true :=
  meets_ok (by decide +kernel)

theorem meets_SystemRegisters_wayfarer : ∃ t, Issues wayfarer (usesG [3] []) t ∧
    (decide (t.sl.wayfarer = true) && next (exec (.srw 3 0x12) wayfarer) fun n => n.sl.sys.amx == 0) = true := meets_ok (by decide +kernel)

/-- The counter that CPLSIG names has reached 0. -/
def surplus : State := { child with counters := [(9, { count := 0, job := 1 })] }

theorem meets_TaskCompletion_surplus : ∃ t, Issues surplus (usesG [] (four 4)) t ∧
    (decide ((t.counterAt 9).closed = false ∧ (t.counterAt 9).count = 0) &&
      next (exec (.cplsigTask 4) surplus) fun n => n.counters == surplus.counters && n.net.map (·.op) == [0xC6]) = true := meets_ok (by decide +kernel)

theorem meets_JobStatus_stopped : next (exec (.mstat 5 2) (matrix.modCr fun x => { x with
      eng := { x.eng with jobs := x.eng.jobs.map fun j => { j with stopped := true } } })) (fun n => n.ga 5 == 0xFF06000000000000) = true ∧
    next (exec (.mstat 5 2) (matrix.modCr fun x => { x with
      eng := { x.eng with jobs := x.eng.jobs.map fun j => { j with stopped := true, told := true } } })) (fun n => n.ga 5 == 0) = true := by decide +kernel

-- register 3 of slot 1 is CORE, and register 0x12 is AMX
theorem meets_OwnersRefuseOrHold_control : (let f : Flight := { request 0x00 .none with addr := 0xE00000010018 }
    f.malformed = false ∧ f.isControl = true ∧ next (exec (.load c1 c0) (bring filled f)) (fun n =>
      n.net.map (·.pay) == [.bytes [1, 0, 0, 0, 0, 0, 0, 0]] && n.net.map (·.op) == [0x40]) = true) := by decide +kernel

theorem meets_OwnersRefuseOrHold_malformed : (request 0x00 (.reason 0)).malformed = true ∧
    next (exec (.load c1 c0) (asks 0x00 (.reason 0))) (fun n => n.net.map (·.op) == [0xC6, 0x43] && n.net.map (·.dst) == [firmware, c1] &&
      n.net.getLast?.map (·.pay) == some (.reason 2)) = true := by decide +kernel

theorem meets_ActiveMessagesRunHandlers_halted : (let s := listening.modCr fun x =>
      { x with halted := true, msg := { x.msg with waitingActive := [sent 1 true 3] } }
    next (exec (.handlerStart c0) s) (fun n => n.cr.msg.waitingActive.length == 1 && (n.slotAt c0 0).st == .empty)) = true := by decide +kernel

theorem meets_WayfarersArrive_held : (let s := (arrival 1).modCr fun x => { x with partPending := some 0 }
    next (exec (.wayfarer c1 c0) s) (fun n => n.net.length == 1 && (n.slotAt c0 2).st == .empty)) = true ∧
    (let s := (answered 0).modSl fun x => { x with pend := x.pend.map fun p => { p with fin := .access } }
     next (exec (.migack c1 c0) s) (fun n => n.sl.st == .ready && n.sl.noMigrate && n.sl.pc == codeCap)) = true := by decide +kernel

theorem meets_ProbesOpenSpareRoom_discarded : one.blockedOn c0 0 = none ∧
    jammed.unbroken c0 0 c0 5 0 = true ∧ jammed.blockedLong c0 0 = true ∧
    next (exec (.probe c1 c0) { one with net := (probed c1 2).net.take 1 }) (fun n => n.net == [] && n.cr.msg.spare == []) = true := by decide +kernel

theorem meets_WalksAndTheirReplies_poisoned :
    (let s := walks 0x4400000000000000
     next (exec (.walk c0 walkers) { s with pkg := { s.pkg with poisoned := [(1, .dram, 0x0400000000000000)] } }) (fun n =>
       n.pkg.residentRequests == [] && n.net.map (·.pay) == [.translation 1 .dram 0x0400000012345678 0x4400000000000000 30 true])) = true := by decide +kernel

theorem meets_WalksAndTheirReplies_stale :
    (let s := walkEnds (.translation 1 .dram 0x0400000012345678 0xC020000040000000 30 false)
     next (exec (.walkrpl walkers (dieScheduler 0)) (s.setDie 0 { s.dieAt 0 with walks := [{ job := 1, space := .dram, page := 0x040000001234, stale := true }] }))
       (fun n => n.sl.st == .ready && n.cr.tlb == [] && (n.dieAt 0).tlb == [] && (n.dieAt 0).walks == [])) = true := by decide +kernel

theorem meets_InvalidationsAndRecords_waits :
    (let s := bring cached { dst := dieScheduler 0, src := c1, op := 0xC5, pay := .shoot 1 1 0 0 }
     next (exec (.shoot c1 (dieScheduler 0)) (s.setDie 0 { s.dieAt 0 with walks := [{ job := 1, space := .dram, page := 0x040000000001 }] })) (fun n =>
       n.net == [] && (n.dieAt 0).shoots.length == 1 && (n.dieAt 0).walks.map (·.stale) == [true])) = true := by decide +kernel

theorem meets_DoneEntries_wait : next (exec (.done c0 c0) ((ended 0).modSl fun x => { x with await := .wait 3 0x100000 1 })) (fun n =>
    n.sl.st == .ready && n.ga 3 == 2) = true := by decide +kernel

/-- The team record of job 2, which has no launch record, stands before one that fits. -/
def passedOver : State := let s := queued 1 2 0
  s.setCluster c0 { s.clusterAt c0 with queue := [{ record := task 1, job := 2 }, { record := task 1, job := 1 }] }

theorem meets_TeamsAndBandsArePlaced_passed : passedOver.placeTeams [c0] { record := task 1, job := 2 } = none ∧
    next (exec (.teamPlacement c0) passedOver) (fun n => (n.clusterAt c0).queue == [{ record := task 1, job := 2, passed := 1 }]) = true := by
  decide +kernel

theorem meets_PagesMove_one_at_a_time : (let s := { given with pkg := { given.pkg with locks := [{ job := 7, va := 0, old := 0, new := 0 }] } }
    next (exec (.pageMove 1 0x0400001000000010 0x20000) s) (fun n => n.pkg.locks == s.pkg.locks && n.pkg.pages == s.pkg.pages)) = true := by
  decide +kernel

theorem meets_DiesLeaveService_gone : next (exec (.dieRemap 12 13) { spareTower with pkg := { spareTower.pkg with gone := [13] } })
    (fun n => n.physical 12 == 12 && (n.dieAt 12).draining) = true := by decide +kernel

theorem meets_WindowsAreInstalledAndWithdrawn_waits : (let s := bring exporting { dst := fabricPort 3, src := c0, op := 0x00, addr := 2 ^ 45 + 2 * 2 ^ 36 + 8 }
    s.requestOut (fun f => inWindow 2 f.addr) = true ∧ look 0 (s.windows true) 2 = window - 1 ∧
    next (exec (.windowInvalidate true 2) s) (fun n => n.pkg.pages == s.pkg.pages && n.net.length == 1) = true) := by decide +kernel

/-- SIGLD runs whose page of DRAM is not resident any more (R355). -/
def absentLoad : State :=
  let s := { (engineer.modSl fun x => { x with g := [(1, makeCap 0xC00 0 0 0x0400000012340000 0x4000 0x0400000012340000), (3, Cap.ofWord 1)] }) with
    jobs := (walked 0).jobs }
  let t := after (execMatrixJobStart c0 (after (execSigld { es 1 0 with ga := 1, gb := 7 } (s.modCr fun x => { x with
    tlb := [{ job := 1, space := .dram, va := 0x0400000000000000, shift := 30, entry := 0xC020000040000000 }] }))))
  { t.modCr fun x => { x with tlb := [] } with mem := (walked 0x4400000000000000).mem }

theorem meets_MatrixJobsRun_waits : (match (absentLoad.clusterAt c0).running with
      | some j => (match matrixRun absentLoad j j.total with | .wait _ => true | _ => false)
      | none => false) = true ∧
    next (exec (.matrixJobComplete c0) absentLoad) (fun n => (n.clusterAt c0).running.isSome && n.net == [] &&
      n.pkg.residentRequests == [(1, .dram, 0x040000001234)]) = true := by decide +kernel

/-! ### Clauses at the ends of their ranges -/

theorem meets_BoundsNeverWiden_wide : ∃ t, Issues one (usesG [3] [1, 8]) t ∧
    (next (exec (.csetb 3 1 5) one) (fun n => ((n.g 3).hi.extractLsb' 36 6).toNat == 63 && ((n.g 3).hi.extractLsb' 0 36).toNat == 0 && !(n.g 3).tag) &&
      next (exec (.csetb 3 2 8) one) (fun n => ((n.g 3).hi.extractLsb' 18 18).toNat == 7 && ((n.g 3).hi.extractLsb' 0 18).toNat == 0x11F && !(n.g 3).tag)) = true :=
  meets_ok (by decide)

-- 128 KiB below is beyond what the code capability of the thread can name
theorem meets_BadTargetsTrap_relative : ∃ t, Issues one {} t ∧
    (decide ((evenTarget (t.sl.pc.move (t.sl.pc.addr + 2 * (0x10000 : BitVec 17).signExtend 64))).tag = false) &&
      trapped (exec (.br 0x10000) one) 0x05 0x0400000000010100 0x03FFFFFFFFFF0100 &&
      trapped (exec (.jal 3 0x10000) one) 0x05 0x0400000000010100 0x03FFFFFFFFFF0100) = true := meets_ok (by decide +kernel)

theorem meets_BadTargetsTrap_return : ∃ t, Issues (withThread fun x => { x with g := [(0, Cap.ofWord 7), (1, localCap)] }) (usesG [] [0]) t ∧
    (decide (t.g 0 ≠ { tag := false, hi := 0, addr := 0 }) &&
      trapped (exec (.ret 0) (withThread fun x => { x with g := [(0, Cap.ofWord 7), (1, localCap)] })) 0x05 0x0400000000010100 6 &&
      trapped (exec .cRet (withThread fun x => { x with g := [(0, Cap.ofWord 7), (1, localCap)] })) 0x05 0x0400000000010100 6) = true :=
  meets_ok (by decide +kernel)

/-- A wayfarer whose code capability is not its job's. -/
def strayed : State := one.modSl fun x => { x with wayfarer := true, quota := 0, pc := makeCap 0xA00 0 0 0x0400000000010000 0x800 0x0400000000010100 }

theorem meets_BadTargetsTrap_wayfarer : ∃ t, Issues strayed {} t ∧
    (let c := evenTarget (t.sl.pc.move (t.sl.pc.addr + 2 * (1 : BitVec 17).signExtend 64))
     decide (c.tag = true ∧ t.sl.wayfarer = true ∧ c.hi ≠ t.job.code.hi) &&
      next (exec (.br 1) strayed) fun n => n == t.takeTrap 0x07 t.sl.pc.addr 0x0400000000010102) = true := meets_ok (by decide +kernel)

theorem meets_BadTargetsTrap_taken : ∃ t, Issues strayed (usesG [] [2, 3]) t ∧ (decide (t.ga 2 ≠ t.ga 3) &&
      next (exec (.bccNe 2 3 1) strayed) fun n => n == t.takeTrap 0x07 t.sl.pc.addr 0x0400000000010102) = true := meets_ok (by decide +kernel)

theorem meets_AccessesNeedTheirCapability_ordered : ∃ t, Issues one (usesG [3] [2, 7]) t ∧ (decide (scopeBad (t.ga 7) = false) &&
      trapped (exec (.ldAcq 3 2 7 0) one) 0x05 0x0400000000010100 7 && trapped (exec (.stc 4 2 0) one) 0x05 0x0400000000010100 7 &&
      trapped (exec (.amoAddN64 3 4 2 0 0) one) 0x07 0x0400000000010100 0x0400000000010100) = true := meets_ok (by decide +kernel)

/-- The cluster queue and the die queue of `worker` are full. -/
def brimming : State := (worker.setCluster c0 { worker.clusterAt c0 with queue := List.replicate 64 { record := 0, job := 1 } }).setDie 0
  { worker.dieAt 0 with queue := List.replicate 4096 { record := 0, job := 1 } }

theorem meets_TaskQueues_full : ∃ t, Issues brimming (usesG [3] (four 4)) t ∧
    (decide (64 ≤ (t.clusterAt t.core).queue.length ∧ recShape (t.recordAt 4) ≠ 2) &&
      next (exec (.spawn 3 4 0) brimming) (fun n => n.ga 3 == 0 && n.counters == brimming.counters) &&
      next (exec (.spawn 3 4 1) brimming) fun n => n.ga 3 == 0 && n.counters == brimming.counters) = true := meets_ok (by decide +kernel)

theorem meets_Levels_records : (levelDies (leveled.levelEntry 1)) = [0] ∧ lvlTier (leveled.levelEntry 1) = 0 ∧
    next (exec (.lvlrun 7 2 0 1) leveled) (fun n => (n.dieAt 0).queue.map (fun q => (recParent q.record, q.job, q.level, q.ctr, q.cores.length)) ==
      [(9, 1, some 1, 1, 8)]) = true := by decide +kernel

/-- The thread at system privilege, with an entry of lost property, two links that sleep and one that is narrow. -/
def watching : State := { (system.modSl fun x => { x with g := x.g ++ [(6, Cap.ofWord 0xC000000000000000), (9, Cap.ofWord (-1))] }) with
  dies := [(0, { links := [(1, .narrow), (2, .sleep), (16, .sleep)], linkpwr := 0x0000123400000001 })] }.modCr fun x =>
    { x with msg := { x.msg with lpq := [BitVec.ofNat 512 (0x0001 * 2 ^ 89 + 3 * 2 ^ 82 + 5 * 2 ^ 72), 1], lpqCount := 2 } }

theorem meets_SystemRegisters_privileged : ∃ t, Issues watching (usesG [3] []) t ∧
    (decide (t.sl.priv = true ∧ tier t.core = 0) &&
      next (exec (.srr 3 0x00) watching) (fun n => n.ga 3 == 0x03E8820080000200) &&
      next (exec (.srr 3 0x20) watching) (fun n => n.ga 3 == 0) &&
      next (exec (.srr 3 0x44) watching) (fun n => n.ga 3 == 0) &&
      next (exec (.srr 3 0x45) watching) (fun n => n.ga 3 == 0x8000000200011814 || n.ga 3 == word (2 ^ 63 + 2 ^ 33 + 2 ^ 16 + 3 * 2 ^ 11 + 5 * 2)) &&
      next (exec (.srr 3 0x51) watching) (fun n => n.ga 3 == 0x0000123400010201) &&
      next (exec (.srr 3 0x45) system) fun n => n.ga 3 == 0) = true := meets_ok (by decide +kernel)

theorem meets_SystemRegisters_writes : ∃ t, Issues watching (usesG [] [9]) t ∧
    (decide (t.sl.priv = true ∧ t.sl.wayfarer = false) &&
      next (exec (.srw 9 0x43) watching) (fun n => n.sl.sys.evec == 0xFFFFFFFEFFFFFFFE) &&
      next (exec (.srw 9 0x44) watching) (fun n => n.cr.pgstat == 0xFFFFFFFFFFFF0000) &&
      next (exec (.srw 6 0x45) watching) (fun n => n.cr.msg.lpq == [1] && n.cr.msg.lpqCount == 0) &&
      next (exec (.srw 9 0x51) watching) (fun n => n.ownReg 0x51 == 0x0000FFFF00010202) &&
      next (exec (.srw 9 0x43) one) fun n => n.ga 9 == 0) = true := meets_ok (by decide +kernel)

theorem meets_OwnersRefuseOrHold_all : ((asks 0x04 (.atom .add 2 3) 0x7C00).arriving c1 c0 0x04).isSome = true ∧
    ([(Instr.store c1 c0, 0x01, Payload.bytes (List.replicate 8 5)), (.loadcap c1 c0, 0x02, .none), (.storecap c1 c0, 0x03, .capability (List.replicate 16 5) true),
        (.amo c1 c0, 0x04, .atom .add 8 3), (.cas c1 c0, 0x05, .cas 8 3 4)].all fun p =>
      next (exec p.1 (asks p.2.1 p.2.2 0x7C00)) (fun n => n.net.map (·.pay) == [.fault 0x09 0xF00000007C00] && n.mem == filled.mem) &&
      next (exec p.1 { asks p.2.1 p.2.2 with poison := [key 0x100 / 16] }) fun n => (p.2.1 == 0x01 || p.2.1 == 0x03 ||
        n.net.map (·.pay) == [.fault 0x10 0xF00000000100]) && (n.net.map (·.op) == [0x41] || n.mem == filled.mem)) = true := by decide +kernel

theorem meets_EnginePiecesAtTheirOwner_poison :
    next (exec (.ewrite c1 c0) { asks 0x70 (.engine c1 6 0 4 0x77 [1, 2, 3, 4] none) with poison := [key 0x100 / 16] }) (fun n =>
      n.net.map (·.op) == [0x42] && n.mem == filled.mem) = true := by decide +kernel

/-- Two cores have asked the walkers for one page, and a third for another. -/
def asked : State := { walks 0xC020000040000000 with net := [0x0400000012345678, 0x0400000012340000, 0x0400000012350000].zipIdx.map fun (va, i) =>
  { dst := walkers, src := BitVec.ofNat 16 i, op := 0xC3, tag := i, via := .queue i, pay := .walk 1 .dram va 0 } }

theorem meets_WalksAndTheirReplies_shared : next (exec (.walk c0 walkers) asked) (fun n =>
    n.net.map (fun f => (f.op, f.dst, f.tag)) == [(0xC3, walkers, 2), (0xC4, c0, 0), (0xC4, c1, 1)]) = true := by decide +kernel

theorem meets_RingsRun_parts : (let f (off : Nat) : Flight := { chunkFor 5 with pay := .chunk 0 1 5 true 0 0 off 8 [1, 2, 3, 4] }
    (f 0).malformed = false ∧ next (exec (.chunk (fabricPort 1) (fabricPort 0)) (bring engineer (f 0))) (fun n =>
      (n.ringAt 0).chunks == [] && (n.ringAt 0).part == some (.chunk 0 1 5 true 0 0 0 8 [1, 2, 3, 4]) &&
      next (exec (.chunk (fabricPort 1) (fabricPort 0)) (bring n (f 4))) fun m => (m.ringAt 0).part == none &&
        (m.ringAt 0).chunks == [.chunk 0 1 5 true 0 0 0 8 [1, 2, 3, 4, 1, 2, 3, 4]]) = true) := by decide +kernel

/-- The core has an answer to a steal, with a team or a band record. -/
def robbed (shape : Nat) : State := robbing.modCore c1 fun x => { x with stealReply := [some (task shape)] }

theorem meets_StealsTakeTheOldestRecord_forwarded :
    next (exec (.stealResponse c1) (robbed 1)) (fun n => (n.clusterAt c1).queue.map (·.record) == [task 1] && (n.slotAt c1 1).st == .empty) = true ∧
    next (exec (.stealResponse c1) (robbed 2)) (fun n => (n.dieAt 0).queue.map (·.record) == [task 2] && (n.coreAt c1).stealReply == []) = true := by
  decide +kernel

theorem meets_JobsAreLaunched_placed : next (exec (.jobAccept 4 9) (submitted descriptor)) (fun n =>
      n.pkg.nextJob == 4 && (n.jobAt 3).live && (match n.pageOf 3 0x0400000000010000 with
        | some m => n.readNat m.frame 2 == 0x77
        | none => false) && (n.pageOf 3 0x0400000200000000).isSome && (n.dieAt 0).queue.map (fun q => (recParent q.record, q.job)) ==
          [((n.jobAt 3).counter % 2 ^ 24, 3)]) = true := by decide +kernel

theorem meets_PagesComeAndGo_elsewhere :
    (let s := { given.writeNat 0x10010 1 9 with pkg := { given.pkg with residentRequests := [(1, .dram, 0x40000100000)] } }
     ((s.copyFrame page 0x20000).pteKey page).isSome && paKind 0x20000 == paKind page.frame && paValid 0x10000 &&
     next (exec (.pageResident 1 0x0400001000000010 0x20000 true) s) fun n => n.readNat 0x20010 1 == 9 && n.pkg.pages == [{ page with frame := 0x20000 }] &&
       match n.walk 1 .dram 0x0400001000000010 with | .leaf e _ => pteFrame e == 0x20000 | _ => false) = true := by decide +kernel

theorem meets_PagesMove_entry : (given.copyFrame page 0x20000).pteKey page = given.pteKey page ∧ (given.pteKey page).isSome = true ∧
    next (exec (.pageMove 1 0x0400001000000010 0x20000) given) (fun n => pteFrame (n.entryNow { page with frame := 0x20000 }) == 0x20000) = true := by
  decide +kernel

theorem meets_PeersAccessExportedWindows_refused :
    next (exec (.fabricInboundAccess 0x78 2 0 0x10 0) exporting) (fun n => n.pkg.answers == [(0x78, none)]) = true ∧
    next (exec (.fabricInboundAccess 0x77 3 0 0x10 0) exporting) (fun n => n.pkg.answers == [(0x77, none)]) = true ∧
    next (exec (.fabricInboundAccess 0x77 2 0xFFFF 0x10 0) exporting) (fun n => n.pkg.answers == [(0x77, none)]) = true ∧
    next (exec (.fabricInboundAccess 0x77 2 0 0x10 0) { exporting with poison := [0x1000] }) (fun n => n.pkg.answers == [(0x77, none)]) = true := by
  decide +kernel

theorem meets_BringUpAlarmAndHeat_erased : next (exec (.securityAlarm 1) filled) (fun n => n.keys == 1 && n.mem == filled.mem &&
    n.byteAt (key 0x100) == 0xFE && !n.pkg.identityErased) = true ∧
    next (exec (.securityAlarm 1) ({ filled with tags := [5] })) (fun n => n.tags == []) = true := by decide +kernel

theorem meets_LinksAndRoutes_held : recomputed.mayEnter { dst := c1, src := c0, op := 0x40, via := .source } = false ∧
    one.mayEnter { dst := c1, src := c0, op := 0x40, via := .source } = false := by decide +kernel

theorem meets_PoolsAreKept_partset : next (exec (.partwChange c0) ((repartition.setSlot c0 0 { thread with st := .stalled, await := .room })))
    (fun n => (n.slotAt c0 0).pc.addr == 0x0400000000010104 && (n.slotAt c0 0).st == .ready) = true := by decide +kernel

theorem meets_CoreServices_early : next (exec (.mctpRequest false) { one with pkg := { one.pkg with bringUp := 6 } }) (fun n => n.pkg.sideband == []) = true ∧
    next (exec (.mctpRequest true) { one with pkg := { one.pkg with bringUp := 1, identityErased := true } }) (fun n => n.pkg.sideband == [false]) = true := by
  decide +kernel

end Sys2Proof.Tests
end

section
/-! PROOFS. Fields of a capability's upper half, CSETP and CSETF (R268, R269). -/

namespace Sys2Proof.Machine

/-! ### Bit fields, bit by bit -/

/-- Bit `i` of the field [hi:lo] of a number. -/
theorem testBit_bits (x hi lo i : Nat) :
    (bits x hi lo).testBit i = (decide (i < hi + 1 - lo) && x.testBit (lo + i)) := by
  rw [bits, Nat.testBit_mod_two_pow, Nat.testBit_div_two_pow, Nat.add_comm i lo]

/-- The field [hi:lo] of a word, as a number. -/
theorem bits_toNat {n : Nat} (x : BitVec n) (hi lo : Nat) (h : lo ≤ hi) : bits x.toNat hi lo = (x.extractLsb hi lo).toNat := by
  rw [BitVec.extractLsb_toNat, Nat.shiftRight_eq_div_pow, bits, Nat.sub_add_comm h]

/-- A number is made of its bits above `hi`, its field [hi:lo] and its bits below `lo`. -/
theorem eq_above_field_below (x hi lo : Nat) (h : lo ≤ hi) :
    x = 2 ^ lo * (2 ^ (hi + 1 - lo) * (x / 2 ^ (hi + 1)) + bits x hi lo) + x % 2 ^ lo := by
  have e : x / 2 ^ (hi + 1) = x / 2 ^ lo / 2 ^ (hi + 1 - lo) := by
    rw [Nat.div_div_eq_div_mul, ← Nat.pow_add, Nat.add_sub_cancel' (by omega)]
  rw [e, bits, Nat.div_add_mod, Nat.div_add_mod]

/-- `setField` puts the new field between what stands above and below the old one. -/
theorem setField_eq (u : Word) (hi lo x : Nat) (h : lo ≤ hi) :
    setField u hi lo x =
      word (2 ^ lo * (2 ^ (hi + 1 - lo) * (u.toNat / 2 ^ (hi + 1)) + x % 2 ^ (hi + 1 - lo)) + u.toNat % 2 ^ lo) := by
  have e := eq_above_field_below u.toNat hi lo h
  simp only [setField, at_]
  congr 1
  rw [Nat.mul_add] at e ⊢
  rw [Nat.mul_comm (bits _ _ _), Nat.mul_comm (x % _)]
  omega

/-- Bit by bit: the field [hi:lo] is the new one, every other bit the old. -/
theorem getLsbD_setField (u : Word) (hi lo x i : Nat) (h : lo ≤ hi) (hi' : hi < 64) :
    (setField u hi lo x).getLsbD i = if lo ≤ i ∧ i ≤ hi then x.testBit (i - lo) else u.getLsbD i := by
  rw [setField_eq u hi lo x h, word, BitVec.getLsbD_ofNat, Nat.testBit_two_pow_mul_add _ (Nat.mod_lt _ (by positivity)),
    Nat.testBit_two_pow_mul_add _ (Nat.mod_lt _ (by positivity)), Nat.testBit_mod_two_pow, Nat.testBit_mod_two_pow,
    Nat.testBit_div_two_pow, BitVec.testBit_toNat, BitVec.testBit_toNat]
  by_cases hl : i < lo
  · simp [hl, show i < 64 by omega, show ¬ lo ≤ i by omega]
  · by_cases hm : i ≤ hi
    · simp [hl, hm, show i < 64 by omega, show lo ≤ i by omega, show i - lo < hi + 1 - lo by omega]
    · have hp : i - lo - (hi + 1 - lo) + (hi + 1) = i := by omega
      have hw : 64 ≤ i → u.getLsbD i = false := fun g => BitVec.getLsbD_of_ge u i g
      simp only [hl, hm, show ¬ i - lo < hi + 1 - lo by omega, if_false, and_false, hp]
      by_cases g : i < 64
      · simp [g]
      · simp [g, hw (by omega)]

/-- The field that `setField` wrote. -/
theorem extractLsb_setField_same (u : Word) (hi lo x : Nat) (h : lo ≤ hi) (hi' : hi < 64) :
    (setField u hi lo x).extractLsb hi lo = BitVec.ofNat _ x := by
  apply BitVec.eq_of_getLsbD_eq
  intro i hb
  rw [BitVec.getLsbD_extractLsb, getLsbD_setField u hi lo x _ h hi', BitVec.getLsbD_ofNat, if_pos (by omega), Nat.add_sub_cancel_left]

/-- A field above or below the one that `setField` wrote. -/
theorem extractLsb_setField_other (u : Word) (hi lo x a b : Nat) (h : lo ≤ hi) (hi' : hi < 64) (hb : b ≤ a)
    (ho : a < lo ∨ hi < b) : (setField u hi lo x).extractLsb a b = u.extractLsb a b := by
  apply BitVec.eq_of_getLsbD_eq
  intro i hi
  simp only [BitVec.getLsbD_extractLsb, getLsbD_setField u _ lo x _ h hi']
  rw [if_neg (by omega)]

/-- A field of a word, as a number and back. -/
theorem ofNat_bits {n : Nat} (x : BitVec n) (hi lo : Nat) (h : lo ≤ hi) :
    BitVec.ofNat (hi - lo + 1) (bits x.toNat hi lo) = x.extractLsb hi lo := by
  rw [bits_toNat x hi lo h, BitVec.ofNat_toNat, BitVec.setWidth_eq]

/-! ### CSETP and CSETF on a capability (R268, R269) -/

/-- CSETP intersects PERM with the mask and clears its two lowest bits. -/
theorem setPerm_perm (c : Cap) (m : Word) :
    (c.setPerm m).hi.extractLsb 63 52 = (c.hi.extractLsb 63 52 &&& m.setWidth 12 &&& 0xFFC) := by
  have low : ∀ i < 12, (0xFFC : BitVec (63 - 52 + 1)).getLsbD i = decide (2 ≤ i) := by decide
  rw [Cap.setPerm, extractLsb_setField_same _ _ _ _ (by decide) (by decide)]
  apply BitVec.eq_of_getLsbD_eq
  intro i hi
  rw [BitVec.getLsbD_ofNat, Nat.testBit_mul_two_pow _ i 2, testBit_bits, Nat.testBit_and, Cap.perm, testBit_bits,
    BitVec.testBit_toNat, BitVec.testBit_toNat, BitVec.getLsbD_and, BitVec.getLsbD_and, BitVec.getLsbD_extractLsb,
    BitVec.getLsbD_setWidth, low i hi]
  by_cases h : 2 ≤ i
  · simp [h, hi, show i - 2 < 11 + 1 - 2 by omega, show 2 + (i - 2) = i by omega]
  · simp [h]

/-- CSETP keeps the tag of a tagged and unsealed source. -/
theorem setPerm_tag (c : Cap) (m : Word) : (c.setPerm m).tag = true ↔ c.tag = true ∧ c.isSealed = false := by
  simp [Cap.setPerm]

/-- CSETP keeps every field below PERM. -/
theorem setPerm_below (c : Cap) (m : Word) : (c.setPerm m).hi.extractLsb 51 0 = c.hi.extractLsb 51 0 :=
  extractLsb_setField_other _ _ _ _ _ _ (by decide) (by decide) (by decide) (by decide)

/-- CSETF keeps what does not lie in [51:42]. -/
theorem setFormat_outside (c : Cap) (m : Word) (a b : Nat) (h : b ≤ a) (ho : a < 42 ∨ 51 < b) :
    (c.setFormat m).hi.extractLsb a b = c.hi.extractLsb a b := by
  simp (disch := omega) only [Cap.setFormat, extractLsb_setField_other]

/-- CSETF takes FMT, BLK and CLS from their places in the operand. -/
theorem setFormat_inside (c : Cap) (m : Word) :
    (c.setFormat m).hi.extractLsb 51 47 = m.extractLsb 12 8 ∧ (c.setFormat m).hi.extractLsb 46 44 = m.extractLsb 6 4 ∧
      (c.setFormat m).hi.extractLsb 43 42 = m.extractLsb 1 0 := by
  simp (disch := decide) only [Cap.setFormat, extractLsb_setField_other, extractLsb_setField_same]
  exact ⟨ofNat_bits m 12 8 (by decide), ofNat_bits m 6 4 (by decide), ofNat_bits m 1 0 (by decide)⟩

/-- The format and the class that CSETF writes, as numbers. -/
theorem setFormat_numbers (c : Cap) (m : Word) : (c.setFormat m).fmt = bits m.toNat 12 8 ∧
    (c.setFormat m).blk = bits m.toNat 6 4 ∧ (c.setFormat m).cls = bits m.toNat 1 0 := by
  obtain ⟨hf, hb, hc⟩ := setFormat_inside c m
  simp (disch := decide) only [Cap.fmt, Cap.blk, Cap.cls, bits_toNat, hf, hb, hc]
  trivial

/-- CSETF keeps the tag of a tagged and unsealed source, for a valid format and a class that was 0 or is not changed. -/
theorem setFormat_tag (c : Cap) (m : Word) : (c.setFormat m).tag = true ↔ c.tag = true ∧ c.isSealed = false ∧
    formatValid (c.setFormat m).fmt (c.setFormat m).blk = true ∧ (c.cls = 0 ∨ (c.setFormat m).cls = c.cls) := by
  obtain ⟨hf, hb, hc⟩ := setFormat_numbers c m
  rw [hf, hb, hc, eq_comm (a := bits m.toNat 1 0)]
  simp [Cap.setFormat, and_assoc]

end Sys2Proof.Machine
end

section
/-! PROOFS. The bytes of a word decode to its instruction (R211, R214). -/

namespace Sys2Proof.Laws

open Sys2Proof.Machine

/-! ### The bytes of a word, and the word of bytes (R7, R211) -/

theorem parcel_halves (p : BitVec 16) : parcel (p.extractLsb' 0 8) (p.extractLsb' 8 8) = p := by
  rw [parcel, BitVec.extractLsb'_append_extractLsb'_eq_extractLsb' (by decide), BitVec.extractLsb'_eq_self]

/-- A field of a field. -/
theorem extractLsb'_extractLsb'_add {n : Nat} (x : BitVec n) (a l b k : Nat) (h : b + k ≤ l) :
    (x.extractLsb' a l).extractLsb' b k = x.extractLsb' (a + b) k := by
  apply BitVec.eq_of_getLsbD_eq
  intro i hi
  simp only [BitVec.getLsbD_extractLsb', show b + i < l by omega, decide_true, Bool.true_and, Nat.add_assoc]

/-- The length that the top bits of a parcel give (R211). -/
theorem parcelLength_four {p : BitVec 16} (h : (p.extractLsb' 14 2).toNat = 3) (h' : (p.extractLsb' 12 2).toNat < 3) :
    parcelLength p = 4 := by
  have hp : (p.extractLsb' 12 4).toNat < 15 := by
    simp only [BitVec.extractLsb'_toNat, Nat.shiftRight_eq_div_pow] at h' ⊢
    omega
  rw [parcelLength, if_neg (by omega), if_pos hp]

theorem parcelLength_ten {p : BitVec 16} (h : (p.extractLsb' 12 4).toNat = 15) : parcelLength p = 10 := by
  have hp : (p.extractLsb' 14 2).toNat = 3 := by
    simp only [BitVec.extractLsb'_toNat, Nat.shiftRight_eq_div_pow] at h ⊢
    omega
  rw [parcelLength, if_neg (by omega), if_neg (by omega)]

/-- Decoding takes the bytes of a word that marks its own length, and leaves what follows. -/
theorem decodeBytes_bytes (e : Encoding) (h : lengthMarked e) (rest : List Byte) :
    decodeBytes (e.bytes ++ rest) = (decodeEncoding e).map (·, rest) := by
  cases e with
  | w16 w =>
    have hl : parcelLength w = 2 := if_pos h
    simp only [Encoding.bytes, parcelBytes, List.cons_append, List.nil_append, decodeBytes, parcel_halves, hl, decodeEncoding]
  | w32 w =>
    obtain ⟨h3, hm⟩ := h
    have hl : parcelLength (w.extractLsb' 16 16) = 4 := by
      apply parcelLength_four <;> rw [extractLsb'_extractLsb'_add _ _ _ _ _ (by decide)]
      · exact h3
      · exact hm
    have hw : w.extractLsb' 16 16 ++ w.extractLsb' 0 16 = w := BitVec.extractLsb'_append_extractLsb'
    simp only [Encoding.bytes, parcelBytes, List.cons_append, List.nil_append, decodeBytes, parcel_halves, hl, decodeEncoding, hw]
  | w80 w =>
    have hl : parcelLength (w.extractLsb' 64 16) = 10 :=
      parcelLength_ten (by rw [extractLsb'_extractLsb'_add _ _ _ _ _ (by decide)]; exact h)
    have hw : w.extractLsb' 64 16 ++ w.extractLsb' 48 16 ++ w.extractLsb' 32 16 ++ w.extractLsb' 16 16 ++ w.extractLsb' 0 16 = w := by
      repeat rw [BitVec.extractLsb'_append_extractLsb'_eq_extractLsb' (by decide)]
      exact BitVec.extractLsb'_eq_self
    simp only [Encoding.bytes, parcelBytes, List.cons_append, List.nil_append, decodeBytes, parcel_halves, hl, decodeEncoding, hw]

/-- The bytes of a well-formed instruction's word decode to it. -/
theorem decodeBytes_of_statement {i : Instr} (hs : RoundTrip.Statement i) (hw : i.wellFormed = true) {e : Encoding}
    (he : encode i = some e) (rest : List Byte) : decodeBytes (e.bytes ++ rest) = .ok (i, rest) := by
  obtain ⟨hd, hl⟩ := hs hw e he
  rw [decodeBytes_bytes e hl, hd]
  rfl

/-- The two bytes of a number are those of the parcel it is. -/
theorem leBytes_two (n : Nat) : leBytes 2 n = parcelBytes (BitVec.ofNat 16 n) := by
  have hlo : BitVec.ofNat 8 n = (BitVec.ofNat 16 n).extractLsb' 0 8 := by
    apply BitVec.eq_of_toNat_eq
    simp only [BitVec.toNat_ofNat, BitVec.extractLsb'_toNat, Nat.shiftRight_eq_div_pow]
    omega
  have hhi : BitVec.ofNat 8 (n / 256) = (BitVec.ofNat 16 n).extractLsb' 8 8 := by
    apply BitVec.eq_of_toNat_eq
    simp only [BitVec.toNat_ofNat, BitVec.extractLsb'_toNat, Nat.shiftRight_eq_div_pow]
    omega
  rw [leBytes, leBytes, leBytes, hlo, hhi, parcelBytes]

/-- A 32-bit word as a number. -/
theorem word32_toNat (m : BitVec 2) (j : BitVec 6) (d a b : BitVec 5) (f : BitVec 7) : (word32 m j d a b f).toNat =
    3 * 2 ^ 30 + m.toNat * 2 ^ 28 + j.toNat * 2 ^ 22 + d.toNat * 2 ^ 17 + a.toNat * 2 ^ 12 + b.toNat * 2 ^ 7 + f.toNat := by
  have hm := m.isLt
  have hj := j.isLt
  have hd := d.isLt
  have ha := a.isLt
  have hb := b.isLt
  have hf := f.isLt
  simp only [word32, BitVec.toNat_append, BitVec.toNat_ofNat]
  repeat rw [← Nat.shiftLeft_add_eq_or_of_lt (by assumption)]
  simp only [Nat.shiftLeft_eq]
  omega

/-- The two parcels of a map 0 word with fn zero (R214). -/
theorem bytes_word32_map0 (j : BitVec 6) (d a b : GReg) : (Encoding.w32 (word32 0 j d a b 0)).bytes =
    leBytes 2 (0xC000 + 64 * j.toNat + 2 * d.toNat + a.toNat / 16) ++ leBytes 2 (4096 * (a.toNat % 16) + 128 * b.toNat) := by
  have hw : (word32 0 j d a b 0).toNat = 3 * 2 ^ 30 + j.toNat * 2 ^ 22 + d.toNat * 2 ^ 17 + a.toNat * 2 ^ 12 + b.toNat * 2 ^ 7 := by
    simp [word32_toNat]
  have hj := j.isLt
  have hd := d.isLt
  have ha := a.isLt
  have hb := b.isLt
  rw [leBytes_two, leBytes_two, Encoding.bytes]
  congr 2 <;>
  · apply BitVec.eq_of_toNat_eq
    simp only [BitVec.toNat_ofNat, BitVec.extractLsb'_toNat, Nat.shiftRight_eq_div_pow, hw]
    omega

end Sys2Proof.Laws
end

section
/-! PROOFS. CSETP and CSETF as instructions (R268, R269). -/

namespace Sys2Proof.Machine

/-! ### An instruction that forms a capability from two registers -/

/-- It retires with that capability in its destination. -/
theorem capOp2_retires {d a b : GReg} {s t : State} (h : Issues s (usesG [d] [a, b]) t) (f : Cap → Word → Cap) :
    ∃ n, capOp2 f d a b s = .next n ∧ Retired 4 [d] t n ∧ n.g d = f (t.g a) (t.ga b) := by
  obtain ⟨hr, hg⟩ := retired_setG t d (f (t.g a) (t.ga b)) 4 (usesG [d] [a, b]) none
  exact ⟨_, issue_of_issues h 4 _, hr, hg⟩

theorem exec_csetp (d a b : GReg) (s : State) : exec (.csetp d a b) s = capOp2 Cap.setPerm d a b s := rfl

theorem exec_csetf (d a b : GReg) (s : State) : exec (.csetf d a b) s = capOp2 Cap.setFormat d a b s := rfl

end Sys2Proof.Machine

namespace Sys2Proof.Laws

open Sys2Proof.Machine

/-- Settles O14: CSETP and CSETF each write one capability, whose fields and tag are those of `Cap.setPerm` and
`Cap.setFormat`; their words are those of map 0. -/
theorem permissionAndFormat : Obligations.PermissionAndFormat := by
  refine ⟨fun d a b s t h => ⟨?_, ?_⟩, fun d a b p hp => ?_⟩
  · obtain ⟨n, hn, hr, hg⟩ := capOp2_retires h Cap.setPerm
    refine ⟨n, hn, hr, ?_⟩
    rw [hg]
    exact ⟨rfl, setPerm_perm _ _, setPerm_below _ _, setPerm_tag _ _⟩
  · obtain ⟨n, hn, hr, hg⟩ := capOp2_retires h Cap.setFormat
    obtain ⟨hf, hb, hc⟩ := setFormat_inside (t.g a) (t.ga b)
    refine ⟨n, hn, hr, ?_⟩
    rw [hg]
    exact ⟨rfl, setFormat_outside _ _ 63 52 (by decide) (by decide), setFormat_outside _ _ 41 0 (by decide) (by decide),
      hf, hb, hc, setFormat_tag _ _⟩
  · obtain rfl | rfl : p = (0x2D, .csetp d a b) ∨ p = (0x2E, .csetf d a b) := by simpa using hp
    · exact bytes_word32_map0 45 d a b ▸ decodeBytes_of_statement (RoundTrip.csetp d a b) rfl rfl []
    · exact bytes_word32_map0 46 d a b ▸ decodeBytes_of_statement (RoundTrip.csetf d a b) rfl rfl []

end Sys2Proof.Laws
end

section
/-! PROOFS. What IssueCheck lands, and what a landing leaves in the g registers (R220). -/

namespace Sys2Proof.Machine

/-! ### What a landing writes to the g registers (R220) -/

/-- Slots changed without their g registers leave those of the issuing thread. -/
theorem g_modSlot (s : State) (c : Coord) (i : Nat) (f : Slot → Slot) (hf : ∀ y, (f y).g = y.g) (r : GReg) :
    (s.modSlot c i f).g r = s.g r := by
  have hs : ((s.modSlot c i f).slotAt s.core s.slot).g = (s.slotAt s.core s.slot).g := by
    by_cases hc : s.core = c
    · by_cases hi : s.slot = i
      · subst hc hi
        rw [State.modSlot, slotAt_setSlot, hf]
      · subst hc
        rw [State.modSlot, slotAt_setSlot_other _ _ _ _ _ hi]
    · rw [State.slotAt, State.modSlot, coreAt_setSlot_other _ _ _ _ _ hc]
      rfl
  exact congrArg (look {} · r.toNat) hs

theorem g_modSl (s : State) (f : Slot → Slot) (hf : ∀ y, (f y).g = y.g) (r : GReg) : (s.modSl f).g r = s.g r := by
  rw [State.g, sl_modSl, hf, State.g]

/-- A member value written to lanes leaves the g registers. -/
theorem g_writeMembers {α : Type} (s : State) (f : Slot → α → Slot) (l : List α) (hf : ∀ y x, (f y x).g = y.g) (r : GReg) :
    (s.writeMembers f l).g r = s.g r := by
  suffices h : ∀ (l : List (α × Nat)) (t : State),
      (l.foldl (fun t (x, i) => t.modSlot (gangMember s.core i) s.slot fun y => f y x) t).g r = t.g r from h _ s
  intro l
  induction l with
  | nil => exact fun _ => rfl
  | cons e l ih => exact fun t => (ih _).trans (g_modSlot t _ _ _ (fun y => hf y e.1) r)

theorem g_setVec (s : State) (j : Nat) (l : List VReg) (bare : List (Nat × Nat)) (r : GReg) : (s.setVec j l bare).g r = s.g r :=
  g_writeMembers s (fun y x => { y with v := put y.v j x }) l (fun _ _ => rfl) r

theorem g_setPred (s : State) (j : Nat) (l : List (BitVec 16)) (r : GReg) : (s.setPred j l).g r = s.g r := by
  rw [State.setPred]
  split
  · rfl
  · exact g_writeMembers s (fun y x => { y with k := put y.k j x }) l (fun _ _ => rfl) r

/-- Updates that each leave a g register leave it together. -/
theorem g_foldl {α : Type} (f : State → α → State) (r : GReg) (hf : ∀ t x, (f t x).g r = t.g r) (l : List α) (s : State) :
    (l.foldl f s).g r = s.g r := by
  induction l generalizing s with
  | nil => rfl
  | cons x l ih => exact (ih _).trans (hf s x)

/-- A landing writes to the g registers what it names of them, in turn. -/
theorem g_land (s : State) (p : Producer) (r : GReg) : (s.land p).g r =
    (p.gs.foldl (fun t e => t.setG (BitVec.ofNat 5 e.1) e.2) (p.vs.foldl (fun t e => t.setVec e.1 e.2 p.bare) s)).g r := by
  have hf (t : State) (l : List Nat) (a b : List (Nat × Nat)) : (t.fileWrites l a b).g r = t.g r := by
    obtain ⟨q, hq⟩ := fileWrites_only t l a b
    rw [hq]
    rfl
  rw [State.land, g_modSl _ _ (fun _ => by rfl), hf, g_foldl _ r (fun t e => g_setPred t e.1 e.2 r) p.ks]

/-- Writes of other g registers leave a g register. -/
theorem g_foldl_setG_other (l : List (Nat × Cap)) (s : State) (r : GReg) (h : ∀ e ∈ l, BitVec.ofNat 5 e.1 ≠ r) :
    (l.foldl (fun t e => t.setG (BitVec.ofNat 5 e.1) e.2) s).g r = s.g r := by
  induction l generalizing s with
  | nil => rfl
  | cons e l ih =>
    obtain ⟨he, hl⟩ := List.forall_mem_cons.mp h
    rw [List.foldl_cons, ih _ hl, g_setG_other s _ r _ he.symm]

theorem g_foldl_setVec (l : List (Nat × List VReg)) (b : List (Nat × Nat)) (s : State) (r : GReg) :
    (l.foldl (fun t e => t.setVec e.1 e.2 b) s).g r = s.g r := by
  apply g_foldl
  intro t e
  rw [g_setVec]

/-- A landing that does not name a g register leaves it. -/
theorem g_land_other (s : State) (p : Producer) (r : GReg) (h : ∀ e ∈ p.gs, BitVec.ofNat 5 e.1 ≠ r) :
    (s.land p).g r = s.g r := by
  rw [g_land, g_foldl_setG_other _ _ _ h, g_foldl_setVec]

/-- A result for one g register lands in it. -/
theorem g_land_single (s : State) (p : Producer) (d : GReg) (c : Cap) (h : p.gs = [(d.toNat, c)]) : (s.land p).g d = c := by
  simp [g_land, h]

/-- Landings that do not name a g register leave it. -/
theorem g_landAll_other (s : State) (l : List Producer) (r : GReg) (h : ∀ p ∈ l, ∀ e ∈ p.gs, BitVec.ofNat 5 e.1 ≠ r) :
    (s.landAll l).g r = s.g r := by
  induction l generalizing s with
  | nil => rfl
  | cons p l ih =>
    obtain ⟨hp, hl⟩ := List.forall_mem_cons.mp h
    rw [State.landAll, List.foldl_cons, ← State.landAll, ih _ hl, g_land_other s p r hp]

/-- What lands last of the results that name a g register stands in it. -/
theorem g_landAll_append_cons (s : State) (l m : List Producer) (p : Producer) (d : GReg) (c : Cap) (hp : p.gs = [(d.toNat, c)])
    (hm : ∀ q ∈ m, ∀ e ∈ q.gs, BitVec.ofNat 5 e.1 ≠ d) : (s.landAll (l ++ p :: m)).g d = c := by
  have e : s.landAll (l ++ p :: m) = ((s.landAll l).land p).landAll m := by
    simp only [State.landAll, List.foldl_append, List.foldl_cons]
  rw [e, g_landAll_other _ _ _ hm, g_land_single _ _ _ _ hp]

/-! ### What IssueCheck lands and what it leaves unlanded (R220) -/

/-- What the scan leaves unlanded was unlanded before, and the instruction does not write it. -/
theorem issueScan_kept {u : Uses} {haz l k : List Producer} (h : issueScan u haz = some (l, k)) :
    ∀ q ∈ k, q ∈ haz ∧ u.writes q = false := by
  induction haz generalizing l k with
  | nil =>
    obtain ⟨-, rfl⟩ : l = [] ∧ k = [] := by simpa [issueScan, eq_comm] using h
    simp
  | cons p r ih =>
    cases e : issueScan u r with
    | none => simp [issueScan, e] at h
    | some x =>
      have hk : k = x.2 ∨ (u.writes p = false ∧ k = p :: x.2) := by
        grind [issueScan]
      have hx := ih e
      grind

/-- The scan lands a result that does not park and whose window is closed after those that were there before it. -/
theorem issueScan_append_closed (u : Uses) (haz : List Producer) (p : Producer) (h0 : p.rem = 0) (hp : p.pk = false) :
    issueScan u (haz ++ [p]) = (issueScan u haz).map fun x => (x.1 ++ [p], x.2) := by
  induction haz with
  | nil => simp [issueScan, h0, hp]
  | cons q r ih =>
    simp only [List.cons_append, issueScan, ih]
    grind

theorem mem_of_mem_dropFirst {α : Type} {p : α → Bool} {l : List α} {x : α} (h : x ∈ dropFirst p l) : x ∈ l := by
  induction l with
  | nil => exact h
  | cons y r ih => grind [dropFirst]

/-- The limit of R220 lands at most a parked result more. -/
theorem issueLimit_cases {u : Uses} {x y : List Producer × List Producer} (h : issueLimit u x = some y) :
    ∃ m, y.1 = x.1 ++ m ∧ (∀ q ∈ m, q ∈ x.2) ∧ ∀ q ∈ y.2, q ∈ x.2 := by
  have same (e : x = y) : ∃ m, y.1 = x.1 ++ m ∧ (∀ q ∈ m, q ∈ x.2) ∧ ∀ q ∈ y.2, q ∈ x.2 :=
    ⟨[], by simp [e], by simp, by simp [e]⟩
  rw [issueLimit] at h
  split at h
  · split at h
    · exact same (Option.some.inj h)
    · split at h
      next p hp =>
        obtain rfl := Option.some.inj h
        exact ⟨[p], rfl, by simpa using List.mem_of_find?_eq_some hp, fun q hq => mem_of_mem_dropFirst hq⟩
      next => exact absurd h (by simp)
  · exact same (Option.some.inj h)

/-- Beside what the scan lands, IssueCheck lands and leaves only what the scan left unlanded. -/
theorem issueCheck_cases {u : Uses} {haz l k : List Producer} (h : issueCheck u haz = some (l, k)) :
    ∃ x m, issueScan u haz = some x ∧ l = x.1 ++ m ∧ (∀ q ∈ m, q ∈ x.2) ∧ ∀ q ∈ k, q ∈ x.2 := by
  rw [issueCheck] at h
  split at h
  · exact absurd h (by simp)
  next x hx =>
    split at h
    · exact absurd h (by simp)
    next l' k' hy =>
      obtain ⟨m, hl, hm, hk⟩ := issueLimit_cases hy
      obtain rfl : l' = x.1 ++ m := hl
      refine ⟨x, ?_⟩
      split at h
      · obtain ⟨rfl, rfl⟩ := Prod.mk.inj (Option.some.inj h)
        refine ⟨m ++ k', hx, List.append_assoc .., ?_, by simp⟩
        intro q hq
        exact (List.mem_append.mp hq).elim (hm q) (hk q)
      · obtain ⟨rfl, rfl⟩ := Prod.mk.inj (Option.some.inj h)
        exact ⟨m, hx, rfl, hm, hk⟩

/-- An instruction does not write what it leaves unlanded. -/
theorem issueCheck_kept {u : Uses} {haz l k : List Producer} (h : issueCheck u haz = some (l, k)) :
    ∀ q ∈ k, u.writes q = false := by
  obtain ⟨x, m, hx, -, -, hk⟩ := issueCheck_cases h
  exact fun q hq => (issueScan_kept hx q (hk q hq)).2

/-- A result that does not park and whose window is closed lands at the next check, and after it only what was unlanded
before it. -/
theorem issueCheck_append_closed {u : Uses} {haz l k : List Producer} {p : Producer} (h0 : p.rem = 0) (hp : p.pk = false)
    (h : issueCheck u (haz ++ [p]) = some (l, k)) : ∃ l' m, l = l' ++ p :: m ∧ ∀ q ∈ m, q ∈ haz := by
  obtain ⟨x, m, hx, rfl, hm, -⟩ := issueCheck_cases h
  rw [issueScan_append_closed u haz p h0 hp] at hx
  obtain ⟨y, hy, rfl⟩ := Option.map_eq_some_iff.mp hx
  exact ⟨y.1, m, List.append_assoc .., fun q hq => (issueScan_kept hy q (hm q hq)).1⟩

end Sys2Proof.Machine
end

section
/-! PROOFS. LI.W and its landing (R265). -/

namespace Sys2Proof.Machine

/-! ### LI.W and the instruction after it -/

/-- The check of an instruction that issues at `s` leaves the unlanded results of `t`; the g registers of `t` are those after
what it lands. -/
theorem Issues.check {s t : State} {u : Uses} (h : Issues s u t) :
    ∃ l, issueCheck u s.sl.haz = some (l, t.sl.haz) ∧ ∀ r, t.g r = (s.landAll l).g r := by
  obtain ⟨l, k, hc, -, rfl⟩ := h.lands
  refine ⟨l, by rw [hc, sl_modSl], fun r => g_modSl _ _ (fun _ => ?_) r⟩
  rfl

/-- The result that LI.W leaves to land: producer distance 0, PK = 0. -/
def longImmediate (d : GReg) (x : Word) : Producer := { rem := 0, pk := false, gs := [(d.toNat, Cap.ofWord x)] }

/-- LI.W retires and leaves its result as the youngest of those unlanded; the windows of the others are one shorter. -/
theorem liW_retires {d : GReg} {s t : State} (h : Issues s { gw := [d.toNat], prod := some (0, false) } t) (x : Word) :
    ∃ n, exec (.liW d x) s = .next n ∧ Retired 10 [] t n ∧
      n.sl.haz = (t.sl.haz.map fun q => { q with rem := q.rem - 1 }) ++ [longImmediate d x] := by
  refine ⟨_, issue_of_issues h 10 _, retired_plain t 10 _ _, ?_⟩
  simp [settle, State.retire, retireSlot, longImmediate]

/-- A result that stays unlanded while an instruction which writes g register `d` issues does not name `d`, when it names
registers that there are. -/
theorem ofNat_ne_of_not_writes {d : GReg} {u : Uses} {q : Producer} (hd : d.toNat ∈ u.gw) (h : u.writes q = false)
    (hr : ∀ e ∈ q.gs, e.1 < 32) : ∀ e ∈ q.gs, BitVec.ofNat 5 e.1 ≠ d := by
  rintro e he rfl
  have hg : u.gw.contains e.1 = false := by
    simp only [Uses.writes, Bool.or_eq_false_iff, List.any_eq_false] at h
    simpa using h.1.2 e he
  rw [BitVec.toNat_ofNat, Nat.mod_eq_of_lt (hr e he)] at hd
  simp [hd] at hg

/-- Whatever issues next, the immediate stands in its register then. -/
theorem longImmediate_lands {d : GReg} {x : Word} {n v : State} {u : Uses} {haz : List Producer} (h : Issues n u v)
    (hn : n.sl.haz = haz ++ [longImmediate d x]) (hr : ∀ q ∈ haz, ∀ e ∈ q.gs, BitVec.ofNat 5 e.1 ≠ d) :
    v.g d = Cap.ofWord x := by
  obtain ⟨l, hc, hg⟩ := h.check
  rw [hn] at hc
  obtain ⟨l', m, rfl, hm⟩ := issueCheck_append_closed rfl rfl hc
  rw [hg, g_landAll_append_cons n l' m _ d (Cap.ofWord x) rfl fun q hq => hr q (hm q hq)]

/-- Where nothing else is unlanded, the immediate alone lands, and no other register changes. -/
theorem longImmediate_lands_alone {d : GReg} {x : Word} {n v : State} {u : Uses} (h : Issues n u v)
    (hn : n.sl.haz = [longImmediate d x]) : v.sl.haz = [] ∧ ∀ r, r ≠ d → v.g r = n.g r := by
  obtain ⟨l, hc, hg⟩ := h.check
  rw [hn] at hc
  obtain ⟨y, m, hy, rfl, hm, hk⟩ := issueCheck_cases hc
  obtain rfl : y = ([longImmediate d x], []) := by simpa [issueScan, longImmediate, eq_comm] using hy
  obtain rfl : m = [] := List.eq_nil_iff_forall_not_mem.mpr fun q hq => by simpa using hm q hq
  refine ⟨List.eq_nil_iff_forall_not_mem.mpr fun q hq => by simpa using hk q hq, fun r hr => ?_⟩
  rw [hg, g_landAll_other]
  simpa [longImmediate] using hr.symm

/-- R265 at every state whose unlanded results name g registers that there are, g0 to g31: LI.W leaves its result unlanded,
and the next instruction to issue finds it landed. `not_longImmediateLandsNext` shows why the numbers are bounded here. -/
theorem liW_lands_next {d : GReg} {s t : State} (h : Issues s { gw := [d.toNat], prod := some (0, false) } t) (x : Word)
    (hr : ∀ q ∈ t.sl.haz, ∀ e ∈ q.gs, e.1 < 32) :
    ∃ n, exec (.liW d x) s = .next n ∧ Retired 10 [] t n ∧
      (∃ p, n.sl.haz.getLast? = some p ∧ p.rem = 0 ∧ p.pk = false ∧ p.gs = [(d.toNat, Cap.ofWord x)]) ∧
      ∀ (u : Uses) (v : State), Issues n u v → v.g d = Cap.ofWord x ∧
        (t.sl.haz = [] → v.sl.haz = [] ∧ ∀ r, r ≠ d → v.g r = t.g r) := by
  obtain ⟨n, hn, hret, hhaz⟩ := liW_retires h x
  obtain ⟨l, hc, -⟩ := h.check
  refine ⟨n, hn, hret, ⟨longImmediate d x, by simp [hhaz], rfl, rfl, rfl⟩, fun u v hv => ⟨?_, fun he => ?_⟩⟩
  · refine longImmediate_lands hv hhaz fun q hq => ?_
    obtain ⟨p, hp, rfl⟩ := List.mem_map.mp hq
    exact ofNat_ne_of_not_writes (by simp) (issueCheck_kept hc p hp) (hr p hp)
  · obtain ⟨hnone, hother⟩ := longImmediate_lands_alone hv (by rw [hhaz, he]; rfl)
    exact ⟨hnone, fun r hd => (hother r hd).trans (hret.others r (by simp))⟩

end Sys2Proof.Machine

namespace Sys2Proof.Laws

open Sys2Proof.Machine

/-- The first parcel of LI.W holds its register (R217). -/
theorem liW_first_parcel (d : GReg) (x : Word) :
    (15#4 ++ 0x7E#7 ++ d ++ x).extractLsb' 64 16 = BitVec.ofNat 16 (0xFFC0 + d.toNat) := by
  rw [BitVec.extractLsb'_append_eq_of_le (by decide)]
  clear x
  revert d
  decide

/-- A parcel below it is a part of the immediate. -/
theorem liW_further_parcel (d : GReg) (x : Word) (k : Nat) (h : k + 16 ≤ 64) :
    (15#4 ++ 0x7E#7 ++ d ++ x).extractLsb' k 16 = BitVec.ofNat 16 (x.toNat / 2 ^ k % 2 ^ 16) := by
  rw [BitVec.extractLsb'_append_eq_of_add_le h]
  apply BitVec.eq_of_toNat_eq
  rw [BitVec.extractLsb'_toNat, BitVec.toNat_ofNat, Nat.mod_mod, Nat.shiftRight_eq_div_pow]

/-- The five parcels of LI.W (R217). -/
theorem bytes_liW (d : GReg) (x : Word) : (Encoding.w80 (15#4 ++ 0x7E#7 ++ d ++ x)).bytes = leBytes 2 (0xFFC0 + d.toNat) ++
    (List.range 4).flatMap fun i => leBytes 2 (x.toNat / 2 ^ (48 - 16 * i) % 2 ^ 16) := by
  simp only [leBytes_two, ← liW_first_parcel d x]
  have hi (i : Nat) : BitVec.ofNat 16 (x.toNat / 2 ^ (48 - 16 * i) % 2 ^ 16) =
      (15#4 ++ 0x7E#7 ++ d ++ x).extractLsb' (48 - 16 * i) 16 := (liW_further_parcel d x _ (by omega)).symm
  simp only [hi]
  rfl

/-- A state that `liW_lands_next` speaks of, in which another result is still in its window when LI.W issues. -/
theorem meets_liW_lands_next : ∃ t, Issues (Tests.withThread fun y => { y with haz := [{ rem := 2, pk := false, gs := [(3, Cap.ofWord 1)] }] })
    { gw := [2], prod := some (0, false) } t ∧
    (t.sl.haz.any fun q => q.rem == 2 && q.gs.all fun e => e.1 < 32) = true := Tests.meets_ok (by decide)

/-- The words of LI.W decode to it, whatever its register and its immediate (R217). -/
theorem decodeBytes_liW (d : GReg) (x : Word) :
    decodeBytes (leBytes 2 (0xFFC0 + d.toNat) ++
      (List.range 4).flatMap fun i => leBytes 2 (x.toNat / 2 ^ (48 - 16 * i) % 2 ^ 16)) = .ok (.liW d x, []) := by
  rw [← bytes_liW, ← List.append_nil (Encoding.bytes _)]
  exact decodeBytes_of_statement (RoundTrip.liW d x) rfl rfl []

/-- Refutes O11: the statement speaks of every state, and the number of a g register in an unlanded result is any `Nat`. A
result for number 34, which no instruction makes (R216, R217), is not one that LI.W g2 is checked against, yet it lands in g2
(34 modulo 32). A TSYNC that issues after LI.W inside the window of that result lands the immediate first and the result after
it. `liW_lands_next` is the clause for the results that name g0 to g31, and `decodeBytes_liW` the clause on the words. -/
theorem not_longImmediateLandsNext : ¬ Obligations.LongImmediateLandsNext := by
  rintro ⟨h, -⟩
  obtain ⟨s, hs⟩ : ∃ s, Tests.meets s { gw := [2], prod := some (0, false) } (fun _ => Tests.next (exec (.liW 2 99) s) fun n =>
      Tests.meets n { sync := true } fun v => v.g 2 == Cap.ofWord 1) = true :=
    ⟨Tests.withThread fun y => { y with haz := [{ rem := 2, pk := false, gs := [(34, Cap.ofWord 1)] }] }, by decide⟩
  obtain ⟨t, ht, hn⟩ := Tests.meets_ok hs
  obtain ⟨n, he, -, -, hv⟩ := h 2 99 s t ht
  rw [he, Tests.next] at hn
  obtain ⟨v, hi, hg⟩ := Tests.meets_ok hn
  rw [(hv _ v hi).1] at hg
  exact absurd hg (by decide)

end Sys2Proof.Laws
end

section
/-! PROOFS. The acceptance of a matrix-engine command (R354). -/

namespace Sys2Proof.Machine

/-! ### A change of the issuing core -/

@[simp] theorem cr_modCr (s : State) (f : Core → Core) : (s.modCr f).cr = f s.cr := coreAt_setCore _ _ _

/-- A change of the issuing core outside its slots leaves the issuing slot. -/
theorem sl_modCr (s : State) (f : Core → Core) (hf : (f s.cr).slots = s.cr.slots) : (s.modCr f).sl = s.sl := by
  have h : (s.modCr f).cr.slotAt s.slot = s.cr.slotAt s.slot := by rw [cr_modCr, Core.slotAt, hf, Core.slotAt]
  exact h

@[simp] theorem put_put {α : Type} (l : List (Nat × α)) (k : Nat) (v w : α) : put (put l k v) k w = put l k w := by
  induction l with
  | nil => simp [put]
  | cons p r ih =>
    obtain ⟨a, x⟩ := p
    by_cases h : a = k
    · simp [put, h]
    · simp [put, h, ih]

theorem setCore_setCore (s : State) (c : Coord) (x y : Core) : (s.setCore c x).setCore c y = s.setCore c y := by
  simp [State.setCore]

/-! ### What retires -/

@[simp] theorem sl_retire (s : State) (len : Nat) (u : Uses) (p : Option Producer) :
    (s.retire len u p).sl = retireSlot s.sl len (keepAfter u s.sl.keep) p := sl_modSl _ _

theorem cr_retire (s : State) (len : Nat) (u : Uses) (p : Option Producer) :
    (s.retire len u p).cr = s.cr.setSlot s.slot (s.retire len u p).sl := by rw [sl_retire, State.retire, cr_modSl]

/-- A retirement and a change of the issuing core outside its slots come to the same in either order. -/
theorem retire_modCr (s : State) (f : Core → Core) (hs : ∀ x, (f x).slots = x.slots)
    (hf : ∀ x i y, f (x.setSlot i y) = (f x).setSlot i y) (len : Nat) (u : Uses) (p : Option Producer) :
    (s.modCr f).retire len u p = (s.retire len u p).modCr f := by
  have hsl : ((s.modCr f).retire len u p).sl = (s.retire len u p).sl := by rw [sl_retire, sl_retire, sl_modCr s f (hs _)]
  calc (s.modCr f).retire len u p
      = (s.setCore s.core (f s.cr)).setCore s.core ((s.modCr f).cr.setSlot s.slot ((s.modCr f).retire len u p).sl) := by
        rw [sl_retire]
        rfl
    _ = s.setCore s.core (f (s.retire len u p).cr) := by rw [setCore_setCore, cr_modCr, hsl, cr_retire, hf]
    _ = (s.retire len u p).modCr f := (setCore_setCore ..).symm

/-! ### The job and its id -/

/-- A core with one more outstanding matrix-engine job: the id counter has passed the id of the job (R354). -/
def Core.withMatrixJob (x : Core) (j : EngineJob) : Core :=
  { x with eng := { x.eng with matrixCounter := (j.id + 1) % 256, jobs := x.eng.jobs ++ [j] } }

/-- The job is one more of those outstanding on the issuing core, and the last in the queue of its cluster's matrix engine. -/
def State.withMatrixJob (t : State) (j : EngineJob) : State :=
  (t.modCr (·.withMatrixJob j)).setCluster t.core
    { t.clusterAt t.core with matrixQueue := (t.clusterAt t.core).matrixQueue ++ [j] }

@[simp] theorem sl_withMatrixJob (t : State) (j : EngineJob) : (t.withMatrixJob j).sl = t.sl :=
  sl_modCr t (·.withMatrixJob j) rfl

@[simp] theorem cr_withMatrixJob (t : State) (j : EngineJob) : (t.withMatrixJob j).cr = t.cr.withMatrixJob j :=
  cr_modCr t (·.withMatrixJob j)

@[simp] theorem clusterAt_withMatrixJob (t : State) (j : EngineJob) : (t.withMatrixJob j).clusterAt t.core =
    { t.clusterAt t.core with matrixQueue := (t.clusterAt t.core).matrixQueue ++ [j] } := clusterAt_setCluster _ _ _

/-- The id of an accepted job, which lands in GJ after LA. -/
def idResult (j : EngineJob) : Producer := { rem := j.f.la.toNat, pk := false, gs := [(j.f.gj.toNat, Cap.ofWord (word j.id))] }

/-- With an id free and room in the queue, acceptance gives the job that id. -/
theorem accept_matrix {t : State} {j : EngineJob} {id : Nat} (hk : j.kind = kindMatrix) (hc : j.core = t.core)
    (hid : t.cr.nextId kindMatrix = some id) (hroom : t.engineFull kindMatrix = false) :
    t.accept j = .done (t.withMatrixJob { j with id }) (some (idResult { j with id })) := by
  simp only [State.accept, hk, hid, hroom, State.enqueueJob, hc, if_true]
  rfl

/-- Once the instruction has retired, the command stands accepted as the job `j`. -/
theorem accepted_withMatrixJob {c : Command} {j : EngineJob} {t : State} (u : Uses) (hk : c.kind = kindMatrix)
    (named : j.kind = c.kind ∧ j.op = c.op)
    (issuer : j.core = t.core ∧ j.slot = t.slot ∧ j.gen = t.sl.gen ∧ j.job = t.jobNo ∧ j.priv = t.sl.priv)
    (operands : j.ops = c.operands t) (leases : j.leasedV = c.uses.leaseV ∧ j.leasedT = c.uses.leaseT) :
    Accepted c j.f j.id j t ((t.withMatrixJob j).retire 10 u (some (idResult j))) := by
  have hsl : ((t.withMatrixJob j).retire 10 u (some (idResult j))).sl =
      retireSlot t.sl 10 (keepAfter u t.sl.keep) (some (idResult j)) := by simp
  have hcr : ((t.withMatrixJob j).retire 10 u (some (idResult j))).cr =
      (t.cr.withMatrixJob j).setSlot t.slot ((t.withMatrixJob j).retire 10 u (some (idResult j))).sl := by
    rw [cr_retire, cr_withMatrixJob]
    rfl
  have hcl : ((t.withMatrixJob j).retire 10 u (some (idResult j))).clusterAt t.core =
      { t.clusterAt t.core with matrixQueue := (t.clusterAt t.core).matrixQueue ++ [j] } := clusterAt_withMatrixJob t j
  exact {
    named := ⟨named.1, named.2, rfl, rfl⟩
    issuer, operands, leases
    outstanding := by rw [hcr]; rfl
    counters := by rw [hcr, if_pos hk]; rfl
    matrixQueue := by rw [hcl, if_pos hk]
    porterQueue := by rw [hcl, hk]; simp [kindMatrix, kindPorter]
    stairQueue := by rw [hcr, hk]; simp [kindMatrix, kindStair, Core.setSlot, Core.withMatrixJob]
    ringQueue := by rw [hk]; exact (List.append_nil _).symm
    unlanded := by rw [hsl]; rfl
    g := fun r _ => by rw [State.g, hsl]; rfl
    kept := by rw [hsl]; constructor <;> rfl
    rest := by rw [hcr]; exact ⟨rfl, rfl, rfl, rfl, rfl, rfl, rfl, rfl, rfl⟩
    ready := by rw [hsl]; rfl
    pc := by rw [hsl]; rfl }

end Sys2Proof.Machine
end

section
/-! PROOFS. MSWAP (R361). -/

namespace Sys2Proof.Machine

/-! ### The bank selector (R352) -/

/-- A core with its bank selector inverted. -/
def Core.swapBank (x : Core) : Core := { x with eng := { x.eng with bank := !x.eng.bank } }

/-- Acceptance says nothing of the bank selector. -/
theorem Accepted.swapBank {c : Command} {f : EForm} {id : Nat} {j : EngineJob} {t n : State} (h : Accepted c f id j t n) :
    Accepted c f id j t (n.modCr Core.swapBank) := by
  have hcr : (n.modCr Core.swapBank).cr = n.cr.swapBank := cr_modCr _ _
  have hsl : (n.modCr Core.swapBank).sl = n.sl := sl_modCr n Core.swapBank rfl
  exact { h with
    outstanding := by rw [hcr]; exact h.outstanding
    counters := by rw [hcr]; exact h.counters
    stairQueue := by rw [hcr]; exact h.stairQueue
    unlanded := by rw [hsl]; exact h.unlanded
    g := fun r hr => by rw [State.g, hsl]; exact h.g r hr
    kept := by rw [hsl]; exact h.kept
    rest := by rw [hcr]; exact h.rest
    ready := by rw [hsl]; exact h.ready
    pc := by rw [hsl]; exact h.pc }

/-! ### MSWAP at issue (R361) -/

/-- What MSWAP names: GJ alone, at system privilege only. -/
def mswapUses (f : EForm) : Uses := { engineUses f (specMswap f) with sysOnly := true }

/-- The shadow and the accumulator area are equal and not empty. -/
def State.banksEqual (t : State) : Prop := shs t.cr.partw = acs t.cr.partw ∧ acs t.cr.partw ≠ 0

/-- The check of the areas that refuses MSWAP, as the model writes it. -/
theorem banksUnequal_iff (t : State) : (shs t.cr.partw != acs t.cr.partw || acs t.cr.partw == 0) = true ↔ ¬ t.banksEqual := by
  simp [State.banksEqual, or_iff_not_imp_left]

/-- A matrix job of the core is outstanding. -/
def State.matrixBusy (t : State) : Bool := t.cr.eng.jobs.any (·.kind == kindMatrix)

theorem mswap_unprivileged {s : State} (f : EForm) (h : s.sl.priv = false) :
    exec (.mswap f) s = .next (s.takeTrap 0x01 s.sl.pc.addr s.fetched) :=
  congrArg Host.Outcome.next (issueState_unprivileged rfl h _ _ _)

/-- The job of an MSWAP that is accepted at `t` with the id `id`. -/
def mswapJob (f : EForm) (t : State) (id : Nat) : EngineJob := { jobOf t kindMatrix 0x84 f (specMswap f) with id }

section
variable {f : EForm} {s t : State} (h : Issues s (mswapUses f) t)
include h

theorem mswap_banksUnequal (hne : ¬ t.banksEqual) : exec (.mswap f) s = .next (t.takeTrap 0x02 t.sl.pc.addr 0) := by
  refine (issue_of_issues h 10 _).trans ?_
  rw [if_pos ((banksUnequal_iff t).mpr hne)]
  rfl

theorem mswap_busy (he : t.banksEqual) (hb : t.matrixBusy = true) :
    exec (.mswap f) s = .next (settle 10 (mswapUses f) (.stay (t.awaiting .stalled .room))) := by
  rw [State.matrixBusy] at hb
  refine (issue_of_issues h 10 _).trans ?_
  rw [if_neg (mt (banksUnequal_iff t).mp (not_not.mpr he)), if_pos hb]

theorem mswap_accepted (he : t.banksEqual) (hb : t.matrixBusy = false) {id : Nat} (hid : t.cr.nextId kindMatrix = some id)
    (hroom : t.engineFull kindMatrix = false) : exec (.mswap f) s =
      .next (((t.withMatrixJob (mswapJob f t id)).retire 10 (mswapUses f) (some (idResult (mswapJob f t id)))).modCr Core.swapBank) := by
  rw [State.matrixBusy] at hb
  refine (issue_of_issues h 10 _).trans ?_
  rw [if_neg (mt (banksUnequal_iff t).mp (not_not.mpr he)), if_neg (Bool.eq_false_iff.mp hb), accept_matrix rfl rfl hid hroom]
  exact congrArg Host.Outcome.next (retire_modCr _ Core.swapBank (fun _ => rfl) (fun _ _ _ => rfl) _ _ _)

end

/-- As the engine runs it, MSWAP ends at once with DONEC 1, and nothing is read or written. -/
theorem matrixRun_mswap (s : State) (j : EngineJob) (hi : Nat) (h : j.op = 0x84) : matrixRun s j hi = .ended s 1 0 none := by
  simp only [matrixRun, h]

/-- An instruction that stands Stalled for room leaves the PC, the g registers, the memory and the engines. -/
theorem stalled_for_room (t : State) (len : Nat) (u : Uses) : ∃ n, settle len u (.stay (t.awaiting .stalled .room)) = n ∧
    n.sl.st = .stalled ∧ n.sl.pc = t.sl.pc ∧ n.cr.eng = t.cr.eng ∧ SameG [] t n ∧ n.mem = t.mem := by
  refine ⟨_, rfl, ?_, ?_, ?_, fun r _ => ?_, rfl⟩
  · simp [settle, State.awaiting]
  · simp [settle, State.awaiting]
  · simp [settle, State.awaiting, cr_modSl, Core.setSlot]
  · simp [settle, State.awaiting, State.g]

end Sys2Proof.Machine
end

section
/-! PROOFS. What decodes to an engine command (R217, R228, R353). -/

namespace Sys2Proof.Laws

open Sys2Proof.Machine

/-! ### The compact, the 32-bit and the scheduled forms hold no engine command -/

/-- The answer of a decoder holds no engine command. -/
def engineless : Except Reject Instr → Bool
  | .ok i => (engineSpec i).isNone
  | .error _ => true

theorem engineless_decodeMap0 (m : Nat) (d a b : BitVec 5) (fn : BitVec 7) : engineless (decodeMap0 m d a b fn) = true := by
  unfold decodeMap0 need
  repeat' split
  all_goals rfl

theorem engineless_decodeMap1 (m : Nat) (d a b : BitVec 5) (fn : BitVec 7) : engineless (decodeMap1 m d a b fn) = true := by
  unfold decodeMap1 need
  repeat' split
  all_goals rfl

theorem engineless_decodeMap2 (m : Nat) (d a b : BitVec 5) (fn : BitVec 7) : engineless (decodeMap2 m d a b fn) = true := by
  unfold decodeMap2 need
  repeat' split
  all_goals rfl

theorem engineless_decode16 (w : BitVec 16) : engineless (decode16 w) = true := by
  simp only [decode16, need]
  repeat' split
  all_goals rfl

theorem engineless_decode32 (w : BitVec 32) : engineless (decode32 w) = true := by
  simp only [decode32]
  split
  · exact engineless_decodeMap0 ..
  · exact engineless_decodeMap1 ..
  · exact engineless_decodeMap2 ..

theorem engineless_decodeSched (op : Nat) (f : SForm) : engineless (decodeSched op f) = true := by
  unfold decodeSched
  repeat' split
  all_goals rfl

/-! ### The word of a command -/

/-- What passes the checks of its fields is what stood there. -/
theorem checked_eq_ok {r : Except Reject Instr} {i : Instr} (h : checked r = .ok i) : r = .ok i ∧ illForm i = none := by
  unfold checked at h
  split at h
  · cases h
  · split at h
    · cases h
    · obtain rfl := Except.ok.inj h
      exact ⟨rfl, ‹_›⟩

theorem eq_of_map_eq_ok {r : Except Reject Instr} {i : Instr} {l rest : List Byte} (h : r.map (·, l) = .ok (i, rest)) :
    r = .ok i := by
  cases r with
  | error e => cases h
  | ok j =>
    cases h
    rfl

theorem engineSpec_of_engineless {r : Except Reject Instr} (hr : engineless r = true) {i : Instr} (h : r = .ok i) :
    engineSpec i = none := by
  subst h
  exact Option.isNone_iff_eq_none.mp hr

/-- What a decoder without engine commands answers is none, once its fields are checked. -/
theorem engineSpec_of_checked {r : Except Reject Instr} (hr : engineless r = true) {i : Instr} {l rest : List Byte}
    (h : (checked r).map (·, l) = .ok (i, rest)) : engineSpec i = none :=
  engineSpec_of_engineless hr (checked_eq_ok (eq_of_map_eq_ok h)).1

/-- The first parcel of a ten-byte form begins with four ones. -/
theorem parcel_of_ten {p : BitVec 16} (h2 : parcelLength p ≠ 2) (h4 : parcelLength p ≠ 4) : (p.extractLsb' 12 4).toNat = 15 := by
  have hlt := (p.extractLsb' 12 4).isLt
  have : ¬ (p.extractLsb' 14 2).toNat < 3 := fun h => h2 (if_pos h)
  rw [parcelLength, if_neg this] at h4
  by_contra h
  exact h4 (if_pos (by omega))

/-- An engine command stands in ten bytes, of which the first two are the top of its word. -/
theorem decodeBytes_engine {l rest : List Byte} {i : Instr} (h : decodeBytes l = .ok (i, rest)) (he : engineSpec i ≠ none) :
    ∃ b0 b1 r, l = b0 :: b1 :: r ∧ ((parcel b0 b1).extractLsb' 12 4).toNat = 15 ∧
      ∃ w, w.extractLsb' 64 16 = parcel b0 b1 ∧ decode80 w = .ok i := by
  unfold decodeBytes at h
  split at h
  next b0 b1 r =>
    refine ⟨b0, b1, r, rfl, ?_⟩
    simp only at h
    split at h
    · exact absurd (engineSpec_of_checked (engineless_decode16 _) h) he
    · split at h
      · exact absurd (engineSpec_of_checked (engineless_decode32 _) h) he
      · cases h
    next h2 h4 =>
      refine ⟨parcel_of_ten h2 h4, ?_⟩
      split at h
      · refine ⟨_, ?_, eq_of_map_eq_ok h⟩
        simp (disch := decide) only [BitVec.extractLsb'_append_eq_of_le]
        exact BitVec.extractLsb'_eq_self
      · cases h
  · cases h

/-- The operation number and the form of an engine command are those of its word. -/
theorem assemble80_engine {w : BitVec 80} {i : Instr} (h : assemble80 w = .ok i) (he : engineSpec i ≠ none) :
    decodeEngine (w.extractLsb' 68 8).toNat (eform w) = .ok i := by
  simp only [assemble80] at h
  split at h
  · split at h
    · exact absurd (engineSpec_of_engineless (engineless_decodeSched _ _) h) he
    · split at h <;> cases h
  · split at h
    · exact h
    · split at h
      · cases h
        exact absurd rfl he
      · split at h
        · cases h
          exact absurd rfl he
        · cases h

/-- MSWAP is operation number 0x84 (R353). -/
theorem decodeEngine_mswap {op : Nat} {f g : EForm} (h : decodeEngine op f = .ok (.mswap g)) : op = 132 ∧ g = f := by
  unfold decodeEngine at h
  repeat' split at h
  all_goals cases h
  exact ⟨rfl, rfl⟩

theorem illEngine_type {f : EForm} {sp : EngineSpec} (h : illEngine f sp = none) : sp.types.testBit f.t.toNat = true := by
  by_contra hn
  rw [illEngine, if_pos (by simpa using hn)] at h
  cases h

/-- MSWAP accepts type code 0 alone (R353). -/
theorem mswap_type {f : EForm} (h : illForm (.mswap f) = none) : f.t = 0 := by
  have ht : Nat.testBit 1 f.t.toNat = true := illEngine_type h
  exact BitVec.eq_of_toNat_eq (Nat.testBit_one_eq_true_iff_self_eq_zero.mp ht)

/-- The first parcel of MSWAP: OPC is the operation number and the type code (R218, R353). -/
theorem parcel_mswap {l rest : List Byte} {f : EForm} (h : decodeBytes l = .ok (.mswap f, rest)) :
    ∃ b0 b1 r, l = b0 :: b1 :: r ∧ (parcel b0 b1).toNat = 0xF840 := by
  obtain ⟨b0, b1, r, rfl, htop, w, hw, hd⟩ := decodeBytes_engine h (by simp [engineSpec])
  obtain ⟨ha, hill⟩ := checked_eq_ok hd
  obtain ⟨hop, rfl⟩ := decodeEngine_mswap (assemble80_engine ha (by simp [engineSpec]))
  refine ⟨b0, b1, r, rfl, ?_⟩
  have ht : (w.extractLsb' 64 4).toNat = 0 := congrArg BitVec.toNat (mswap_type hill)
  rw [← hw] at htop ⊢
  simp only [BitVec.extractLsb'_toNat, Nat.shiftRight_eq_div_pow] at htop hop ht ⊢
  omega

end Sys2Proof.Laws
end

section
/-! PROOFS. MSWAP as a whole (R361). -/

namespace Sys2Proof.Laws

open Sys2Proof.Machine

/-- MSWAP as a command, in the terms of `Accepted`. -/
noncomputable def mswapCommand (f : EForm) : Command :=
  { instr := .mswap f, uses := mswapUses f, kind := kindMatrix, op := 0x84
    checks := fun _ => [], operands := fun t => operandsOf t f (specMswap f) false }

/-- Where nothing stops it, MSWAP is accepted and leaves the bank selector inverted. -/
theorem mswap_swaps {f : EForm} {s t : State} (h : Issues s (mswapUses f) t) {id : Nat} (he : t.banksEqual)
    (hb : t.matrixBusy = false) (hid : t.cr.nextId kindMatrix = some id) (hroom : t.engineFull kindMatrix = false) :
    ∃ n j, exec (.mswap f) s = .next n ∧ Accepted (mswapCommand f) f id j t n ∧ n.cr.eng.bank = !t.cr.eng.bank := by
  have hacc := accepted_withMatrixJob (c := mswapCommand f) (j := mswapJob f t id) (mswapUses f) rfl ⟨rfl, rfl⟩
    ⟨rfl, rfl, rfl, rfl, rfl⟩ rfl ⟨rfl, rfl⟩
  refine ⟨_, mswapJob f t id, mswap_accepted h he hb hid hroom, hacc.swapBank, ?_⟩
  rw [cr_modCr, cr_retire, cr_withMatrixJob]
  rfl

/-- Settles O46: the checks of MSWAP in their order, its acceptance with the selector inverted, its run, and the first parcel
of its word. -/
theorem matrixBanksSwap : Obligations.MatrixBanksSwap := by
  refine ⟨fun f s t => ⟨mswap_unprivileged f, fun h => ⟨?_, ?_, mswap_banksUnequal h⟩⟩, matrixRun_mswap, fun _ _ _ _ _ => rfl,
    fun _ _ _ => parcel_mswap⟩
  · exact fun id he hb hid hroom => mswap_swaps h he hb hid hroom
  · intro he hb
    obtain ⟨n, rfl, hn⟩ := stalled_for_room t 10 (mswapUses f)
    exact ⟨_, mswap_busy h he hb, hn⟩

end Sys2Proof.Laws
end

section
/-! PROOFS. The fields of a DONE entry, and the removal of one (R124, R423). -/

namespace Sys2Proof.Machine

/-! ### The fields of an entry (R124) -/

/-- The field [hi:lo] of a word, named by its first bit and its length. -/
theorem bits_toNat_extractLsb' {n : Nat} (x : BitVec n) (hi lo : Nat) :
    bits x.toNat hi lo = (x.extractLsb' lo (hi + 1 - lo)).toNat := by
  rw [BitVec.extractLsb'_toNat, Nat.shiftRight_eq_div_pow, bits]

/-- The cause of an entry is zero when its field is. -/
theorem entryCause_eq_zero (e : Entry) : entryCause e = 0 ↔ e.extractLsb' 488 8 = 0 := by
  rw [entryCause, bits_toNat_extractLsb']
  exact (BitVec.toNat_eq (x := e.extractLsb' 488 8) (y := 0)).symm

theorem entryAddr_eq (e : Entry) : entryAddr e = e.extractLsb' 352 64 := by
  rw [entryAddr, bits_toNat_extractLsb']
  exact (BitVec.ofNat_toNat 64 (e.extractLsb' 352 64)).trans (BitVec.setWidth_eq _)

/-! ### The first element that satisfies a condition -/

/-- Behind elements that do not satisfy it, the first that does is taken out where it stands. -/
theorem dropFirst_append_cons {α : Type} {p : α → Bool} {l : List α} {e : α} (r : List α) (hl : l.any p = false)
    (he : p e = true) : dropFirst p (l ++ e :: r) = l ++ r := by
  induction l with
  | nil => simp [dropFirst, he]
  | cons x l ih =>
    obtain ⟨hx, hl⟩ := Bool.or_eq_false_iff.mp (List.any_cons ▸ hl)
    simp [dropFirst, hx, ih hl]

theorem find?_append_cons {α : Type} {p : α → Bool} {l : List α} {e : α} (r : List α) (hl : l.any p = false)
    (he : p e = true) : (l ++ e :: r).find? p = some e := by
  rw [List.find?_eq_some_iff_append]
  refine ⟨he, l, r, rfl, fun x hx => ?_⟩
  rw [Bool.eq_false_of_not_eq_true (List.any_eq_false.mp hl x hx), Bool.not_false]

/-! ### What follows the removal (R423) -/

/-- An entry without a fault: the instruction retires. -/
theorem settle_taken_clean {e : Entry} (h : e.extractLsb' 488 8 = 0) (t : State) (len : Nat) (u : Uses) :
    settle len u (taken t e) = t.retire len u none := by
  rw [taken, if_pos ((entryCause_eq_zero e).mpr h)]
  rfl

/-- A fault entry: the instruction retires, and engine job fault is raised at the next one. -/
theorem settle_taken_fault {e : Entry} (h : e.extractLsb' 488 8 ≠ 0) (t : State) (len : Nat) (u : Uses) :
    settle len u (taken t e) =
      (t.retire len u none).takeTrap 0x12 (t.retire len u none).sl.pc.addr (e.extractLsb' 352 64) true := by
  rw [taken, if_neg (mt (entryCause_eq_zero e).mp h), entryAddr_eq]
  rfl

end Sys2Proof.Machine
end

section
/-! PROOFS. MSTAT, CSTAT and MWAIT (R362, R372). -/

namespace Sys2Proof.Machine

/-! ### The messages of the core, checks of register values, and waiting -/

/-- Slot 0 is the slot of a handler. -/
theorem inHandler_iff (t : State) : t.inHandler = true ↔ t.slot = 0 := beq_iff_eq

/-- The messages of the core and its pigeonhole stand outside the issuing slot. -/
theorem SameAround.msg {t n : State} (h : SameAround t n) : n.cr.msg = t.cr.msg := by
  simpa using congrArg Core.msg h.ownCore

/-- A malformed operand found in a register value takes the trap that names it, and nothing lands. -/
theorem issuePre_refused {s t : State} {u : Uses} (h : Issues s u t) {pre : State → Option Nat} {cause : Nat}
    (hp : pre t = some cause) (len : Nat) (body : State → Ret) :
    issuePre s len u pre body = .next (s.takeTrap cause s.sl.pc.addr 0) := by
  obtain ⟨l, k, hc, -, rfl⟩ := h.lands
  have hs : (u.sysOnly && !s.sl.priv) = false := by
    cases hu : u.sysOnly
    · rfl
    · simp [h.privileged hu]
  simp [issuePre, issueState, hs, h.formed, h.aligned, hc, hp]

/-- An instruction that has begun to wait leaves the PC and the g registers. -/
theorem settle_awaiting (t : State) (st : SlotState) (w : Await) (len : Nat) (u : Uses) :
    ∃ n, settle len u (.stay (t.awaiting st w)) = n ∧ n.sl.st = st ∧ SameG [] t n ∧ n.sl.pc = t.sl.pc := by
  refine ⟨_, rfl, ?_, fun r _ => ?_, ?_⟩ <;> simp [settle, State.awaiting, State.g]

theorem idCheck_bad {a : GReg} {t : State} (h : 256 ≤ (t.ga a).toNat) : idCheck a t = some 0x02 := if_pos h

theorem idCheck_ok {a : GReg} {t : State} (h : (t.ga a).toNat < 256) : idCheck a t = none := if_neg (by omega)

/-! ### The status of a job (R362, R372) -/

theorem jobStatus_outstanding {x : Core} {kind id : Nat} (h : x.outstanding kind id = true) :
    jobStatus x kind id = BitVec.ofNat 64 (0xFF * 2 ^ 56 + 2 ^ 48 * id) := by
  rw [jobStatus, if_pos h, at_, Nat.mul_comm id]
  rfl

theorem jobStatus_none {x : Core} {kind id : Nat} (h : x.outstanding kind id = false)
    (he : x.msg.pigeonhole.find? (entryIs kind id) = none) : jobStatus x kind id = 0 := by
  rw [jobStatus, if_neg (Bool.eq_false_iff.mp h), he]

theorem jobStatus_entry {x : Core} {kind id : Nat} {e : Entry} (h : x.outstanding kind id = false)
    (he : x.msg.pigeonhole.find? (entryIs kind id) = some e) : jobStatus x kind id = entrySummary e := by
  rw [jobStatus, if_neg (Bool.eq_false_iff.mp h), he]

/-! ### What MWAIT leaves when it takes an entry (R362) -/

/-- A core whose pigeonhole has lost its first entry of matrix job `id`. -/
def Core.withoutEntry (id : Nat) (x : Core) : Core :=
  { x with msg := { x.msg with pigeonhole := dropFirst (entryIs kindMatrix id) x.msg.pigeonhole } }

/-- The state in which MWAIT has moved the entry `e` of matrix job `id` to g register `d`. -/
def State.takesEntry (t : State) (id : Nat) (d : GReg) (e : Entry) : State :=
  (t.modCr (Core.withoutEntry id)).writeInt d (entrySummary e)

/-- Once MWAIT has retired, the entry has left the pigeonhole, its summary stands in `d`, and no other register and no byte
has changed. -/
theorem takesEntry_retires (t : State) (id : Nat) (d : GReg) (e : Entry) (u : Uses) :
    let n := (t.takesEntry id d e).retire 4 u none
    n.cr.msg.pigeonhole = dropFirst (entryIs kindMatrix id) t.cr.msg.pigeonhole ∧ n.g d = Cap.ofWord (entrySummary e) ∧
      SameG [d] t n ∧ n.mem = t.mem ∧ n.sl.pc = { t.sl.pc with addr := t.sl.pc.addr + 4 } := by
  have hsl : (t.modCr (Core.withoutEntry id)).sl = t.sl := sl_modCr t (Core.withoutEntry id) rfl
  obtain ⟨hr, hg⟩ := retired_setG (t.modCr (Core.withoutEntry id)) d (Cap.ofWord (entrySummary e)) 4 u none
  have hmsg : ((t.takesEntry id d e).retire 4 u none).cr.msg = (t.modCr (Core.withoutEntry id)).cr.msg :=
    hr.around.msg
  refine ⟨by rw [hmsg, cr_modCr, Core.withoutEntry], hg, fun r hd => ?_, rfl, hsl ▸ hr.pc⟩
  exact (hr.others r hd).trans (by rw [State.g, hsl, State.g])

section
variable {d a : GReg} {s t : State} (h : Issues s (usesG [d] [a]) t)
include h

/-! ### The instructions -/

/-- An id above 255 is an illegal operand of all three. -/
theorem badId_refused (hid : 256 ≤ (t.ga a).toNat) : ∀ i ∈ [Instr.mstat d a, .cstat d a, .mwait d a],
    exec i s = .next (s.takeTrap 0x02 s.sl.pc.addr 0) := by
  simp only [List.forall_mem_cons]
  exact ⟨issuePre_refused h (idCheck_bad hid) 4 _, issuePre_refused h (idCheck_bad hid) 4 _,
    issuePre_refused h (idCheck_bad hid) 4 _, by simp⟩

/-- MSTAT and CSTAT retire with the status of the job, and change nothing else. -/
theorem statOp_retires (hid : (t.ga a).toNat < 256) (kind : Nat) :
    ∃ n, statOp kind d a s = .next n ∧ Retired 4 [d] t n ∧ n.ga d = jobStatus t.cr kind (t.ga a).toNat := by
  obtain ⟨hr, hg⟩ := retired_setG t d (Cap.ofWord (jobStatus t.cr kind (t.ga a).toNat)) 4 (usesG [d] [a]) none
  exact ⟨_, issuePre_of_issues h 4 _ _ (idCheck_ok hid), hr, congrArg Cap.addr hg⟩

theorem mwait_handler (hid : (t.ga a).toNat < 256) (hs : t.slot = 0) :
    exec (.mwait d a) s = .next (t.takeTrap 0x0E t.sl.pc.addr 0) := by
  refine (issuePre_of_issues h 4 _ _ (idCheck_ok hid)).trans ?_
  rw [if_pos ((inHandler_iff t).mpr hs)]
  rfl

section
variable (hid : (t.ga a).toNat < 256) (hs : t.slot ≠ 0)
include hid hs

theorem mwait_waits (ho : t.cr.outstanding kindMatrix (t.ga a).toNat = true) :
    ∃ n, exec (.mwait d a) s = .next n ∧ n.sl.st = .waiting ∧ SameG [] t n ∧ n.sl.pc = t.sl.pc := by
  obtain ⟨n, rfl, hn⟩ := settle_awaiting t .waiting (.job (t.ga a).toNat) 4 (usesG [d] [a])
  refine ⟨_, (issuePre_of_issues h 4 _ _ (idCheck_ok hid)).trans ?_, hn⟩
  rw [if_neg (mt (inHandler_iff t).mp hs), if_pos ho]

theorem mwait_none (ho : t.cr.outstanding kindMatrix (t.ga a).toNat = false)
    (he : t.cr.msg.pigeonhole.find? (entryIs kindMatrix (t.ga a).toNat) = none) :
    ∃ n, exec (.mwait d a) s = .next n ∧ Retired 4 [d] t n ∧ n.g d = Cap.ofWord 0 := by
  obtain ⟨hr, hg⟩ := retired_setG t d (Cap.ofWord 0) 4 (usesG [d] [a]) none
  refine ⟨_, (issuePre_of_issues h 4 _ _ (idCheck_ok hid)).trans ?_, hr, hg⟩
  rw [if_neg (mt (inHandler_iff t).mp hs), if_neg (Bool.eq_false_iff.mp ho), he]
  rfl

theorem mwait_takes (ho : t.cr.outstanding kindMatrix (t.ga a).toNat = false) {e : Entry}
    (he : t.cr.msg.pigeonhole.find? (entryIs kindMatrix (t.ga a).toNat) = some e) :
    exec (.mwait d a) s = .next (settle 4 (usesG [d] [a]) (taken (t.takesEntry (t.ga a).toNat d e) e)) := by
  refine (issuePre_of_issues h 4 _ _ (idCheck_ok hid)).trans ?_
  rw [if_neg (mt (inHandler_iff t).mp hs), if_neg (Bool.eq_false_iff.mp ho), he]
  rfl

end
end

end Sys2Proof.Machine

namespace Sys2Proof.Laws

open Sys2Proof.Machine

/-- The same machine where the DONE entry of matrix job 7 stands with home lost at 0x40. -/
def faultedJob (s : State) : State := s.modCr fun x => { x with msg := { x.msg with
  pigeonhole := [BitVec.ofNat 512 (2 ^ 504 * 2 + 2 ^ 496 * 7 + 2 ^ 488 * 0x10 + 2 ^ 352 * 0x40 + 2 ^ 320 * 9)] } }

theorem meets_jobStatus_fault : ∃ t, Issues (faultedJob Tests.one) (usesG [5] [2]) t ∧
    (decide (t.slot ≠ 0 ∧ t.cr.outstanding kindMatrix 7 = false ∧ t.cr.msg.pigeonhole.map (entryIs kindMatrix 7) = [true]) &&
      Tests.trapped (exec (.mwait 5 2) (faultedJob Tests.one)) 0x112 0x0400000000010104 0x40 &&
      Tests.next (exec (.mwait 5 2) (faultedJob Tests.one)) fun n =>
        n.ga 5 == 0x0207100000000009 && n.cr.msg.pigeonhole.isEmpty) = true := Tests.meets_ok (by decide +kernel)

theorem meets_jobStatus_handler : ∃ t, Issues (faultedJob Tests.handler) (usesG [5] [2]) t ∧
    (decide (t.slot = 0 ∧ (t.ga 2).toNat < 256) &&
      Tests.trapped (exec (.mwait 5 2) (faultedJob Tests.handler)) 0x0E 0x0400000000010100 0) = true :=
  Tests.meets_ok (by decide +kernel)

/-- Settles O39: every id above 255 is refused, MSTAT and CSTAT retire with `jobStatus`, MWAIT stops, waits or retires by what
stands of its job, and the two words decode. -/
theorem jobStatus : Obligations.JobStatus := by
  refine ⟨fun d a s t h => ⟨badId_refused h, fun hid => ⟨?_, mwait_handler h hid, mwait_waits h hid, mwait_none h hid, ?_⟩⟩,
    Tests.test_decode_mwait, Tests.test_decode_cstat⟩
  · intro p hp
    obtain ⟨n, hn, hr, hg⟩ := statOp_retires h hid p.2
    refine ⟨n, ?_, hr, ?_⟩
    · obtain rfl | rfl : p = (.mstat d a, kindMatrix) ∨ p = (.cstat d a, kindPorter) := by simpa using hp
      · exact hn
      · exact hn
    · rw [hg]
      exact ⟨jobStatus_outstanding, jobStatus_none, fun e => jobStatus_entry⟩
  · intro e l r hs ho hl hany he
    have hx := mwait_takes h hid hs ho (hl ▸ find?_append_cons r hany he)
    obtain ⟨hq, hg, hother, hmem, hpc⟩ := takesEntry_retires t (t.ga a).toNat d e (usesG [d] [a])
    rw [hl, dropFirst_append_cons r hany he] at hq
    refine ⟨_, hq, hg, hother, hmem, hpc, fun hc => ?_, fun hc => ?_⟩
    · rw [hx, settle_taken_clean hc]
    · rw [hx, settle_taken_fault hc, hpc]

end Sys2Proof.Laws
end
